-- ==== Sys2Proof/Word.lean ====
section
/-! DEFINITION. The plain word types of the model, and the sparse table type every indexed piece of state is kept in. -/

namespace Sys2Proof

/-- A byte of a memory or of a frame on a wire. -/
abbrev Byte := BitVec 8

/-- A 32-bit register (R41). -/
abbrev W32 := BitVec 32

/-- A 48-bit engine word, time or position (R8, R38, R250). -/
abbrev W48 := BitVec 48

/-- One 64-bit memory location. -/
abbrev W64 := BitVec 64

/-- A table indexed by numbers, kept as a list of the entries that differ from the table's default value. -/
abbrev Tab (α : Type) := List (Nat × α)

/-- Instants, in units of one twelfth of a nanosecond: an engine cycle (1 / 750 MHz) is 16 units, an Invar tick (2 ns)
is 24, a quarter of a nanosecond is 3. The unit is the largest that divides every period the spec names. -/
abbrev Time := Nat

end Sys2Proof
end

