-- ==== Sys2Proof/Payload.lean ====
section
/-! DEFINITION. The types of the commands' operands: what a master, a wire or the partner presents to the block. -/

namespace Sys2Proof

/-- Who makes an access, with the codes of CHIP.ERR_INFO.MASTER (Table 2.6). -/
inductive Master where
  | host
  | cascade
  | engine
  | dma
  | geyser
  | luavan
  | axisPage
  deriving DecidableEq, Repr

/-- The size of an access in bytes (Table 2.1). -/
inductive AccSize where
  | b1
  | b2
  | b4
  | b8
  deriving DecidableEq, Repr

/-- What the scrubber meets: a single-bit or a double-bit error, at one 64-bit location (R17) or in the context of an acquisition channel (R385). -/
structure EccHit where
  addr : BitVec 25
  double : Bool
  channel : Option (Fin 256) := none
  deriving DecidableEq, Repr

/-- Who writes a command window: an engine, or any other master (R308). -/
inductive WindowWriter where
  | engine (e : Fin 32)
  | other (m : Master)
  deriving DecidableEq, Repr

/-- How a frame on a line ended: whole and well coded, ended by ABORT, with a code or disparity error or a failed CRC (R296),
or cut short by the SFD of the next frame (R315). -/
inductive FrameEnd where
  | good
  | aborted
  | badCheck
  | cut
  deriving DecidableEq, Repr

/-- A fault of a branch port's receiver: its lock is lost, or a code or disparity error comes outside frames (Table 10.9). -/
inductive RxFault where
  | lockLoss
  | codeError
  deriving DecidableEq, Repr

/-- A slot frame as it arrives (Table 9.10): the arrival of its SFD and of its EFD, how it ended, its length in bytes, its 48-bit
data words from W0, and its safety sub-frame. -/
structure SlotFrame where
  sfd : Time
  efd : Time
  fin : FrameEnd
  len : Nat
  words : List W48
  sub : BitVec 128
  deriving DecidableEq, Repr

/-- An uplink or downlink fragment (Table 9.15). -/
structure Fragment where
  sfd : Time
  efd : Time
  fin : FrameEnd
  node : BitVec 5
  frag : BitVec 3
  last : Bool
  adm : Bool
  msIdx : Byte
  seq : Byte
  data : List Byte
  deriving DecidableEq, Repr

/-- A REQUEST (Table 10.4). -/
structure RequestMsg where
  sfd : Time
  efd : Time
  good : Bool
  vendor : W32
  ntype : W32
  serial : W48
  crc : W32
  deriving DecidableEq, Repr

/-- The state of a line-position source as it is broadcast or agreed: position, sample time, velocity and acceleration (R263). -/
structure LpState where
  lam : W48
  tl : W48
  vbar : W48
  acc : W48
  lpk : W48
  deriving DecidableEq, Repr

/-- A PTP Sync or Follow_Up: domain, source identity, two-step flag, sequence number, origin timestamp as plant seconds and
nanoseconds, correction field in 2^-16 ns, logMessageInterval (R411), and the Ethernet port and transport it came by: UDP/IPv4, or IEEE 802.3 (Table 12.3). -/
structure PtpMsg where
  domain : Byte
  clk : W64
  port : BitVec 16
  twoStep : Bool
  seq : BitVec 16
  sec : W48
  ns : W32
  corr : W64
  logInt : Byte
  eth : Fin 2 := 0
  udp : Bool := false
  deriving DecidableEq, Repr

/-- A Delay_Resp: as a PTP message, with the Delay_Req it answers (R411). -/
structure PtpDelayResp where
  msg : PtpMsg
  reqSeq : BitVec 16
  forUs : Bool
  deriving DecidableEq, Repr

/-- One QE channel's agreed latches (Table 13.4). -/
structure QeState where
  cycPos : W32
  cycAng : W32
  edgeT : W48
  deriving DecidableEq, Repr

/-- A token the agreement record posts: which arc source it comes from, and its word. -/
structure AgreedToken where
  kind : BitVec 3
  src : BitVec 12
  word : W48
  deriving DecidableEq, Repr

/-- What a standby's Crater takes of a branch of the active (R434): whether the active runs it, NODE.STATE, NODE.DELAY and NODE.DELAY_FAR of each hop, DTOTAL, and
the held command of each slot. -/
structure BranchAgree where
  runs : Bool
  nodes : List (W32 × W32 × W32)
  dtotal : W32
  held : List (List W48)
  deriving DecidableEq, Repr

/-- The agreement record of a cycle (R431): the line positions, the QE latches, the tokens to post and the delay-list tick
advances of the boundary, the active's TCYC, and its branches (R434). -/
structure AgreementRec where
  cycle : W48
  lps : List LpState
  qes : List QeState
  tokens : List AgreedToken
  ticks : List Nat
  tcyc : Option W48 := none
  branches : List BranchAgree := []
  deriving DecidableEq, Repr

/-- A CAN frame on the bus (Table 17.2). -/
structure CanFrame where
  id : BitVec 29
  ide : Bool
  rtr : Bool
  dlc : BitVec 4
  fdf : Bool
  brs : Bool
  esi : Bool
  sofNs : W48
  data : List Byte
  deriving DecidableEq, Repr

/-- The error kinds of ECNT (Table 17.5). -/
inductive CanErr where
  | stuff
  | form
  | ack
  | bit1
  | bit0
  | crc
  deriving DecidableEq, Repr

/-- How a CAN transmission attempt failed (R566, R568). -/
inductive CanAttempt where
  | lostArbitration
  | error (k : CanErr)
  deriving DecidableEq, Repr

/-- An Ethernet frame received: its bytes without the FCS, whether its FCS was good, its length with the FCS, and the ingress
timestamp at the PCS boundary: nanosecond field and fraction of device time (R412, R573, R575). -/
structure EthFrame where
  bytes : List Byte
  fcsGood : Bool
  len : Nat
  stamp : W48
  frac : BitVec 16 := 0
  deriving DecidableEq, Repr

/-- A candidate for cascade root: its serial number (R452). -/
structure RootCand where
  serial : W48
  deriving DecidableEq, Repr

/-- A device found by the root's enumeration walk, in the order it is reached (R453). -/
structure FoundDevice where
  serial : W48
  paired : Bool
  sideA : Bool
  deriving DecidableEq, Repr

/-- A request through the cascade window (R454). -/
structure Bar2Req where
  slot : BitVec 6
  off : BitVec 25
  write : Bool
  len : Nat
  data : List Byte
  deriving DecidableEq, Repr

/-- The completion of a DMA element's host request (R544): data, an unsuccessful status, or poisoned data. -/
inductive HostCpl where
  | data (d : List Byte)
  | failed (status : BitVec 3)
  | poisoned
  deriving DecidableEq, Repr

/-- What a non-posted host request was made for (R544). -/
inductive HostReqOwner where
  | dma (c : Fin 16)
  | engine (e : Fin 32)
  deriving DecidableEq, Repr

/-- A line error of a Luavan port: a CRC error, or a retransmission (Table 13.9, R457). -/
inductive LinkErr where
  | crc
  | retry
  deriving DecidableEq, Repr

/-- What the partner reports over PX (R419), and whether it is in LOCKSTEP. -/
structure PartnerInfo where
  sideA : Bool
  revB0 : Bool
  serial : W48
  lockstep : Bool := true
  deriving DecidableEq, Repr

/-- The partner's SIN demands and the state of its Sinter (R491, R493). -/
structure PartnerSafety where
  dem0 : Bool
  dem1 : Bool
  state : BitVec 3
  at0 : Time := 0
  at1 : Time := 0
  deriving DecidableEq, Repr

/-- The nine selectable targets of a counter wrap: programmable counters 0 to 7, and ECYC (R594, R585). -/
abbrev CounterIdx := Fin 9

/-- The supplies of the I/O banks at a release of POR, in mV: VDDIO1 to VDDIO4 and VDDIO_S (R621). -/
structure BankLevels where
  io1 : Nat := 3300
  io2 : Nat := 3300
  io3 : Nat := 3300
  io4 : Nat := 3300
  s : Nat := 3300
  deriving DecidableEq, Repr

end Sys2Proof
end

