-- ==== Sys2Proof/Machine/Parts.lean ====
section
/-! DEFINITION. The parts of the state, block by block, as plain data, and the copy of them that a resynchronisation carries. -/

namespace Sys2Proof.Machine

/-- A commit check in progress (R636): whether of an ARM, WHEN, and when the request was written. -/
structure Check where
  arm : Bool
  imm : Bool
  since : Time
  deriving DecidableEq, Repr

/-- A commit PENDING (R50, R52): WHEN, when its GO reached the page or its group check passed, and whether it is part of a group. -/
structure Pend where
  imm : Bool
  since : Time
  group : Bool
  deriving DecidableEq, Repr

/-- The commit and lock state of a register page. latch is the commit latch of a pending commit: the captured stage, by register offset (R50);
checkLatch and armLatch are the stages captured for a check in progress and for a page that is armed. -/
structure PageSt where
  check : Option Check := none
  pend : Option Pend := none
  armed : Bool := false
  checkLatch : Tab W32 := []
  armLatch : Tab W32 := []
  latch : Tab W32 := []
  unlocked : Bool := false
  key1 : Option Time := none
  deriving DecidableEq, Repr

/-- A fault disposition channel (R466). last and before hold the engine cycle of the latest event and the level and count before it, for two
events in one engine cycle. -/
structure FdCh where
  level : Nat := 0
  good : Nat := 0
  events : Nat := 0
  perm : Bool := false
  last : Nat := 0
  lastGood : Bool := false
  before : Nat := 0
  deriving DecidableEq, Repr

/-- What the check bits of a 64-bit memory location say: a double-bit error, or poisoned (R17, R171). An unlisted location is good. -/
inductive Ecc where
  | good
  | double
  | poison
  deriving DecidableEq, Repr

/-- The class of an I/O bank at a release of POR (R621). -/
inductive BankClass where
  | v18
  | v33
  | unused
  | outside
  deriving DecidableEq, Repr

/-- The reset controller (chapter 15): the sources asserted (bit i of Table 15.2), the pulse requested by RST_REQ, the exit sequence, the fuse load,
boot and the watchdog. -/
structure RstSt where
  asserted : BitVec 9 := 0
  /-- The reach at which each asserted source but HOST acts, fixed when it is asserted (notes/assumptions/77.md). -/
  acts : Tab Nat := []
  hostReach : Nat := 0
  targets : List (Nat × Nat) := []
  exitStep : Nat := 1
  exitReach : Nat := 5
  loading : Bool := true
  fuseOk : Bool := false
  safeBoot : Bool := false
  pllLock : Bool := false
  noBoot : Bool := false
  image : List Byte := []
  bootOff : Nat := 0
  bootWait : Option Time := none
  wdogSince : Option Time := none
  wdogWarned : Bool := false
  pins : BitVec 9 := 0
  causes : BitVec 9 := 0
  loadStopped : Bool := false
  countBase : Time := 0
  /-- The reach and the step of an exit sequence that waits for another to run again (R515); step 0: none. -/
  heldReach : Nat := 0
  heldStep : Nat := 0
  /-- The sequence follows a RESYNC reset (R448). -/
  resync : Bool := false
  /-- SerDes groups that failed their calibration at step 5, in the order TL, LV and PX, PE, ETH (R607). -/
  noCal : BitVec 4 := 0
  /-- The classes of the I/O banks, bank S as 4 (R621). -/
  banks : Tab BankClass := []
  deriving DecidableEq, Repr

/-- The PCI Express function (R530 to R537): link, enables, power state and the MSI-X function mask. -/
structure PcieSt where
  up : Bool := false
  speed : BitVec 3 := 0
  width : BitVec 3 := 0
  memEn : Bool := false
  busMaster : Bool := false
  d3hot : Bool := false
  fmask : Bool := false
  pba : BitVec 64 := 0
  deriving DecidableEq, Repr
/-- The pair and its interlock (chapter 13). releaseDue: an orderly release asked for at an instant; claimBlock: no claim before it (R427). The pins
after reset read as R423's pull-down and pull-up make them. -/
structure PairSt where
  sync : Nat := 0
  claim : Bool := false
  claimReq : Bool := false
  claimBlock : Time := 0
  releaseDue : Option Time := none
  peerClaim : Bool := false
  peerLowSince : Option Time := some 0
  intlkHigh : Bool := true
  intlkFault : Bool := false
  pxUp : Bool := false
  partner : Option PartnerInfo := none
  round : Nat := 0
  /-- The final round of a resynchronisation is running (R449). -/
  final : Bool := false
  /-- The latest cycle whose agreement record has arrived (R431). -/
  agreed : Option Nat := none
  /-- TCYC of that record (R430), and frames forwarded before the record of their cycle (R431). -/
  tcyc : Option W48 := none
  early : List (Nat × Nat × List W48) := []
  /-- Delay-list ticks the active keeps for the next boundary (Table 13.4). -/
  owedTicks : List Nat := []
  /-- STALE masks of the frame, own and partner's, and divergent runs by field. -/
  ownMask : List (BitVec 24) := []
  peerMask : List (BitVec 24) := []
  divRun : Tab Nat := []
  /-- The partner is in LOCKSTEP as far as this device knows (R172, R440), and the branches the active runs by its latest record (R434, R442). -/
  partnerSync : Bool := false
  ran : BitVec 8 := 0xFF
  /-- A PX exchange of this cycle was late or retransmitted (R421). -/
  cycleFault : Bool := false
  /-- The masks and the digest of the latest frame have come by their deadlines (R438). -/
  maskIn : Bool := true
  digestIn : Bool := true
  /-- The fresh fields of the ended frame with their records, by branch and slot, until they are compared (R438). -/
  frame : List (Nat × Nat × List W48) := []
  /-- The CRC over the downlink sub-frames of the ended frame (R493). -/
  safetyCrc : W32 := 0
  /-- Consecutive cycles in which a branch's receiver missed, and in which it saw, the active's sync (R445, R447). -/
  missedSync : Tab Nat := []
  seenSync : Tab Nat := []
  deriving DecidableEq, Repr

/-- The safety function of an axis (section 14.5): STO and when it was set, the cycles SS1-t and SS1-r began in (the latter with v0), the stop
request, a latched event demand, and the latest safe speed and reported torque-off. -/
structure SinAxis where
  sto : Bool := false
  stoCycle : Nat := 0
  ss1t : Option Nat := none
  ss1r : Option (Nat × Nat) := none
  stopReq : Bool := false
  event : Bool := false
  speed : Bool := false
  spd : BitVec 12 := 0
  torqueOff : Bool := false
  /-- The cycle of the latest demand (R479). -/
  demandCycle : Option Nat := none
  deriving DecidableEq, Repr

/-- A safety connection (section 14.3): Sinter's SEQ, the node's latest accepted SEQ, whether the first sub-frame is still to be sent, the latest downlink
sub-frame, a CMD_MISS already reported, and whether an uplink sub-frame was accepted in the present cycle. -/
structure SinConn where
  seq : BitVec 16 := 0
  acc : BitVec 16 := 0
  first : Bool := true
  down : BitVec 128 := 0
  missReported : Bool := false
  seen : Bool := false
  /-- Whether the response to the CMD_MISS and to the timeout acted as DEVICE_STO (R481, R487). -/
  missDev : Bool := false
  tmoDev : Bool := false
  deriving DecidableEq, Repr

/-- A safety input: the latest sample, how many equal samples ran, and the accepted level (R485). -/
structure SinInput where
  last : Bool := false
  run : Nat := 0
  level : Bool := false
  deriving DecidableEq, Repr

/-- A SIN pair: whether an input is off its released level, its demand, the partner's, the OR agreed at the latest cycle start, since when the inputs
disagree, a recorded discrepancy, and whether both inputs have shown the safe level since. -/
structure SinPair where
  active : Bool := false
  demand : Bool := false
  partner : Bool := false
  agreed : Bool := false
  /-- When the demand arose here, and at the partner (R488). -/
  at' : Time := 0
  partnerAt : Time := 0
  since : Option Time := none
  disc : Bool := false
  shown : Bool := false
  deriving DecidableEq, Repr

/-- Sinter (chapter 14). State codes are Table 14.7's. -/
structure SinSt where
  state : Nat := 0
  cause : Nat := 0
  paramPend : Bool := false
  chA : Bool := true
  chB : Bool := true
  axes : Tab SinAxis := []
  conns : Tab SinConn := []
  hs : Bool := false
  ls : Bool := false
  hsAt : Time := 0
  lsAt : Time := 0
  hsFb : Bool := false
  lsFb : Bool := false
  /-- The off-pulse test running: 0 STO_HS, 1 STO_LS; when it began, which comes next, and when it last ended. -/
  test : Option Nat := none
  testAt : Time := 0
  testNext : Nat := 0
  testEnd : Time := 0
  /-- The latest dispatch of the engine tests (R465). -/
  engTest : Time := 0
  outFault : Bool := false
  /-- The supply monitor is armed (R620). -/
  armed : Bool := false
  inputs : List SinInput := [{}, {}, {}, {}]
  pairs : List SinPair := [{}, {}]
  partnerState : BitVec 3 := 0
  deriving DecidableEq, Repr

/-- One copy of a command field (R308): by location 2r + loc, the word written and the engine cycle of its write; none where unwritten. -/
abbrev FieldCopy := Tab (Option (W48 × Nat))

/-- What Crater keeps for a slot of a branch: the copies of the frames of even and odd cycles, the late copy, the held command, the latest frame whose
pointer has reached the field, the field formed for release, LISTEN fields still to send, and what the present cycle has seen of the slot. -/
structure SlotSt where
  even : FieldCopy := []
  odd : FieldCopy := []
  late : FieldCopy := []
  held : FieldCopy := []
  reached : Option Nat := none
  formed : List Byte := []
  released : Bool := false
  fresh : Bool := false
  recs : List W48 := []
  listen : Nat := 0
  sfdSeen : Bool := false
  closed : Bool := false
  accepted : Bool := false
  violation : Bool := false
  relieved : Bool := false
  req : Option (Nat × Nat) := none
  /-- The uplink message in reassembly: its SEQ and index, the fragments accepted, its last fragment, the next new fragment to grant, fragments to grant again
  with their payload, and the failed grants of each fragment (R324 to R326, R358). -/
  reSeq : Option Nat := none
  reMs : Nat := 0
  reGot : Tab (List Byte) := []
  reLast : Option Nat := none
  reNext : Nat := 0
  retry : List (Nat × Nat) := []
  tries : Tab Nat := []
  deriving DecidableEq, Repr

/-- A grant of the present cycle (Table 9.16): integ for a nameplate or MREPLY fragment. -/
structure Grant where
  slot : Nat
  frag : Nat
  start : Nat
  run : Nat
  len : Nat
  integ : Bool
  done : Bool
  /-- The SEQ of the MREPLY that the grant is for; 0 for any other fragment. -/
  seq : Nat := 0
  deriving DecidableEq, Repr

/-- A message in the receive queue (R326). -/
structure RxMsg where
  buf : Nat
  len : Nat
  slot : Nat
  ms : Nat
  deriving DecidableEq, Repr

/-- A queued downlink message (R328, R329): its next fragment to send, how often that has been sent, and the SEQ it goes out under. -/
structure TxMsg where
  buf : Nat
  node : Nat
  ms : Nat
  len : Nat
  since : Time
  order : Nat
  seq : Nat
  frag : Nat
  /-- How often each fragment has been sent. -/
  sends : Tab Nat
  started : Bool
  deriving DecidableEq, Repr

/-- An integration message waiting for the next downlink dynamic segment (Table 10.4). -/
inductive IntMsg where
  | assign (h : Nat)
  | hold (h : Nat)
  | slot (h : Nat)
  | release (serial : W48)
  | dfar (h : Nat)
  deriving DecidableEq, Repr

/-- An admission run (R341 to R343): the hop being called, calls without response, and the outstanding call's response cycle and A in ns. -/
structure AdmRun where
  hop : Nat
  calls : Nat
  resp : Option (Nat × Int)
  /-- The next CALL goes out in no earlier cycle (R344). -/
  next : Nat := 0
  deriving DecidableEq, Repr

/-- What Crater keeps for a hop: its serial and nameplate CRC from the REQUEST, the cycle from which it acts on the node, the nameplate fragments and their
failed grants, the measurement run (the next MEASURE, when each left, the values so far by SEQ as 2 D_k in time units, failed grants, runs failed), the
cycle of the SLOT message, the violation history (bit 0 the latest cycle) and the far delay last sent. -/
structure HopSt where
  serial : W48 := 0
  npCrc : W32 := 0
  acts : Nat := 0
  assigned : Bool := false
  np0 : Option (List Byte) := none
  np1 : Option (List Byte) := none
  try0 : Nat := 0
  try1 : Nat := 0
  meas : Nat := 1
  t1s : Tab Time := []
  values : List (Nat × Int) := []
  mTry : Tab Nat := []
  runs : Nat := 0
  joinFrom : Nat := 0
  hist : BitVec 256 := 0
  consec : Nat := 0
  clean : Nat := 0
  lastFar : Nat := 0
  deriving DecidableEq, Repr

/-- A branch (chapters 9 and 10). -/
structure BranchSt where
  slots : Tab SlotSt := []
  hops : Tab HopSt := []
  lastSync : Time := 0
  efdAt : Option Time := none
  /-- A sync and an EFD are due after the latest sync, and no miss of theirs is counted yet (R474). -/
  syncDue : Bool := false
  efdDue : Bool := false
  /-- The trailer check over the summation frame sent so far (R301). -/
  sum : W32 := 0xFFFFFFFF
  attemptCycle : Nat := 0
  autoOpened : Bool := false
  foreign1 : Bool := false
  foreign2 : Bool := false
  lastForeign : Nat := 0
  backoffUntil : Nat := 0
  idleUntil : Time := 0
  far : Bool := false
  echoEnd : Bool := false
  echoOn : Bool := false
  grants : List Grant := []
  rxq : List RxMsg := []
  txq : List TxMsg := []
  pushes : Nat := 0
  dseq : Nat := 0
  ints : List (Nat × IntMsg) := []
  adm : Option AdmRun := none
  runEnd : Option Nat := none
  dynDone : Bool := false
  portFault : Bool := false
  rxError : Bool := false
  anyAccepted : Bool := false
  sawSync : Bool := false
  echoBytes : Nat := 0
  deriving DecidableEq, Repr

/-! ### Invar (chapter 12) -/

/-- A PTP Sync whose measurement is being formed: its ingress, its origin and the correction so far (R411). -/
structure PtpSyncSt where
  seq : BitVec 16
  t2 : Int
  t1 : Int
  cs : Int
  deriving DecidableEq, Repr

/-- Invar: the parts of device time (R391), seconds (R395), the servo and the PTP exchange. -/
structure InvSt where
  offset : W64 := 0
  anchor : Nat := 0
  sec : W48 := 0
  secMark : W48 := 0
  secSet : Bool := false
  good : Nat := 0
  /-- A step that waits for the next cycle start, and the cycle count when it was asked for (R405). -/
  step : Option (Int × Nat) := none
  lastMeas : Time := 0
  /-- When a time message last came on LV0, and whether LV1 is the source in use (R455). -/
  lv0At : Time := 0
  onLv1 : Bool := false
  sync : Option PtpSyncSt := none
  whole : Option PtpSyncSt := none
  reqSeq : BitVec 16 := 0
  reqAt : Option Time := none
  req : Option Int := none
  mpd : Option Int := none
  syncTs : Nat := 0
  ppsOut : Bool := false
  deriving DecidableEq, Repr

/-! ### Lahar (chapter 5) -/

/-- An operation record (Table 5.7). -/
structure OpRec where
  program : Bool
  prio : Nat
  cell : Nat
  ctx : Nat
  flow : Option Nat
  nIn : Nat
  nOut : Nat
  code : Nat
  param : W48
  deriving DecidableEq, Repr

/-- An arc record (Table 5.8). -/
structure ArcRec where
  dstOp : Nat
  dstPort : Nat
  src : Nat
  srcPort : Nat
  kind : Nat
  keep : Bool
  init : Bool
  viaDl : Bool
  dl : Nat
  delay : Nat
  deriving DecidableEq, Repr

/-- The tick source of a delay list (Table 5.6). -/
structure DlRec where
  mode : Nat
  lp : Nat
  period : Nat
  lpInc : Nat
  deriving DecidableEq, Repr

/-- A context record (Table 5.9). -/
structure CtxRec where
  id : Nat
  priv : Nat
  root : W48
  deriving DecidableEq, Repr

/-- A cell record (Table 5.9). -/
structure CellRec where
  lmap : W32
  ctlInit : W32
  spill : W32
  cfg : W32
  deriving DecidableEq, Repr

/-- A loaded graph. A flow is its ATOMIC and ENABLED bits. -/
structure Graph where
  imageId : Nat
  ops : List OpRec
  arcs : List ArcRec
  flows : List (Bool × Bool)
  ctxs : List CtxRec
  cells : List CellRec
  dls : List DlRec
  deriving DecidableEq, Repr

/-- A cycle as an operation sees it: its number, its device time and the line positions estimated at its start (R138). -/
structure Stamp where
  cyc : Nat
  tcyc : W48
  lpp : List W48
  deriving DecidableEq, Repr

/-- A token: its word, its token cycle, and the engine cycle of its arrival (R145, R155, R435). -/
structure Token where
  word : W48
  at' : Stamp
  cyc : Nat := 0
  deriving DecidableEq, Repr

/-- An operation's run state: OP_STATE.STATE (Table 5.11), where it runs, its firing record, its firing cycle and pair firing cycle. -/
structure OpSt where
  phase : Nat := 0
  eng : Nat := 0
  depth : Nat := 0
  toks : List Token := []
  fire : Stamp := { cyc := 0, tcyc := 0, lpp := [] }
  pair : Stamp := { cyc := 0, tcyc := 0, lpp := [] }
  aborts : Nat := 0
  code : Nat := 0
  deriving DecidableEq, Repr

/-- An entry of a ready list: operation key (bank × 4096 + index), its priority, the engine cycle it entered, and whether it is a re-firing. -/
structure Ready where
  key : Nat
  prio : Nat
  cyc : Nat
  again : Bool
  deriving DecidableEq, Repr

/-- A delay-list entry (Table 5.3), with its token cycle for pair mode. -/
structure DlEnt where
  due : W48
  op : Nat
  port : Nat
  word : W48
  arc : Nat
  deriving DecidableEq, Repr

/-- The home region of a retired cell in its target's memory (R171): where it lies, its size, when the copy began, and the offsets of words with a double-bit
error that the copy has not met yet. -/
structure CopySt where
  target : Nat
  since : Time
  base : Nat
  size : Nat
  bad : List Nat := []
  deriving DecidableEq, Repr

/-- Lahar. Graphs are kept by bank; tokens by arc of the active bank; operations by bank × 4096 + index. -/
structure LaharSt where
  graphs : Tab (Option Graph) := []
  toks : Tab (Option Token) := []
  ops : Tab OpSt := []
  ready : Tab (List Ready) := []
  dls : Tab (List DlEnt) := []
  /-- By delay list, what its ticks are counted from (R157): the line position of its latest tick; the cycle of activation, or the device time in ns up to
  which the multiples of PERIOD_US have been counted. -/
  dlP0 : Tab W48 := []
  dlFrom : Tab Time := []
  /-- The image's offset, and the device memory as Lahar began to read it (R175). -/
  snap : Option (Nat × List Host.Cell) := none
  /-- When ACTIVATE was written. -/
  act : Option Time := none
  /-- Cells whose pages wait for the values of the new image (R178). -/
  cellWait : List Nat := []
  flowPend : Tab (Option W32) := []
  copies : Tab (Option CopySt) := []
  /-- Retired cells whose branches the routing table still names, with the cycle they retired in (R170). -/
  reroute : List (Nat × Nat) := []
  /-- Doorbells, time and angle tokens waiting for the next boundary in pair mode (R430). -/
  bells : List AgreedToken := []
  deriving DecidableEq, Repr

/-! ### Brass engines (chapter 3) -/

/-- A write not yet seen at every distance (Table 3.9): register code, value, the issue number of its producer, what kind of write it is,
whether a stall, pre-emption or trap of another operation has fallen since (R93), and when it lands by the stages of Table 3.8: a later place stands (R91). -/
structure WriteH where
  reg : Nat
  val : BitVec 112
  idx : Nat
  kind : Nat
  broken : Bool
  lands : Nat := 0
  deriving DecidableEq, Repr

/-- A register bank (Table 3.1). Registers by code: D0 to D31 from 0, A0 to A3 from 32, P, B, L and M from 40, 48, 56 and 64, FLG 72, CTL 73, LC0 74,
LC1 75; hist holds the latest writes, newest first. Start and end addresses of the loops; a branch taken with its delay slots still to issue. -/
structure Bank where
  regs : Tab (BitVec 112) := []
  hist : List WriteH := []
  idx : Nat := 0
  pc : Nat := 0
  ls0 : Nat := 0
  le0 : Nat := 0
  ls1 : Nat := 0
  le1 : Nat := 0
  br : Option (Nat × Nat) := none
  /-- Delay slots still to issue of a branch not taken. -/
  slots : Nat := 0
  fin : Option Nat := none
  deriving DecidableEq, Repr

/-- Where an access goes after translation: device space, or host memory. -/
structure Phys where
  host : Bool
  addr : Nat
  deriving DecidableEq, Repr

/-- A commit-buffer entry; seq is its store's place among the operation's far accesses, and seen whether an operation that is not connected has
read it during the drain (R164). -/
structure CEnt where
  at' : Phys
  va : W48
  val : W48
  seq : Nat := 0
  seen : Bool := false
  deriving DecidableEq, Repr

/-- A far load pending (R89): destination, where, its order among the operation's far accesses, the PC of its instruction, and the latest of the
operation's own stores before it to the location, by order and value (R88). -/
structure FLoad where
  d : Nat
  at' : Phys
  va : W48
  seq : Nat
  pc : Nat
  own : Option (Nat × W48) := none
  deriving DecidableEq, Repr

/-- A far access whose table walk is running (R552): a load's destination or a store's word; stale when an invalidation was asked for since it began (R553). -/
structure FWalk where
  store : Bool
  d : Nat
  val : W48
  va : W48
  seq : Nat
  pc : Nat
  stale : Bool
  deriving DecidableEq, Repr

/-- An operation in service. key 0x2000 is Sinter's runtime operation (R465). A ghost is a depth whose operation was aborted while a higher one runs (R102). -/
structure Serv where
  key : Nat
  prio : Nat
  bank : Bank := {}
  posted : Tab W48 := []
  cbuf : List CEnt := []
  loads : List FLoad := []
  walks : List FWalk := []
  seq : Nat := 0
  ended : Bool := false
  draining : Bool := false
  seed : Nat := 0
  ghost : Bool := false
  deriving DecidableEq, Repr

/-- An engine: the operations in service, top depth first; a pre-emption asked for; 0 running, 1 before or in a spill, 2 reading back; frame words written
since their operation entered (R84); the engine cycle up to which issue slots are classed (R589) with the class of the open ones; and the address of
the instruction that issued last (PC_CUR, R106). -/
structure Eng where
  servs : List Serv := []
  preq : Option Ready := none
  mode : Nat := 0
  written : List Nat := []
  slotAt : Nat := 0
  slotClass : Nat := 0
  ad : Nat := 0
  testSince : Option Time := none
  deriving DecidableEq, Repr

/-! ### Translation (section 16.4) -/

/-- A TLB entry: Lahar table bank, context, whether a 2 MiB page, virtual page, and the leaf. -/
structure TlbEnt where
  bank : Nat
  ctx : Nat
  big : Bool
  vpn : Nat
  pte : W64
  deriving DecidableEq, Repr

/-- The TLBs: cells 0 to 7, and 8 the device TLB; and an invalidation in progress, as its TLB_INV word and INV_VPN. -/
structure XlSt where
  tlb : Tab (List TlbEnt) := []
  inv : Option (W32 × W32) := none
  deriving DecidableEq, Repr

/-- Bandwidth windows (R593, R596): by cell when the window in progress began less the time it stood frozen, and the cells whose windows have stopped; and
when FREEZE was set. -/
structure PerfSt where
  since : Tab Time := []
  stopped : List Nat := []
  frozenAt : Time := 0
  /-- By cell, the engine cycle from which ECYC counts, and the values retired engines kept (R584, R585). -/
  ecycFrom : Tab (Option Nat) := []
  ecycKept : Tab (Option Nat) := []
  /-- Programmable counters that have wrapped and not yet set OVF, as engine × 9 + counter, and how often each ECYC has wrapped (R594). -/
  wraps : List Nat := []
  ecycWraps : Tab Nat := []
  deriving DecidableEq, Repr

/-! ### Line position (chapter 8) -/

/-- A line-position source: the sample with its offset in units of 2^-32 count, its time, the source offset, whether a commit has set a new source for
the next cycle boundary (R260) and the source waits for its first sample, cycles without a new sample, and a broadcast received since the last boundary (R262). -/
structure LpSrcSt where
  lam : W64 := 0
  tl : W48 := 0
  offset : W64 := 0
  take : Bool := false
  miss : Nat := 0
  tag : Option W48 := none
  cast : Option LpState := none
  loose : Bool := false
  deriving DecidableEq, Repr

/-- A pending angle event unit: the instant from which it may fire, whether it was judged at or behind, and its armed time (R270). -/
structure AeSt where
  armAt : Time := 0
  due : Bool := false
  at' : Option W48 := none
  deriving DecidableEq, Repr

/-- A compare output: its list of positions with directions, PUSH_LO, whether the head has been judged (R277), the head's armed time, whether the head has been
reached, and the end of its pulse. -/
structure CmpSt where
  list : List (W48 × Nat) := []
  lo : W32 := 0
  judged : Bool := false
  armAt : Time := 0
  from' : W48 := 0
  at' : Option W48 := none
  reached : Bool := false
  pulse : Option Time := none
  deriving DecidableEq, Repr

/-- The estimate of a source for a cycle (R264): whether it can be extended, LP(k), the sample in 2^-32 count and its time, velocity and acceleration, the
device time of the cycle start and the cycle time in ns. -/
structure LpEst where
  live : Bool
  lpk : W48
  lam : W64
  tl : W48
  v : Int
  a : Int
  tk : W48
  tn : Nat
  deriving DecidableEq, Repr

/-- Line position: sources, angle event units, compare outputs, the latest edge stamp of each QE channel, and device times of the latest cycle starts,
newest first, with the estimates made at them, and the latest broadcast of each source of each device (device × 4 + source). -/
structure LpSt where
  src : Tab LpSrcSt := []
  aes : Tab AeSt := []
  cmps : Tab CmpSt := []
  edge : Tab W48 := []
  starts : List W48 := []
  ests : List (List LpEst) := []
  casts : Tab (Option LpState) := []
  deriving DecidableEq, Repr

/-! ### Axis pages (chapters 6 and 7) -/

/-- An axis page: a command waiting with when it was written, the command the mirror carries, the sequence numbers of Table 7.3, segments reserved, and the
cycle whose mirror copies have been written. -/
structure AxSt where
  cmd : Option (Nat × Time) := none
  cmdNow : Nat := 0
  cmdSeq : Nat := 0
  gearSeq : Nat := 0
  engSeq : Nat := 0
  res : Nat := 0
  mirrored : Option Nat := none
  /-- The count of applied changes at the last latch; none before the first latch of the blocks where they now lie. -/
  applied : Option Nat := none
  /-- RING_STAT.WR at the last boundary (R234), and the changes of RING_LEN (R237). -/
  wr : Nat := 0
  ringSeq : Nat := 0
  /-- Segments that have landed above one that has not, and reservations taken back below one that stands. -/
  landed : List Nat := []
  free : List Nat := []
  deriving DecidableEq, Repr

/-! ### Geyser (chapter 11) -/

/-- The open or closed block of a channel (R372 to R376): its reductions and flags (Table 11.2). -/
structure GeyBlk where
  count : Nat := 0
  sum : Int := 0
  sumsq : Int := 0
  sum4 : Int := 0
  diffsq : Int := 0
  min : Int := 0
  max : Int := 0
  absmax : Nat := 0
  absidx : Nat := 0
  xprev : Int := 0
  gaps : Nat := 0
  flags : Nat := 0
  tStart : W48 := 0
  lpStart : W48 := 0
  deriving DecidableEq, Repr

/-- An interval to resample (R370): the samples at its ends, whether the later one repeats, and the estimate at its start. -/
structure GeyIval where
  x0 : Int
  x1 : Int
  gap : Bool
  est : LpEst
  deriving DecidableEq, Repr

/-- An acquisition channel: the previous sample, the cycle whose sample is expected next, TAG_LAST of an axis source at the latest boundary, whether the channel
is to enter WAIT at this boundary, the DC tracker, the open block and closed blocks, gaps for the next block, the line position counted on from ANCHOR and the
boundary it has reached (R373), the first sample of the next interval with its estimate, intervals to resample, the next point, and the latest emitted value. -/
structure GeyCh where
  prev : Int := 0
  expect : Nat := 0
  tag : Option Nat := none
  fresh : Bool := false
  dc : Option Int := none
  blk : Option GeyBlk := none
  closed : List GeyBlk := []
  gapOwed : Nat := 0
  lastPos : W48 := 0
  dist : Int := 0
  bound : Int := 0
  start : Option (Int × LpEst) := none
  ivals : List GeyIval := []
  j : Int := 0
  yprev : Int := 0
  deriving DecidableEq, Repr

/-- A result ring: records being written, and a drop to report in the next one (R378). -/
structure GeyRing where
  writing : List (List Byte) := []
  dropped : Bool := false
  deriving DecidableEq, Repr

/-- A trigger unit: its primes, the next buffer index, samples filled, samples still to take after the trigger, the cycle it was armed in, the time of its latest
sample, and whether the next sample is the trigger sample. -/
structure GeyTrig where
  primeR : Bool := false
  primeF : Bool := false
  idx : Nat := 0
  fill : Nat := 0
  post : Nat := 0
  armed : Nat := 0
  lastT : W48 := 0
  onNext : Bool := false
  deriving DecidableEq, Repr

structure GeySt where
  chans : Tab GeyCh := []
  rings : Tab GeyRing := []
  trigs : Tab GeyTrig := []
  deriving DecidableEq, Repr

/-- The masters of gearing at a cycle start (R241, R638): line positions, channel counts, and the positions latched from axis pages. -/
structure Masters where
  cyc : Nat
  lps : List W48
  qes : List W32
  refs : Tab W48
  fbs : Tab W48
  deriving DecidableEq, Repr

/-! ### DMA, ports and the cascade (chapters 13, 16, 17 and 19) -/

/-- An element in flight (R541): its length, where it reads and writes, the addresses a failure of either side reports, its data once read, and a failure met at
its start (STATUS, DETAIL, address). axis is the ring of a RING element, idx its segment. -/
structure DmaElem where
  len : Nat
  src : Phys
  dst : Phys
  sa : W64
  da : W64
  axis : Option Nat
  data : Option (List Byte)
  fail : Option (Nat × Nat × W64)
  idx : Nat := 0
  deriving DecidableEq, Repr

/-- A DMA channel: the descriptor in service, the elements it has started and landed, bytes started, elements in flight (oldest first), a STOP or an EN 0 waiting for
the element boundary. -/
structure DmaCh where
  desc : Option (List Byte) := none
  started : Nat := 0
  landed : Nat := 0
  off : Nat := 0
  elems : List DmaElem := []
  stop : Bool := false
  deriving DecidableEq, Repr

/-- A CAN controller: its error counters, failed attempts by buffer, the buffer in transmission, the head after bus-off, and an EN 0 waiting for the end of a frame. -/
structure CanSt where
  txErr : Nat := 0
  rxErr : Nat := 0
  tries : Tab Nat := []
  cur : Option Nat := none
  head : Option Nat := none
  offAfter : Bool := false
  deriving DecidableEq, Repr

/-- A frame on its way out of an Ethernet port: forwarded with its ingress timestamp, slot i of the transmit ring, or mailbox slot i. -/
inductive EthTx where
  | forward (bytes : List Byte) (stamp : W64) (event : Bool)
  | ring (i : Nat)
  | mailbox (i : Nat)
  deriving DecidableEq, Repr

/-- An Ethernet port: forwarded PTP event messages, other forwarded frames and host frames waiting, in order of arrival, and the frame being sent. -/
structure EthSt where
  events : List EthTx := []
  fwd : List EthTx := []
  host : List EthTx := []
  cur : Option EthTx := none
  deriving DecidableEq, Repr

/-- A cascade read outstanding at the root (R454): when it was sent, the device, its address and length, and the parts that have returned. -/
structure CascRead where
  tag : Nat
  since : Time
  slot : Nat
  off : Nat
  len : Nat
  parts : Tab (List Byte)
  deriving DecidableEq, Repr

/-- The cascade: IDs by serial number and those kept for a pair's other device (R453), ports with a fault in the present cycle (R457), reads outstanding and the
number of the next. -/
structure LvSt where
  ids : List (W48 × Nat) := []
  reserved : List Nat := []
  fault : List Nat := []
  reads : List CascRead := []
  nextTag : Nat := 0
  deriving DecidableEq, Repr

/-! ### The copy of a resynchronisation (R448, R449) -/

/-- What the final round carries besides addressed data, as of its boundary: commit state of the pages, Lahar's graphs, tokens, firing records and delay lists,
Crater, the Invar servo, Sinter's state, axis functions and connections, and the state behind the other mirrored pages (R448, R449, R492). Times in it are the receiver's. -/
structure ResyncLast where
  pages : List (BitVec 11 × PageSt) := []
  lahar : LaharSt := {}
  br : Tab BranchSt := []
  inv : InvSt := {}
  sinState : Nat := 3
  axes : Tab SinAxis := []
  conns : Tab SinConn := []
  lp : LpSt := {}
  ax : Tab AxSt := []
  gey : GeySt := {}
  masters : List Masters := []
  deriving DecidableEq, Repr

/-- What a round of a resynchronisation carries: granules of 4 KiB of the memories by number, and the active and the staged values of the registers copied; the final round carries the rest. -/
structure ResyncCopy where
  mem : List (BitVec 13 × List Byte) := []
  regs : List (BitVec 25 × W32) := []
  stage : List (BitVec 25 × W32) := []
  last : Option ResyncLast := none
  deriving DecidableEq, Repr

end Sys2Proof.Machine
end

