-- ==== Sys2Proof/Syntax.lean ====
section
/-! DEFINITION. The commands of the block: one constructor of Instr per row of spec/opcode_table.json, with the operand types of
Payload.lean. Every command's first operand t is the instant at which it reaches the block. -/

namespace Sys2Proof

/-- The commands, one per row of spec/opcode_table.json, in its order. ok says of an instruction or a kernel's run whether the engine's self-check of
its datapath passes (Table 3.11, R642). -/
inductive Instr where
  | registerWrite (t : Time) (m : Master) (addr : BitVec 25) (size : AccSize) (val : W64)
  | loReadShadow (t : Time) (m : Master) (addr : BitVec 25)
  | ecycW0Read (t : Time) (m : Master) (e : Fin 32)
  | irqSet (t : Time) (m : Master) (p : Fin 2048) (bits : W32)
  | commitGo (t : Time) (m : Master) (p : Fin 2048) (imm : Bool)
  | commitArm (t : Time) (m : Master) (p : Fin 2048)
  | commitDiscard (t : Time) (m : Master) (p : Fin 2048)
  | commitConflict (t : Time) (m : Master) (p : Fin 2048) (val : W32)
  | commitCheckEnd (t : Time) (p : Fin 2048)
  | commitTakeEffect (t : Time) (p : Fin 2048)
  | commitImmediate (t : Time) (p : Fin 2048)
  | gcommitGo (t : Time) (m : Master) (imm : Bool)
  | lockKey1 (t : Time) (m : Master) (p : Fin 2048)
  | lockKey2 (t : Time) (m : Master) (p : Fin 2048)
  | lockOtherValue (t : Time) (m : Master) (p : Fin 2048) (val : W32)
  | unlockTimeout (t : Time) (p : Fin 2048)
  | errInfoClear (t : Time) (m : Master)
  | trapStatClear (t : Time) (m : Master) (e : Fin 32)
  | eccStatClear (t : Time) (m : Master) (e : Fin 32) (bits : W32)
  | fltInfoClear (t : Time) (m : Master) (c : Fin 8)
  | scrubPass (t : Time) (hits : List EccHit)
  | cycleStart (t : Time)
  | axisMirrorWrite (t : Time) (a : Fin 128)
  | commandWindowWrite (t : Time) (w : WindowWriter) (b : Fin 8) (s : Fin 24) (r : Fin 4) (loc1 : Bool) (v : W48)
  | transmitPointerReach (t : Time) (b : Fin 8) (s : Fin 24)
  | fieldRelease (t : Time) (b : Fin 8) (s : Fin 24)
  | slotFrameReceive (t : Time) (b : Fin 8) (f : SlotFrame)
  | slotEndTruncate (t : Time) (b : Fin 8) (s : Fin 24)
  | windowCloseMissing (t : Time) (b : Fin 8) (s : Fin 24)
  | uplinkFragmentReceive (t : Time) (b : Fin 8) (f : Fragment)
  | dqPush (t : Time) (m : Master) (b : Fin 8) (val : W32)
  | uqPop (t : Time) (m : Master) (b : Fin 8)
  | downlinkDynamicSegment (t : Time) (b : Fin 8)
  | timeEventFire (t : Time) (u : Fin 64)
  | angleEventFire (t : Time) (u : Fin 256)
  | operationDispatch (t : Time) (c : Fin 8)
  | preemptAccept (t : Time) (e : Fin 32)
  | spillDone (t : Time) (e : Fin 32)
  | spillReadbackDone (t : Time) (e : Fin 32)
  | farLoadReturn (t : Time) (e : Fin 32) (d : Fin 32) (hostData : W64)
  | operationEnd (t : Time) (e : Fin 32)
  | operationComplete (t : Time) (e : Fin 32)
  | delayListTick (t : Time) (l : Fin 4)
  | refire (t : Time) (m : Master) (op : BitVec 12)
  | doorbell (t : Time) (m : Master) (n : Byte)
  | flowEnWrite (t : Time) (m : Master) (i : Fin 16) (val : W32)
  | load (t : Time) (m : Master)
  | loadEnd (t : Time)
  | activate (t : Time) (m : Master)
  | loadCtlClear (t : Time) (m : Master)
  | graphSwitch (t : Time)
  | laharClrCnt (t : Time) (m : Master)
  | cellClrCnt (t : Time) (m : Master) (c : Fin 8)
  | routeRewrite (t : Time)
  | copyDone (t : Time) (c : Fin 8)
  | mpy (t : Time) (e : Fin 32) (ok : Bool := true)
  | mac (t : Time) (e : Fin 32) (ok : Bool := true)
  | msu (t : Time) (e : Fin 32) (ok : Bool := true)
  | macx (t : Time) (e : Fin 32) (ok : Bool := true)
  | msux (t : Time) (e : Fin 32) (ok : Bool := true)
  | adda (t : Time) (e : Fin 32) (ok : Bool := true)
  | parallelMove (t : Time) (e : Fin 32) (ok : Bool := true)
  | add (t : Time) (e : Fin 32) (ok : Bool := true)
  | sub (t : Time) (e : Fin 32) (ok : Bool := true)
  | adds (t : Time) (e : Fin 32) (ok : Bool := true)
  | subs (t : Time) (e : Fin 32) (ok : Bool := true)
  | neg (t : Time) (e : Fin 32) (ok : Bool := true)
  | abs (t : Time) (e : Fin 32) (ok : Bool := true)
  | min (t : Time) (e : Fin 32) (ok : Bool := true)
  | max (t : Time) (e : Fin 32) (ok : Bool := true)
  | and (t : Time) (e : Fin 32) (ok : Bool := true)
  | or (t : Time) (e : Fin 32) (ok : Bool := true)
  | xor (t : Time) (e : Fin 32) (ok : Bool := true)
  | not (t : Time) (e : Fin 32) (ok : Bool := true)
  | asl (t : Time) (e : Fin 32) (ok : Bool := true)
  | asr (t : Time) (e : Fin 32) (ok : Bool := true)
  | lsl (t : Time) (e : Fin 32) (ok : Bool := true)
  | lsr (t : Time) (e : Fin 32) (ok : Bool := true)
  | cmp (t : Time) (e : Fin 32) (ok : Bool := true)
  | tst (t : Time) (e : Fin 32) (ok : Bool := true)
  | mov (t : Time) (e : Fin 32) (ok : Bool := true)
  | movh (t : Time) (e : Fin 32) (ok : Bool := true)
  | cmov (t : Time) (e : Fin 32) (ok : Bool := true)
  | ld (t : Time) (e : Fin 32) (ok : Bool := true)
  | st (t : Time) (e : Fin 32) (ok : Bool := true)
  | ldp (t : Time) (e : Fin 32) (ok : Bool := true)
  | stp (t : Time) (e : Fin 32) (ok : Bool := true)
  | fld (t : Time) (e : Fin 32) (ok : Bool := true)
  | fst (t : Time) (e : Fin 32) (ok : Bool := true)
  | nop (t : Time) (e : Fin 32) (ok : Bool := true)
  | br (t : Time) (e : Fin 32) (ok : Bool := true)
  | brr (t : Time) (e : Fin 32) (ok : Bool := true)
  | jl (t : Time) (e : Fin 32) (ok : Bool := true)
  | loop (t : Time) (e : Fin 32) (ok : Bool := true)
  | done (t : Time) (e : Fin 32) (ok : Bool := true)
  | movs (t : Time) (e : Fin 32) (ok : Bool := true)
  | movr (t : Time) (e : Fin 32) (ok : Bool := true)
  | movi (t : Time) (e : Fin 32) (ok : Bool := true)
  | rnd (t : Time) (e : Fin 32) (ok : Bool := true)
  | mova (t : Time) (e : Fin 32) (ok : Bool := true)
  | clr (t : Time) (e : Fin 32) (ok : Bool := true)
  | exp (t : Time) (e : Fin 32) (ok : Bool := true)
  | norm (t : Time) (e : Fin 32) (ok : Bool := true)
  | bfsc (t : Time) (e : Fin 32) (ok : Bool := true)
  | rds (t : Time) (e : Fin 32) (ok : Bool := true)
  | post (t : Time) (e : Fin 32) (ok : Bool := true)
  | sos (t : Time) (e : Fin 32) (ok : Bool := true)
  | sosCascade (t : Time) (e : Fin 32) (ok : Bool := true)
  | pi (t : Time) (e : Fin 32) (ok : Bool := true)
  | rampTimeout (t : Time) (e : Fin 32)
  | piDq (t : Time) (e : Fin 32) (ok : Bool := true)
  | clarke (t : Time) (e : Fin 32) (ok : Bool := true)
  | park (t : Time) (e : Fin 32) (ok : Bool := true)
  | ipark (t : Time) (e : Fin 32) (ok : Bool := true)
  | svm (t : Time) (e : Fin 32) (ok : Bool := true)
  | pvt (t : Time) (e : Fin 32) (ok : Bool := true)
  | gear (t : Time) (e : Fin 32) (ok : Bool := true)
  | standstillRequest (t : Time) (e : Fin 32)
  | homeTimeout (t : Time) (e : Fin 32)
  | axisIn (t : Time) (e : Fin 32) (ok : Bool := true)
  | axisOut (t : Time) (e : Fin 32) (ok : Bool := true)
  | pcmdStart (t : Time) (m : Master) (a : Fin 128)
  | pcmdStop (t : Time) (m : Master) (a : Fin 128)
  | pcmdFlush (t : Time) (m : Master) (a : Fin 128)
  | homeGo (t : Time) (m : Master) (a : Fin 128)
  | wake (t : Time) (m : Master) (a : Fin 128)
  | pcmdClear (t : Time) (m : Master) (a : Fin 128)
  | ringPut (t : Time) (m : Master) (a : Fin 128) (n : BitVec 9)
  | qeTransition (t : Time) (q : Fin 8) (onB : Bool) (level : Bool) (stamp : W48)
  | illegalTransition (t : Time) (q : Fin 8)
  | index (t : Time) (q : Fin 8) (active : Bool := true)
  | armIdx (t : Time) (m : Master) (q : Fin 8)
  | lpSourceLost (t : Time) (l : Fin 4)
  | lpBroadcastReceive (t : Time) (dev : BitVec 6) (l : Fin 4) (st : LpState)
  | comparePush (t : Time) (m : Master) (c : Fin 8) (lo : Option W32) (hi : W32)
  | compareFlush (t : Time) (m : Master) (c : Fin 8)
  | compareForce (t : Time) (m : Master) (c : Fin 8)
  | compareReach (t : Time) (c : Fin 8)
  | pulseEnd (t : Time) (c : Fin 8)
  | foreignSync (t : Time) (b : Fin 8)
  | startAttemptEnd (t : Time) (b : Fin 8)
  | withdrawnSilence (t : Time) (b : Fin 8)
  | backoffEnd (t : Time) (b : Fin 8)
  | admissionRunOpen (t : Time) (b : Fin 8)
  | admitGo (t : Time) (m : Master) (b : Fin 8)
  | request (t : Time) (b : Fin 8) (r : RequestMsg)
  | admissionNoResponse (t : Time) (b : Fin 8)
  | mreply (t : Time) (b : Fin 8) (s : Fin 24) (seq : Byte) (t2 t3 : W32) (t4 : Time)
  | joinTimeout (t : Time) (b : Fin 8) (h : Fin 24)
  | nodeSuspect (t : Time) (b : Fin 8) (h : Fin 24)
  | nodeSuspectClear (t : Time) (b : Fin 8) (h : Fin 24)
  | nodeExclude (t : Time) (b : Fin 8) (h : Fin 24)
  | ntcmdRelease (t : Time) (m : Master) (b : Fin 8) (h : Fin 24)
  | reintegrate (t : Time) (m : Master) (b : Fin 8) (h : Fin 24)
  | craterClrCnt (t : Time) (m : Master)
  | branchClrCnt (t : Time) (m : Master) (b : Fin 8)
  | nodeTableClrCnt (t : Time) (m : Master) (b : Fin 8)
  | resampleInterval (t : Time) (ch : Fin 256)
  | blockClose (t : Time) (ch : Fin 256)
  | recordWriteDone (t : Time) (r : Fin 8)
  | ringRdWrite (t : Time) (m : Master) (r : Fin 8) (val : W32)
  | fillComplete (t : Time) (u : Fin 16)
  | captureDone (t : Time) (u : Fin 16)
  | autoTimeout (t : Time) (u : Fin 16)
  | tcmdArm (t : Time) (m : Master) (u : Fin 16)
  | tcmdAck (t : Time) (m : Master) (u : Fin 16)
  | tcmdStop (t : Time) (m : Master) (u : Fin 16)
  | tcmdForce (t : Time) (m : Master) (u : Fin 16)
  | geyserClrCnt (t : Time) (m : Master)
  | ptpSync (t : Time) (f : PtpMsg)
  | ptpFollowUp (t : Time) (f : PtpMsg)
  | ptpDelayResp (t : Time) (f : PtpDelayResp)
  | delayReqSend (t : Time)
  | cascadeTimeMessage (t : Time) (sec : W48) (ns : W32) (frac : BitVec 16) (lv1 : Bool := false)
  | ppsInEdge (t : Time) (rising : Bool := true)
  | timeStep (t : Time)
  | masterLost (t : Time)
  | secondBoundary (t : Time)
  | ppsOutFall (t : Time)
  | stepAccept (t : Time) (m : Master)
  | latch (t : Time) (m : Master)
  | secSet (t : Time) (m : Master)
  | nowNsLoRead (t : Time) (m : Master)
  | pcmdClaim (t : Time) (m : Master)
  | pcmdRelease (t : Time) (m : Master)
  | pcmdResync (t : Time) (m : Master)
  | echoOn (t : Time) (m : Master) (b : Fin 8)
  | echoOff (t : Time) (m : Master) (b : Fin 8)
  | peerClaimChange (t : Time) (high : Bool)
  | intlkChange (t : Time) (high : Bool)
  | claimRaise (t : Time)
  | releasePoint (t : Time)
  | agreementRecord (t : Time) (r : AgreementRec)
  | agreementTimeout (t : Time)
  | mirroredWrite (t : Time) (addr : BitVec 25) (size : AccSize) (val : W64) (since : Option Time := none)
  | mirrorTimeout (t : Time)
  | forwardedSlotData (t : Time) (b : Fin 8) (s : Fin 24) (words : List W48) (sub : BitVec 128)
  | staleMaskExchange (t : Time) (masks : List (BitVec 24))
  | digestExchange (t : Time) (digest : W64) (count : Nat) (safety : W32)
  | echoAutoStart (t : Time) (b : Fin 8)
  | echoForwardedFrame (t : Time) (b : Fin 8) (s : Fin 24) (words : List W48) (sub : BitVec 128)
  | resyncRoundEnd (t : Time) (dirty : Nat) (kib : Nat := 0) (copy : Option Machine.ResyncCopy := none)
  | rootElection (t : Time) (cands : List RootCand) (found : List FoundDevice)
  | bar2Request (t : Time) (r : Bar2Req)
  | cascadeReadTimeout (t : Time) (tag : Nat)
  | cascadeInterrupt (t : Time) (dev : BitVec 6) (vec : BitVec 6)
  | remotePendClear (t : Time) (m : Master) (hi : Bool) (bits : W32)
  | selfTestDispatch (t : Time)
  | selfTestTimeout (t : Time) (e : Fin 32)
  | nodeSafetyTimeout (t : Time) (b : Fin 8) (s : Fin 24)
  | cmdMiss (t : Time) (b : Fin 8) (s : Fin 24)
  | cycleMiss (t : Time) (b : Fin 8)
  | axcmdStop (t : Time) (m : Master) (a : Fin 128)
  | axcmdAck (t : Time) (m : Master) (a : Fin 128)
  | ss1tExpire (t : Time) (a : Fin 128)
  | ss1rTmax (t : Time) (a : Fin 128)
  | stoFeedbackSample (t : Time) (hs : Bool) (ls : Bool)
  | offPulseTestEnd (t : Time) (passed : Bool)
  | sinSample (t : Time) (levels : BitVec 4)
  | sinDiscrepancy (t : Time) (p : Fin 2)
  | channelDisagree (t : Time)
  | clockCrossCheck (t : Time) (rc : Nat)
  | supplyExcursion (t : Time) (rail : Fin 6) (bank : Fin 5 := 4)
  | selftestEnd (t : Time) (passed : Bool)
  | scmdAck (t : Time) (m : Master)
  | scmdDsto (t : Time) (m : Master)
  | paramAck (t : Time) (m : Master) (val : W32)
  | por (t : Time) (asserted : Bool)
  | nrstIn (t : Time) (asserted : Bool)
  | perst (t : Time) (asserted : Bool)
  | hotReset (t : Time) (asserted : Bool)
  | trst (t : Time) (asserted : Bool)
  | rstReq (t : Time) (m : Master) (reach : BitVec 3) (target : BitVec 5)
  | rstHold (t : Time) (m : Master) (val : W32)
  | wdogWarn (t : Time)
  | wdogExpire (t : Time)
  | wdogKick (t : Time) (m : Master)
  | resetRelease (t : Time) (src : Fin 9) (straps : BitVec 5) (banks : BankLevels := {})
  | fuseLoadDone (t : Time) (copy0 : List W32) (copy1 : List W32)
  | pllLock (t : Time)
  | exitStepDone (t : Time) (noCal : BitVec 4 := 0)
  | flashImageCheck (t : Time) (image : List Byte)
  | bootWriteRecord (t : Time)
  | bootWaitRecord (t : Time)
  | bootWaitEnd (t : Time)
  | bootEndRecord (t : Time)
  | hostMemoryRequest (t : Time) (m : Master) (addr : BitVec 25) (write : Bool) (len : Nat) (data : List Byte)
  | configWrite (t : Time) (memEn : Bool) (busMaster : Bool) (d3hot : Bool)
  | vecArm (t : Time) (m : Master) (hi : Bool) (bits : W32)
  | msixMaskChange (t : Time) (v : Option (Fin 64)) (masked : Bool)
  | tailWrite (t : Time) (m : Master) (c : Fin 16) (val : BitVec 16)
  | dmaElementStart (t : Time) (desc : List Byte)
  | dmaHostCompletion (t : Time) (c : Fin 16) (cpl : HostCpl)
  | dmaElementLanded (t : Time) (c : Fin 16)
  | chCmdResume (t : Time) (m : Master) (c : Fin 16)
  | chCmdStop (t : Time) (m : Master) (c : Fin 16)
  | chCmdSkip (t : Time) (m : Master) (c : Fin 16)
  | chCmdReset (t : Time) (m : Master) (c : Fin 16)
  | tlbInv (t : Time) (m : Master) (val : W32)
  | invalidationDone (t : Time)
  | tableWalkDone (t : Time) (e : Fin 32)
  | canFrameReceive (t : Time) (n : Fin 2) (f : CanFrame)
  | txreq (t : Time) (m : Master) (n : Fin 2) (hi : Bool) (bits : W32)
  | txcan (t : Time) (m : Master) (n : Fin 2) (hi : Bool) (bits : W32)
  | canTxSuccess (t : Time) (n : Fin 2)
  | canFailedAttempt (t : Time) (n : Fin 2) (k : CanAttempt)
  | recover (t : Time) (m : Master) (n : Fin 2)
  | canRecovered (t : Time) (n : Fin 2)
  | rxfullFree (t : Time) (m : Master) (n : Fin 2) (hi : Bool) (bits : W32)
  | canDisable (t : Time) (n : Fin 2)
  | ethFrameReceive (t : Time) (n : Fin 2) (f : EthFrame)
  | rxRdWrite (t : Time) (m : Master) (n : Fin 2) (val : W32)
  | txWrWrite (t : Time) (m : Master) (n : Fin 2) (val : W32)
  | ethFrameSent (t : Time) (n : Fin 2)
  | mbxRxFree (t : Time) (m : Master) (n : Fin 2) (bits : Byte)
  | mbxTx (t : Time) (m : Master) (n : Fin 2) (bits : Byte)
  | mdioCmd (t : Time) (m : Master) (val : W32)
  | mdioDone (t : Time) (data : BitVec 16)
  | ethLinkChange (t : Time) (n : Fin 2) (up : Bool) (aneg : Bool)
  | gpioSet (t : Time) (m : Master) (bits : BitVec 16)
  | gpioClr (t : Time) (m : Master) (bits : BitVec 16)
  | padWrite (t : Time) (m : Master) (k : Fin 64) (val : W32)
  | twiCmd (t : Time) (m : Master) (val : W32)
  | twiDone (t : Time) (acked : Bool) (rx : Byte) (arbLost : Bool)
  | twiTimeout (t : Time)
  | bwWindowEnd (t : Time) (c : Fin 8)
  | freeze (t : Time) (m : Master) (on : Bool)
  | counterOverflow (t : Time) (e : Fin 32) (i : CounterIdx)
  | clrPeak (t : Time) (m : Master) (c : Fin 8)
  | hiRead (t : Time) (m : Master) (addr : BitVec 25)
  | grantWindowClose (t : Time) (b : Fin 8) (g : Fin 16)
  | taleirReceiverLockLoss (t : Time) (b : Fin 8) (fault : RxFault := .lockLoss)
  | luavanPortLockChange (t : Time) (p : Fin 2) (up : Bool) (neighbour : Option (BitVec 6)) (err : Option LinkErr := none)
  | pxLinkChange (t : Time) (up : Bool) (info : PartnerInfo) (retry : Bool := false)
  | pcieLinkChange (t : Time) (up : Bool) (speed : BitVec 3) (width : BitVec 3)
  | cascadeReadCompletion (t : Time) (tag : Nat) (part : Nat) (ok : Bool) (data : List Byte)
  | pcieCompletionTimeout (t : Time) (o : HostReqOwner)
  | canReceiveError (t : Time) (n : Fin 2) (k : CanErr)
  | sinterSelfTest (t : Time) (passed : Bool)
  | clockWindowTimeout (t : Time)
  | partnerSafetyDemand (t : Time) (d : PartnerSafety)
  deriving DecidableEq, Repr

end Sys2Proof
end

