-- ==== Sys2Proof/Decode.lean ====
section
/-! DEFINITION. The command a table word spells. Commands reach this block as register accesses, frames and pin events, never as instruction words, and
spec/opcode_table.json gives no row any bits. -/

namespace Sys2Proof

/-- No row of the table has bits, so no word spells a command. -/
def decodeTableWord (nbits w : Nat) : Option Instr :=
  match nbits, w with
  | _, _ => none

end Sys2Proof
end

