-- ==== Sys2Proof/Machine/Crc.lean ====
section
/-! DEFINITION. The check sequences: CRC-32 and CRC-32C, reflected with initial value and final XOR of ones (R173, R295), and the
CRC-64 of the pair digest (R438). -/

namespace Sys2Proof.Machine

/-- One bit of a reflected 32-bit CRC. -/
def crcBit (poly c : W32) : W32 := if c.getLsbD 0 then (c >>> 1) ^^^ poly else c >>> 1

/-- One byte of a reflected 32-bit CRC. -/
def crcByte (poly c : W32) (b : Byte) : W32 :=
  let x := c ^^^ b.setWidth 32
  crcBit poly (crcBit poly (crcBit poly (crcBit poly (crcBit poly (crcBit poly (crcBit poly (crcBit poly x)))))))

/-- Further bytes of a CRC-32 taken in parts, from the value 0xFFFF_FFFF on; its final XOR is not made. -/
def crcAdd (c : W32) (bs : List Byte) : W32 := bs.foldl (crcByte 0xEDB88320) c

/-- A reflected CRC of bytes with initial value and final XOR 0xFFFF_FFFF; poly is the reversed polynomial. -/
def crc32With (poly : W32) (bs : List Byte) : W32 := (bs.foldl (crcByte poly) 0xFFFFFFFF) ^^^ 0xFFFFFFFF

/-- CRC-32, polynomial 0x04C1_1DB7. -/
def crc32 (bs : List Byte) : W32 := crc32With 0xEDB88320 bs

/-- CRC-32C, polynomial 0x1EDC_6F41. -/
def crc32c (bs : List Byte) : W32 := crc32With 0x82F63B78 bs

/-- One bit of the digest's CRC-64, not reflected. -/
def crc64Bit (c : W64) : W64 := if c.getLsbD 63 then (c <<< 1) ^^^ 0x42F0E1EBA9EA3693 else c <<< 1

/-- The CRC-64 of R438: ECMA-182 polynomial, initial value 0, no final XOR. -/
def crc64 (bs : List Byte) : W64 :=
  bs.foldl (fun c b => (List.range 8).foldl (fun c _ => crc64Bit c) (c ^^^ ((b.setWidth 64 : W64) <<< (56 : Nat)))) 0

end Sys2Proof.Machine
end

