-- ==== Sys2Proof/Config.lean ====
section
/-! DEFINITION. What an implementation fixes and the free values: opaque constants without a body, so that no proof can rest on a value the
spec leaves open. A free value is applied to State.freeCtr, which the step that uses it advances. -/

namespace Sys2Proof

/-- A free bit (notes/assumptions/3.md): a choice the spec leaves open. -/
opaque Config.freeBit : Nat → Bool

/-- A free byte (notes/assumptions/3.md). -/
opaque Config.freeByte : Nat → Byte

/-- A free 32-bit word (notes/assumptions/3.md). -/
opaque Config.freeW32 : Nat → W32

/-- A free 48-bit word (notes/assumptions/3.md). -/
opaque Config.freeW48 : Nat → W48

/-- A free 112-bit accumulator value (notes/assumptions/3.md). -/
opaque Config.freeAcc : Nat → BitVec 112

/-- A free choice for each item of a step, such as the register a consumer reads early (R93) or the byte a load reads while it is written (R175), by free
value number and item (notes/assumptions/3.md). -/
opaque Config.freeChoice : Nat → Nat → Bool

/-- Frame contents at operation entry (R84), by entry and word (notes/assumptions/3.md). -/
opaque Config.freeFrame : Nat → Nat → W48

/-- ID.TYPE of each kind of page but the chip page: R47 says that the codes are unique per kind and states none (notes/assumptions/4.md). -/
opaque Config.pageType : Nat → BitVec 16


end Sys2Proof
end

