-- ==== Sys2Proof/Machine/RegMap.lean ====
section
/-! DEFINITION. The register map (R35, R42 to R44, R47): every kind of page, where its pages lie, and one row for each register of
the register tables with its access type, the bits a write may change, and its reset value. Names are the spec's, after the kind of page. -/

namespace Sys2Proof.Machine

/-- Access types (Table 0.2). A register the tables mark RO/W1C is w1c here: its other bits are read only. -/
inductive Acc where
  | rw
  | ro
  | w1c
  | w1s
  | wo
  | st
  deriving DecidableEq, Repr

/-- The kinds of register page. -/
inductive PageKind where
  | chip
  | reset
  | fuse
  | invarCore
  | invarPtp
  | invarEv
  | sinCore
  | sinClass
  | sinAxis
  | sinNode
  | pcie
  | router
  | msix
  | dma
  | xlCommon
  | xlCell
  | lahar
  | lpSrc
  | cmp
  | ae
  | qe
  | geyCommon
  | geyChan
  | geyTrig
  | crater
  | branch
  | nodeTable
  | pair
  | lvCommon
  | lvPort
  | can
  | eth
  | perfCommon
  | perfCell
  | cell
  | engine
  | axis
  deriving DecidableEq, Repr

/-- One register, or an array of cnt registers stride bytes apart. mask: for rw and st the bits a write stores, for w1c the bits a 1
clears. sx: the upper half of a 48-bit quantity, which reads sign-extended from bit 15 (R44). -/
structure RegRow where
  off : Nat
  stride : Nat
  cnt : Nat
  acc : Acc
  mask : Nat
  reset : Nat
  sx : Bool
  deriving DecidableEq, Repr

/-- The kind and instance of a page number, none where no page is implemented (Table 2.2, R43 and the page lists of the chapters). -/
def pageKind (p : Nat) : Option (PageKind × Nat) :=
  if p < 0x100 then
    match p with
    | 0x0 => some (.chip, 0)
    | 0x10 => some (.reset, 0)
    | 0x11 => some (.fuse, 0)
    | 0x20 => some (.invarCore, 0)
    | 0x21 => some (.invarPtp, 0)
    | 0x22 => some (.invarEv, 0)
    | 0x30 => some (.sinCore, 0)
    | 0x31 => some (.sinClass, 0)
    | 0x32 => some (.sinAxis, 0)
    | 0x33 => some (.sinAxis, 1)
    | 0x34 => some (.sinAxis, 2)
    | 0x35 => some (.sinAxis, 3)
    | 0x38 => some (.sinNode, 0)
    | 0x39 => some (.sinNode, 1)
    | 0x3A => some (.sinNode, 2)
    | 0x3B => some (.sinNode, 3)
    | 0x3C => some (.sinNode, 4)
    | 0x3D => some (.sinNode, 5)
    | 0x3E => some (.sinNode, 6)
    | 0x3F => some (.sinNode, 7)
    | 0x40 => some (.pcie, 0)
    | 0x41 => some (.router, 0)
    | 0x42 => some (.msix, 0)
    | 0x43 => some (.dma, 0)
    | 0x50 => some (.xlCommon, 0)
    | 0x58 => some (.xlCell, 0)
    | 0x59 => some (.xlCell, 1)
    | 0x5A => some (.xlCell, 2)
    | 0x5B => some (.xlCell, 3)
    | 0x5C => some (.xlCell, 4)
    | 0x5D => some (.xlCell, 5)
    | 0x5E => some (.xlCell, 6)
    | 0x5F => some (.xlCell, 7)
    | 0x60 => some (.lahar, 0)
    | 0x70 => some (.lpSrc, 0)
    | 0x71 => some (.cmp, 0)
    | 0x72 => some (.ae, 0)
    | 0x73 => some (.ae, 1)
    | 0x78 => some (.qe, 0)
    | 0x79 => some (.qe, 1)
    | 0x7A => some (.qe, 2)
    | 0x7B => some (.qe, 3)
    | 0x7C => some (.qe, 4)
    | 0x7D => some (.qe, 5)
    | 0x7E => some (.qe, 6)
    | 0x7F => some (.qe, 7)
    | 0x80 => some (.geyCommon, 0)
    | 0x81 => some (.geyChan, 0)
    | 0x82 => some (.geyChan, 1)
    | 0x83 => some (.geyChan, 2)
    | 0x84 => some (.geyChan, 3)
    | 0x85 => some (.geyTrig, 0)
    | 0x90 => some (.crater, 0)
    | 0xA0 => some (.branch, 0)
    | 0xA1 => some (.branch, 1)
    | 0xA2 => some (.branch, 2)
    | 0xA3 => some (.branch, 3)
    | 0xA4 => some (.branch, 4)
    | 0xA5 => some (.branch, 5)
    | 0xA6 => some (.branch, 6)
    | 0xA7 => some (.branch, 7)
    | 0xB0 => some (.nodeTable, 0)
    | 0xB1 => some (.nodeTable, 1)
    | 0xB2 => some (.nodeTable, 2)
    | 0xB3 => some (.nodeTable, 3)
    | 0xB4 => some (.nodeTable, 4)
    | 0xB5 => some (.nodeTable, 5)
    | 0xB6 => some (.nodeTable, 6)
    | 0xB7 => some (.nodeTable, 7)
    | 0xC0 => some (.pair, 0)
    | 0xC1 => some (.lvCommon, 0)
    | 0xC2 => some (.lvPort, 0)
    | 0xC3 => some (.lvPort, 1)
    | 0xD0 => some (.can, 0)
    | 0xD1 => some (.can, 1)
    | 0xE0 => some (.eth, 0)
    | 0xE1 => some (.eth, 1)
    | 0xF0 => some (.perfCommon, 0)
    | 0xF8 => some (.perfCell, 0)
    | 0xF9 => some (.perfCell, 1)
    | 0xFA => some (.perfCell, 2)
    | 0xFB => some (.perfCell, 3)
    | 0xFC => some (.perfCell, 4)
    | 0xFD => some (.perfCell, 5)
    | 0xFE => some (.perfCell, 6)
    | 0xFF => some (.perfCell, 7)
    | _ => none
  else if p < 0x180 then
    let cell := (p - 0x100) / 16
    let l := (p - 0x100) % 16
    if l = 0 then some (.cell, cell) else if l ≤ 4 then some (.engine, cell * 4 + (l - 1)) else none
  else if 0x200 ≤ p ∧ p < 0x280 then some (.axis, p - 0x200)
  else none

/-- CAPS of each kind of page: [0] STAGED, [1] IMMED, [2] LOCKABLE, [3] FDISP (Table 2.4, and the register section of each chapter). -/
def pageCaps : PageKind → Nat
  | .chip => 0
  | .reset => 7
  | .fuse => 4
  | .invarCore => 3
  | .invarPtp => 1
  | .invarEv => 3
  | .sinCore => 5
  | .sinClass => 5
  | .sinAxis => 5
  | .sinNode => 5
  | .pcie => 0
  | .router => 0
  | .msix => 0
  | .dma => 3
  | .xlCommon => 0
  | .xlCell => 0
  | .lahar => 0
  | .lpSrc => 1
  | .cmp => 3
  | .ae => 3
  | .qe => 11
  | .geyCommon => 1
  | .geyChan => 1
  | .geyTrig => 1
  | .crater => 5
  | .branch => 13
  | .nodeTable => 5
  | .pair => 9
  | .lvCommon => 1
  | .lvPort => 9
  | .can => 9
  | .eth => 1
  | .perfCommon => 3
  | .perfCell => 3
  | .cell => 9
  | .engine => 8
  | .axis => 1

/-- The defined bits of IRQ_STAT and IRQ_EN: the header bits [3:0] and the page-specific bits of each chapter. -/
def pageIrqMask : PageKind → Nat
  | .chip => 0x10F
  | .reset => 0x30F
  | .fuse => 0xF
  | .invarCore => 0x1F0F
  | .invarPtp => 0xF
  | .invarEv => 0x30F
  | .sinCore => 0x7F0F
  | .sinClass => 0xF
  | .sinAxis => 0xF0F
  | .sinNode => 0xF0F
  | .pcie => 0xF
  | .router => 0xF
  | .msix => 0xF
  | .dma => 0x1FFFF0F
  | .xlCommon => 0xF
  | .xlCell => 0x10F
  | .lahar => 0xFF0F
  | .lpSrc => 0xF0F
  | .cmp => 0xFF0F
  | .ae => 0x30F
  | .qe => 0x30F
  | .geyCommon => 0xFFFF0F
  | .geyChan => 0x70F
  | .geyTrig => 0xFFFF0F
  | .crater => 0xF
  | .branch => 0x3F0F
  | .nodeTable => 0x1FF0F
  | .pair => 0xFF0F
  | .lvCommon => 0xF0F
  | .lvPort => 0xF
  | .can => 0xFF0F
  | .eth => 0x3F0F
  | .perfCommon => 0xF
  | .perfCell => 0x1F0F
  | .cell => 0x70F
  | .engine => 0x10F
  | .axis => 0x1FF0F

/-- The stored bits of CTRL: STAGE_VIEW, and ENABLE of an axis page (section 6.11). -/
def pageCtrlMask : PageKind → Nat
  | .axis => 0x101
  | .chip => 1
  | .reset => 1
  | .fuse => 1
  | .invarCore => 1
  | .invarPtp => 1
  | .invarEv => 1
  | .sinCore => 1
  | .sinClass => 1
  | .sinAxis => 1
  | .sinNode => 1
  | .pcie => 1
  | .router => 1
  | .msix => 1
  | .dma => 1
  | .xlCommon => 1
  | .xlCell => 1
  | .lahar => 1
  | .lpSrc => 1
  | .cmp => 1
  | .ae => 1
  | .qe => 1
  | .geyCommon => 1
  | .geyChan => 1
  | .geyTrig => 1
  | .crater => 1
  | .branch => 1
  | .nodeTable => 1
  | .pair => 1
  | .lvCommon => 1
  | .lvPort => 1
  | .can => 1
  | .eth => 1
  | .perfCommon => 1
  | .perfCell => 1
  | .cell => 1
  | .engine => 1

/-- The header of every page (Table 2.3). -/
def headerRows (k : PageKind) : List RegRow :=
  [⟨0x000, 0, 1, .ro, 0, 0, false⟩, ⟨0x004, 0, 1, .ro, 0, 0, false⟩, ⟨0x008, 0, 1, .rw, pageCtrlMask k, 0, false⟩,
   ⟨0x00C, 0, 1, .ro, 0, 0, false⟩, ⟨0x010, 0, 1, .w1c, pageIrqMask k, 0, false⟩, ⟨0x014, 0, 1, .rw, pageIrqMask k, 0, false⟩,
   ⟨0x018, 0, 1, .wo, 0, 0, false⟩, ⟨0x01C, 0, 1, .wo, 0, 0, false⟩, ⟨0x020, 0, 1, .ro, 0, 0, false⟩,
   ⟨0x024, 0, 1, .ro, 0, 0, false⟩, ⟨0x028, 0, 1, .wo, 0, 0, false⟩, ⟨0x02C, 0, 1, .rw, 0xFFFFFFFF, 0, false⟩]

/-- Registers of a chip page after its header (Table 2.6, Table 19.6). -/
def rows_chip : List RegRow :=
  [⟨0x040, 0x0, 1, .wo, 0x0, 0x0, false⟩,
   ⟨0x044, 0x0, 1, .ro, 0x0, 0x0, false⟩,
   ⟨0x048, 0x0, 1, .ro, 0x0, 0x0, false⟩,
   ⟨0x04C, 0x0, 1, .w1c, 0x1, 0x0, false⟩,
   ⟨0x050, 0x0, 1, .ro, 0x0, 0x0, false⟩,
   ⟨0x054, 0x0, 1, .ro, 0x0, 0x0, true⟩,
   ⟨0x058, 0x0, 1, .ro, 0x0, 0x0, false⟩,
   ⟨0x05C, 0x0, 1, .ro, 0x0, 0x0, true⟩,
   ⟨0x0A0, 0x0, 1, .ro, 0x0, 0x0, false⟩,
   ⟨0x0A4, 0x0, 1, .rw, 0xFFFF, 0x0, false⟩,
   ⟨0x0A8, 0x0, 1, .w1s, 0x0, 0x0, false⟩,
   ⟨0x0AC, 0x0, 1, .w1c, 0x0, 0x0, false⟩,
   ⟨0x0B0, 0x0, 1, .rw, 0xFFFF, 0x0, false⟩,
   ⟨0x0C0, 0x0, 1, .rw, 0x3, 0x0, false⟩,
   ⟨0x0C4, 0x0, 1, .wo, 0x0, 0x0, false⟩,
   ⟨0x0C8, 0x0, 1, .w1c, 0xF000, 0x0, false⟩,
   ⟨0x100, 0x4, 64, .rw, 0x7F7, 0x12, false⟩]

/-- Registers of a reset page after its header (Table 15.10). -/
def rows_reset : List RegRow :=
  [⟨0x040, 0x0, 1, .w1c, 0x1001FF, 0x0, false⟩,
   ⟨0x044, 0x0, 1, .wo, 0x0, 0x0, false⟩,
   ⟨0x048, 0x0, 1, .rw, 0x3FFFF, 0x0, false⟩,
   ⟨0x04C, 0x0, 1, .w1c, 0x1, 0x0, false⟩,
   ⟨0x050, 0x0, 1, .st, 0xFFFF0001, 0x3E80000, false⟩,
   ⟨0x054, 0x0, 1, .ro, 0x0, 0x0, false⟩]

/-- Registers of a fuse page after its header (Table 15.11). -/
def rows_fuse : List RegRow :=
  [⟨0x040, 0x0, 1, .ro, 0x0, 0x0, false⟩,
   ⟨0x044, 0x0, 1, .ro, 0x0, 0x0, false⟩,
   ⟨0x048, 0x0, 1, .ro, 0x0, 0x0, false⟩,
   ⟨0x04C, 0x0, 1, .ro, 0x0, 0x1F, false⟩,
   ⟨0x050, 0x0, 1, .ro, 0x0, 0x0, false⟩]

/-- Registers of a invarCore page after its header (Table 12.5). -/
def rows_invarCore : List RegRow :=
  [⟨0x040, 0x0, 1, .st, 0x1FF0FF7, 0x640630, false⟩,
   ⟨0x044, 0x0, 1, .st, 0xFFFFF, 0x3E8, false⟩,
   ⟨0x048, 0x0, 1, .st, 0xFFFF, 0x100, false⟩,
   ⟨0x04C, 0x0, 1, .st, 0xFFFFFFFF, 0x0, false⟩,
   ⟨0x050, 0x0, 1, .st, 0x1FFFF03, 0x640000, false⟩,
   ⟨0x054, 0x0, 1, .wo, 0x0, 0x0, false⟩,
   ⟨0x058, 0x0, 1, .w1c, 0x8, 0x0, false⟩,
   ⟨0x05C, 0x0, 1, .ro, 0x0, 0x0, false⟩,
   ⟨0x060, 0x0, 1, .ro, 0x0, 0x0, false⟩,
   ⟨0x064, 0x0, 1, .ro, 0x0, 0x0, false⟩,
   ⟨0x068, 0x0, 1, .ro, 0x0, 0x0, false⟩,
   ⟨0x070, 0x0, 1, .ro, 0x0, 0x0, false⟩,
   ⟨0x074, 0x0, 1, .ro, 0x0, 0x0, true⟩,
   ⟨0x078, 0x0, 1, .ro, 0x0, 0x0, false⟩,
   ⟨0x07C, 0x0, 1, .ro, 0x0, 0x0, true⟩,
   ⟨0x080, 0x0, 1, .ro, 0x0, 0x0, false⟩,
   ⟨0x088, 0x0, 1, .st, 0xFFFFFFFF, 0x0, false⟩,
   ⟨0x08C, 0x0, 1, .st, 0xFFFF, 0x0, true⟩,
   ⟨0x090, 0x0, 1, .ro, 0x0, 0x0, false⟩,
   ⟨0x094, 0x0, 1, .ro, 0x0, 0x0, true⟩,
   ⟨0x098, 0x0, 1, .ro, 0x0, 0x0, false⟩,
   ⟨0x09C, 0x0, 1, .ro, 0x0, 0x0, true⟩,
   ⟨0x0A0, 0x0, 1, .ro, 0x0, 0x0, false⟩,
   ⟨0x0A8, 0x0, 1, .ro, 0x0, 0x0, false⟩,
   ⟨0x0AC, 0x0, 1, .ro, 0x0, 0x0, false⟩]

/-- Registers of a invarPtp page after its header (Table 12.6). -/
def rows_invarPtp : List RegRow :=
  [⟨0x040, 0x0, 1, .st, 0xFFF3FF, 0x4000, false⟩,
   ⟨0x044, 0x0, 1, .st, 0xFFFFFFFF, 0x0, false⟩,
   ⟨0x048, 0x0, 1, .st, 0xFFFFFFFF, 0x0, false⟩,
   ⟨0x04C, 0x0, 1, .st, 0xFFFFFFFF, 0x0, false⟩,
   ⟨0x050, 0x0, 1, .st, 0xFFFF, 0x0, false⟩,
   ⟨0x054, 0x0, 1, .ro, 0x0, 0x0, false⟩,
   ⟨0x058, 0x0, 1, .ro, 0x0, 0x0, false⟩,
   ⟨0x05C, 0x0, 1, .ro, 0x0, 0x0, false⟩]

/-- Registers of a invarEv page after its header (Table 12.7). -/
def rows_invarEv : List RegRow :=
  [⟨0x040, 0x4, 2, .w1c, 0xFFFFFFFF, 0x0, false⟩,
   ⟨0x100, 0x10, 64, .st, 0xFFFFFFFF, 0x0, false⟩,
   ⟨0x104, 0x10, 64, .st, 0xFFFF, 0x0, true⟩,
   ⟨0x108, 0x10, 64, .st, 0xFFFFFFFF, 0x0, false⟩,
   ⟨0x10C, 0x10, 64, .st, 0x3, 0x0, false⟩,
   ⟨0x500, 0x4, 64, .ro, 0x0, 0x0, false⟩]

/-- Registers of a sinCore page after its header (Table 14.9). -/
def rows_sinCore : List RegRow :=
  [⟨0x040, 0x0, 1, .st, 0xFFFF03, 0x640F03, false⟩,
   ⟨0x044, 0x0, 1, .st, 0xFFF3FFF3, 0x0, false⟩,
   ⟨0x048, 0x0, 1, .wo, 0x0, 0x0, false⟩,
   ⟨0x04C, 0x0, 1, .wo, 0x0, 0x0, false⟩,
   ⟨0x050, 0x0, 1, .ro, 0x0, 0x0, false⟩,
   ⟨0x054, 0x0, 1, .ro, 0x0, 0x0, false⟩,
   ⟨0x058, 0x0, 1, .ro, 0x0, 0x0, false⟩,
   ⟨0x05C, 0x0, 1, .ro, 0x0, 0x0, false⟩,
   ⟨0x060, 0x0, 1, .ro, 0x0, 0x0, false⟩,
   ⟨0x064, 0x0, 1, .ro, 0x0, 0x0, false⟩,
   ⟨0x068, 0x0, 1, .ro, 0x0, 0x0, false⟩]

/-- Registers of a sinClass page after its header (Table 14.1, Table 14.5, R498). -/
def rows_sinClass : List RegRow :=
  [⟨0x040, 0x0, 1, .st, 0xFF1F, 0x4008, false⟩,
   ⟨0x044, 0x0, 1, .st, 0xFF1F, 0x200A, false⟩,
   ⟨0x048, 0x0, 1, .st, 0xFF1F, 0x200A, false⟩,
   ⟨0x04C, 0x0, 1, .st, 0xFF1F, 0x200A, false⟩,
   ⟨0x050, 0x0, 1, .st, 0xFF1F, 0x40C, false⟩,
   ⟨0x054, 0x0, 1, .st, 0xFF1F, 0x300, false⟩,
   ⟨0x058, 0x0, 1, .st, 0xFF1F, 0x1010, false⟩,
   ⟨0x05C, 0x0, 1, .st, 0xFF1F, 0x804, false⟩,
   ⟨0x060, 0x0, 1, .st, 0xFF1F, 0x1008, false⟩,
   ⟨0x080, 0x0, 1, .st, 0x7, 0x3, false⟩,
   ⟨0x088, 0x0, 1, .st, 0x7, 0x0, false⟩,
   ⟨0x08C, 0x0, 1, .st, 0x7, 0x0, false⟩,
   ⟨0x090, 0x0, 1, .st, 0x7, 0x0, false⟩,
   ⟨0x098, 0x0, 1, .st, 0x7, 0x4, false⟩,
   ⟨0x09C, 0x0, 1, .st, 0x7, 0x4, false⟩,
   ⟨0x0A0, 0x0, 1, .st, 0x7, 0x4, false⟩,
   ⟨0x0A4, 0x0, 1, .st, 0x7, 0x4, false⟩,
   ⟨0x0A8, 0x0, 1, .st, 0x7, 0x0, false⟩,
   ⟨0x0AC, 0x0, 1, .st, 0x7, 0x0, false⟩,
   ⟨0x0B0, 0x0, 1, .st, 0x7, 0x0, false⟩,
   ⟨0x0B4, 0x0, 1, .st, 0x7, 0x0, false⟩,
   ⟨0x0B8, 0x0, 1, .st, 0x7, 0x0, false⟩,
   ⟨0x0BC, 0x0, 1, .st, 0x7, 0x4, false⟩,
   ⟨0x0C0, 0x4, 16, .ro, 0x0, 0x0, false⟩]

/-- Registers of a sinAxis page after its header (Table 14.10). -/
def rows_sinAxis : List RegRow :=
  [⟨0x100, 0x20, 32, .st, 0x1037F, 0x0, false⟩,
   ⟨0x104, 0x20, 32, .st, 0xFFFF, 0x1, false⟩,
   ⟨0x108, 0x20, 32, .st, 0xFFFFFFF, 0x1, false⟩,
   ⟨0x10C, 0x20, 32, .st, 0xFFFFFFF, 0x1, false⟩,
   ⟨0x110, 0x20, 32, .st, 0xFFF, 0x7FF, false⟩,
   ⟨0x114, 0x20, 32, .ro, 0x0, 0x0, false⟩,
   ⟨0x118, 0x20, 32, .wo, 0x0, 0x0, false⟩]

/-- Registers of a sinNode page after its header (R501). -/
def rows_sinNode : List RegRow :=
  [⟨0x100, 0x10, 24, .st, 0x77FFFF01, 0x0, false⟩,
   ⟨0x104, 0x10, 24, .st, 0xFFFFFFFF, 0x0, false⟩,
   ⟨0x108, 0x10, 24, .ro, 0x0, 0x0, false⟩,
   ⟨0x10C, 0x10, 24, .ro, 0x0, 0x0, false⟩]

/-- Registers of a pcie page after its header (Table 16.7). -/
def rows_pcie : List RegRow :=
  [⟨0x040, 0x0, 1, .ro, 0x0, 0x0, false⟩,
   ⟨0x044, 0x0, 1, .ro, 0x0, 0x0, false⟩]

/-- Registers of a router page after its header (Table 16.7). -/
def rows_router : List RegRow :=
  [⟨0x040, 0x4, 2, .ro, 0x0, 0x0, false⟩,
   ⟨0x048, 0x4, 2, .w1s, 0x0, 0xFFFFFFFF, false⟩,
   ⟨0x050, 0x4, 2, .w1c, 0xFFFFFFFF, 0x0, false⟩,
   ⟨0x100, 0x4, 16, .rw, 0xBFBFBFBF, 0x0, false⟩,
   ⟨0x400, 0x4, 512, .rw, 0xBFBFBFBF, 0x0, false⟩]

/-- Registers of a msix page after its header (R535). -/
def rows_msix : List RegRow :=
  [⟨0x800, 0x10, 64, .rw, 0xFFFFFFFC, 0x0, false⟩,
   ⟨0x804, 0x10, 64, .rw, 0xFFFFFFFF, 0x0, false⟩,
   ⟨0x808, 0x10, 64, .rw, 0xFFFFFFFF, 0x0, false⟩,
   ⟨0x80C, 0x10, 64, .rw, 0x1, 0x1, false⟩,
   ⟨0xC00, 0x4, 2, .ro, 0x0, 0x0, false⟩]

/-- Registers of a dma page after its header (Table 16.8). -/
def rows_dma : List RegRow :=
  [⟨0x040, 0x0, 1, .ro, 0x0, 0x0, false⟩,
   ⟨0x100, 0x40, 16, .st, 0x7FF7, 0x40, false⟩,
   ⟨0x108, 0x40, 16, .st, 0xFFFFFFFF, 0x0, false⟩,
   ⟨0x10C, 0x40, 16, .st, 0xFFFFFFFF, 0x0, false⟩,
   ⟨0x110, 0x40, 16, .rw, 0xFFFF, 0x0, false⟩,
   ⟨0x114, 0x40, 16, .ro, 0x0, 0x0, false⟩,
   ⟨0x118, 0x40, 16, .wo, 0x0, 0x0, false⟩,
   ⟨0x11C, 0x40, 16, .w1c, 0x30000, 0x0, false⟩,
   ⟨0x120, 0x40, 16, .ro, 0x0, 0x0, false⟩,
   ⟨0x124, 0x40, 16, .ro, 0x0, 0x0, false⟩,
   ⟨0x128, 0x40, 16, .ro, 0x0, 0x0, false⟩,
   ⟨0x12C, 0x40, 16, .ro, 0x0, 0x0, false⟩]

/-- Registers of a xlCommon page after its header (Table 16.9). -/
def rows_xlCommon : List RegRow :=
  [⟨0x040, 0x0, 1, .wo, 0x0, 0x0, false⟩,
   ⟨0x044, 0x0, 1, .rw, 0xFFFFFFFF, 0x0, false⟩,
   ⟨0x048, 0x0, 1, .w1c, 0x2, 0x0, false⟩,
   ⟨0x04C, 0x0, 1, .ro, 0x0, 0x0, false⟩]

/-- Registers of a xlCell page after its header (Table 16.9). -/
def rows_xlCell : List RegRow :=
  [⟨0x040, 0x0, 1, .ro, 0x0, 0x0, false⟩,
   ⟨0x044, 0x0, 1, .ro, 0x0, 0x0, true⟩,
   ⟨0x048, 0x0, 1, .w1c, 0x1, 0x0, false⟩,
   ⟨0x04C, 0x0, 1, .ro, 0x0, 0x0, false⟩,
   ⟨0x050, 0x0, 1, .ro, 0x0, 0x0, false⟩]

/-- Registers of a lahar page after its header (Table 5.11). -/
def rows_lahar : List RegRow :=
  [⟨0x040, 0x0, 1, .rw, 0x7FF000, 0x0, false⟩,
   ⟨0x044, 0x0, 1, .wo, 0x0, 0x0, false⟩,
   ⟨0x048, 0x0, 1, .ro, 0x0, 0x0, false⟩,
   ⟨0x04C, 0x0, 1, .ro, 0x0, 0x0, false⟩,
   ⟨0x050, 0x0, 1, .rw, 0xFFFFFFFF, 0x0, false⟩,
   ⟨0x054, 0x0, 1, .wo, 0x0, 0x0, false⟩,
   ⟨0x058, 0x0, 1, .wo, 0x0, 0x0, false⟩,
   ⟨0x05C, 0x0, 1, .rw, 0xFFF, 0x0, false⟩,
   ⟨0x060, 0x0, 1, .ro, 0x0, 0x0, false⟩,
   ⟨0x064, 0x0, 1, .ro, 0x0, 0x0, false⟩,
   ⟨0x068, 0x0, 1, .w1c, 0x1, 0x0, false⟩,
   ⟨0x070, 0x4, 16, .rw, 0xFFFFFFFF, 0x0, false⟩,
   ⟨0x0B0, 0x4, 4, .ro, 0x0, 0x0, false⟩,
   ⟨0x0C0, 0x8, 4, .ro, 0x0, 0x0, false⟩,
   ⟨0x0C4, 0x8, 4, .ro, 0x0, 0x0, true⟩]

/-- Registers of a lpSrc page after its header (Table 8.5). -/
def rows_lpSrc : List RegRow :=
  [⟨0x040, 0x40, 4, .st, 0x1037FFF, 0x0, false⟩,
   ⟨0x044, 0x40, 4, .st, 0xFFFF, 0x40, false⟩,
   ⟨0x048, 0x40, 4, .st, 0xFFFFFFFF, 0x0, false⟩,
   ⟨0x04C, 0x40, 4, .st, 0xFFFF, 0x0, true⟩,
   ⟨0x050, 0x40, 4, .st, 0xFFFFFFFF, 0x0, false⟩,
   ⟨0x054, 0x40, 4, .st, 0xFFFF, 0x0, true⟩,
   ⟨0x058, 0x40, 4, .ro, 0x0, 0x0, false⟩,
   ⟨0x05C, 0x40, 4, .ro, 0x0, 0x0, true⟩,
   ⟨0x060, 0x40, 4, .ro, 0x0, 0x0, false⟩,
   ⟨0x064, 0x40, 4, .ro, 0x0, 0x0, true⟩,
   ⟨0x068, 0x40, 4, .ro, 0x0, 0x0, false⟩,
   ⟨0x06C, 0x40, 4, .ro, 0x0, 0x0, true⟩,
   ⟨0x070, 0x40, 4, .ro, 0x0, 0x0, false⟩]

/-- Registers of a cmp page after its header (Table 8.6). -/
def rows_cmp : List RegRow :=
  [⟨0x040, 0x20, 8, .st, 0x3F01FF, 0x0, false⟩,
   ⟨0x044, 0x20, 8, .st, 0xFFFFF, 0x19, false⟩,
   ⟨0x048, 0x20, 8, .wo, 0x0, 0x0, false⟩,
   ⟨0x04C, 0x20, 8, .wo, 0x0, 0x0, false⟩,
   ⟨0x050, 0x20, 8, .wo, 0x0, 0x0, false⟩,
   ⟨0x054, 0x20, 8, .w1c, 0xF0000, 0x0, false⟩,
   ⟨0x058, 0x20, 8, .ro, 0x0, 0x0, false⟩]

/-- Registers of a ae page after its header (Table 8.7). -/
def rows_ae : List RegRow :=
  [⟨0x040, 0x4, 4, .w1c, 0xFFFFFFFF, 0x0, false⟩,
   ⟨0x100, 0x10, 128, .st, 0xFFFFFFFF, 0x0, false⟩,
   ⟨0x104, 0x10, 128, .st, 0xFFFF, 0x0, true⟩,
   ⟨0x108, 0x10, 128, .st, 0xFFFFFF3F, 0x0, false⟩,
   ⟨0x10C, 0x10, 128, .ro, 0x0, 0x0, false⟩]

/-- Registers of a qe page after its header (Table 8.8). -/
def rows_qe : List RegRow :=
  [⟨0x040, 0x0, 1, .st, 0x1FFF, 0x0, false⟩,
   ⟨0x044, 0x0, 1, .st, 0xFFFFFFFF, 0xFFFFFFFF, false⟩,
   ⟨0x048, 0x0, 1, .wo, 0x0, 0x0, false⟩,
   ⟨0x04C, 0x0, 1, .w1c, 0x300, 0x0, false⟩,
   ⟨0x050, 0x0, 1, .ro, 0x0, 0x0, false⟩,
   ⟨0x054, 0x0, 1, .ro, 0x0, 0x0, false⟩,
   ⟨0x058, 0x0, 1, .ro, 0x0, 0x0, false⟩,
   ⟨0x05C, 0x0, 1, .ro, 0x0, 0x0, false⟩,
   ⟨0x060, 0x0, 1, .ro, 0x0, 0x0, false⟩,
   ⟨0x064, 0x0, 1, .ro, 0x0, 0x0, false⟩,
   ⟨0x068, 0x0, 1, .ro, 0x0, 0x0, false⟩,
   ⟨0x06C, 0x0, 1, .ro, 0x0, 0x0, true⟩,
   ⟨0x070, 0x0, 1, .ro, 0x0, 0x0, false⟩]

/-- Registers of a geyCommon page after its header (Table 11.5). -/
def rows_geyCommon : List RegRow :=
  [⟨0x040, 0x10, 8, .st, 0x7FF10F, 0x4, false⟩,
   ⟨0x044, 0x10, 8, .rw, 0x1FFFF, 0x1, false⟩,
   ⟨0x048, 0x10, 8, .ro, 0x0, 0x0, false⟩,
   ⟨0x04C, 0x10, 8, .rw, 0xFFFFFFFF, 0x0, false⟩,
   ⟨0x0C0, 0x4, 8, .ro, 0x0, 0x0, false⟩,
   ⟨0x0E0, 0x0, 1, .ro, 0x0, 0x0, false⟩]

/-- Registers of a geyChan page after its header (Table 11.6). -/
def rows_geyChan : List RegRow :=
  [⟨0x100, 0x20, 64, .st, 0xFF7F1FFF, 0x0, false⟩,
   ⟨0x104, 0x20, 64, .st, 0xF7FF1F1F, 0x10060A00, false⟩,
   ⟨0x108, 0x20, 64, .st, 0xFFFFFFFF, 0x0, false⟩,
   ⟨0x10C, 0x20, 64, .st, 0xFFFF, 0x0, true⟩,
   ⟨0x110, 0x20, 64, .st, 0xFFFFFFFF, 0x0, false⟩,
   ⟨0x114, 0x20, 64, .st, 0xFFFF, 0x0, true⟩,
   ⟨0x118, 0x20, 64, .st, 0xFFFF, 0x1, false⟩,
   ⟨0x11C, 0x20, 64, .ro, 0x0, 0x0, false⟩]

/-- Registers of a geyTrig page after its header (Table 11.7). -/
def rows_geyTrig : List RegRow :=
  [⟨0x100, 0x40, 16, .st, 0x7FFF, 0x800, false⟩,
   ⟨0x104, 0x40, 16, .st, 0x1FFFFFF, 0x0, false⟩,
   ⟨0x108, 0x40, 16, .st, 0x7FFFFF, 0x0, false⟩,
   ⟨0x10C, 0x40, 16, .st, 0xFFFFFFFF, 0x10000, false⟩,
   ⟨0x110, 0x40, 16, .st, 0x7FF00F, 0x6, false⟩,
   ⟨0x114, 0x40, 16, .st, 0xFFFF, 0x1, false⟩,
   ⟨0x118, 0x40, 16, .wo, 0x0, 0x0, false⟩,
   ⟨0x11C, 0x40, 16, .w1c, 0x200, 0x0, false⟩,
   ⟨0x120, 0x40, 16, .ro, 0x0, 0x0, false⟩,
   ⟨0x124, 0x40, 16, .ro, 0x0, 0x0, true⟩,
   ⟨0x128, 0x40, 16, .ro, 0x0, 0x0, false⟩,
   ⟨0x12C, 0x40, 16, .ro, 0x0, 0x0, false⟩]

/-- Registers of a crater page after its header (Table 9.18). -/
def rows_crater : List RegRow :=
  [⟨0x040, 0x0, 1, .st, 0x7, 0x1, false⟩,
   ⟨0x044, 0x0, 1, .st, 0xFFFFFF, 0xFAC688, false⟩,
   ⟨0x048, 0x0, 1, .ro, 0x0, 0x0, false⟩,
   ⟨0x04C, 0x0, 1, .ro, 0x0, 0x0, false⟩]

/-- Registers of a branch page after its header (Table 9.19). -/
def rows_branch : List RegRow :=
  [⟨0x040, 0x0, 1, .st, 0x7, 0x0, false⟩,
   ⟨0x044, 0x0, 1, .st, 0x7F3F1F, 0x80401, false⟩,
   ⟨0x048, 0x0, 1, .st, 0x3FFFF, 0x640, false⟩,
   ⟨0x04C, 0x0, 1, .st, 0xF, 0x3, false⟩,
   ⟨0x050, 0x0, 1, .st, 0xF03, 0x200, false⟩,
   ⟨0x054, 0x0, 1, .st, 0x3FFFF, 0x3E8, false⟩,
   ⟨0x058, 0x0, 1, .st, 0xFFFFF, 0x0, false⟩,
   ⟨0x05C, 0x0, 1, .st, 0x7F0000, 0x0, false⟩,
   ⟨0x060, 0x0, 1, .wo, 0x0, 0x0, false⟩,
   ⟨0x064, 0x0, 1, .rw, 0xFFF, 0x0, false⟩,
   ⟨0x068, 0x0, 1, .w1c, 0x300, 0x0, false⟩,
   ⟨0x06C, 0x0, 1, .ro, 0x0, 0x0, false⟩,
   ⟨0x070, 0x0, 1, .ro, 0x0, 0x0, false⟩,
   ⟨0x074, 0x0, 1, .wo, 0x0, 0x0, false⟩,
   ⟨0x078, 0x0, 1, .ro, 0x0, 0x0, false⟩,
   ⟨0x07C, 0x0, 1, .ro, 0x0, 0x0, false⟩,
   ⟨0x080, 0x4, 24, .st, 0x3FFFF, 0x0, false⟩,
   ⟨0x100, 0x8, 24, .st, 0x77, 0x0, false⟩,
   ⟨0x104, 0x8, 24, .ro, 0x0, 0x0, false⟩]

/-- Registers of a nodeTable page after its header (Table 10.10). -/
def rows_nodeTable : List RegRow :=
  [⟨0x040, 0x0, 1, .st, 0x1, 0x0, false⟩,
   ⟨0x044, 0x0, 1, .st, 0x7FC000, 0x0, false⟩,
   ⟨0x048, 0x0, 1, .wo, 0x0, 0x0, false⟩,
   ⟨0x04C, 0x0, 1, .ro, 0x0, 0x0, false⟩,
   ⟨0x050, 0x0, 1, .ro, 0x0, 0x0, false⟩,
   ⟨0x054, 0x0, 1, .ro, 0x0, 0x0, false⟩,
   ⟨0x058, 0x0, 1, .ro, 0x0, 0x0, false⟩,
   ⟨0x100, 0x10, 24, .st, 0xFFFFFFFF, 0x0, false⟩,
   ⟨0x104, 0x10, 24, .st, 0xFFFFFFFF, 0x0, false⟩,
   ⟨0x108, 0x10, 24, .st, 0xFFFFFFFF, 0x0, false⟩,
   ⟨0x10C, 0x10, 24, .st, 0x31FFFFF, 0x0, false⟩,
   ⟨0x300, 0x10, 24, .ro, 0x0, 0x0, false⟩,
   ⟨0x304, 0x10, 24, .ro, 0x0, 0x0, false⟩,
   ⟨0x308, 0x10, 24, .ro, 0x0, 0x0, false⟩,
   ⟨0x30C, 0x10, 24, .ro, 0x0, 0x0, false⟩]

/-- Registers of a pair page after its header (Table 13.8). -/
def rows_pair : List RegRow :=
  [⟨0x040, 0x0, 1, .st, 0xFFFF07, 0x100004, false⟩,
   ⟨0x044, 0x0, 1, .wo, 0x0, 0x0, false⟩,
   ⟨0x048, 0x0, 1, .ro, 0x0, 0x0, false⟩,
   ⟨0x04C, 0x0, 1, .ro, 0x0, 0x0, false⟩,
   ⟨0x050, 0x0, 1, .ro, 0x0, 0x0, true⟩,
   ⟨0x054, 0x0, 1, .ro, 0x0, 0x0, false⟩,
   ⟨0x058, 0x0, 1, .ro, 0x0, 0x0, false⟩,
   ⟨0x05C, 0x0, 1, .ro, 0x0, 0x0, false⟩,
   ⟨0x060, 0x0, 1, .ro, 0x0, 0x0, false⟩,
   ⟨0x080, 0x4, 8, .st, 0xFFF07FF, 0x0, false⟩,
   ⟨0x0A0, 0x4, 8, .ro, 0x0, 0x0, false⟩]

/-- Registers of a lvCommon page after its header (Table 13.9). -/
def rows_lvCommon : List RegRow :=
  [⟨0x040, 0x0, 1, .st, 0x3, 0x1, false⟩,
   ⟨0x044, 0x0, 1, .ro, 0x0, 0x0, false⟩,
   ⟨0x048, 0x0, 1, .ro, 0x0, 0x0, false⟩,
   ⟨0x04C, 0x0, 1, .ro, 0x0, 0x0, true⟩,
   ⟨0x050, 0x4, 2, .ro, 0x0, 0x0, false⟩,
   ⟨0x058, 0x0, 1, .ro, 0x0, 0x0, false⟩]

/-- Registers of a lvPort page after its header (Table 13.9). -/
def rows_lvPort : List RegRow :=
  [⟨0x040, 0x0, 1, .ro, 0x0, 0x0, false⟩,
   ⟨0x044, 0x0, 1, .ro, 0x0, 0x0, false⟩,
   ⟨0x048, 0x0, 1, .ro, 0x0, 0x0, false⟩]

/-- Registers of a can page after its header (Table 17.5). -/
def rows_can : List RegRow :=
  [⟨0x040, 0x0, 1, .st, 0x7F1F1F, 0x0, false⟩,
   ⟨0x044, 0x0, 1, .st, 0x3FFFFFFF, 0x0, false⟩,
   ⟨0x048, 0x0, 1, .st, 0x3FFFF, 0x0, false⟩,
   ⟨0x04C, 0x0, 1, .st, 0x7FE000, 0x0, false⟩,
   ⟨0x050, 0x0, 1, .wo, 0x0, 0x0, false⟩,
   ⟨0x054, 0x0, 1, .ro, 0x0, 0x0, false⟩,
   ⟨0x058, 0x4, 2, .w1s, 0x0, 0x0, false⟩,
   ⟨0x060, 0x4, 2, .w1s, 0x0, 0x0, false⟩,
   ⟨0x068, 0x4, 2, .w1c, 0xFFFFFFFF, 0x0, false⟩,
   ⟨0x070, 0x4, 2, .w1c, 0xFFFFFFFF, 0x0, false⟩,
   ⟨0x078, 0x4, 2, .w1c, 0xFFFFFFFF, 0x0, false⟩,
   ⟨0x080, 0x0, 1, .ro, 0x0, 0x0, false⟩,
   ⟨0x084, 0x0, 1, .ro, 0x0, 0x0, false⟩,
   ⟨0x100, 0x8, 64, .st, 0xFFFFFFFF, 0x0, false⟩,
   ⟨0x104, 0x8, 64, .st, 0x3FFFFFFF, 0x0, false⟩]

/-- Registers of a eth page after its header (Table 17.6). -/
def rows_eth : List RegRow :=
  [⟨0x040, 0x0, 1, .st, 0x1F, 0x4, false⟩,
   ⟨0x044, 0x0, 1, .st, 0xFFFFFFFF, 0x0, false⟩,
   ⟨0x048, 0x0, 1, .st, 0xFFFF, 0x0, false⟩,
   ⟨0x04C, 0x0, 1, .st, 0xFFFFFFFF, 0x0, false⟩,
   ⟨0x050, 0x0, 1, .st, 0x7FF00F, 0x4, false⟩,
   ⟨0x054, 0x0, 1, .st, 0x7FF00F, 0x4, false⟩,
   ⟨0x058, 0x0, 1, .ro, 0x0, 0x0, false⟩,
   ⟨0x05C, 0x0, 1, .rw, 0xFFFFFFFF, 0x0, false⟩,
   ⟨0x060, 0x0, 1, .rw, 0xFFFFFFFF, 0x0, false⟩,
   ⟨0x064, 0x0, 1, .ro, 0x0, 0x0, false⟩,
   ⟨0x068, 0x0, 1, .st, 0x1FFFF, 0x88B5, false⟩,
   ⟨0x06C, 0x0, 1, .st, 0x7F8000, 0x0, false⟩,
   ⟨0x070, 0x0, 1, .w1c, 0xFF, 0x0, false⟩,
   ⟨0x074, 0x0, 1, .w1s, 0x0, 0x0, false⟩,
   ⟨0x078, 0x0, 1, .ro, 0x0, 0x0, false⟩,
   ⟨0x07C, 0x0, 1, .ro, 0x0, 0x0, false⟩,
   ⟨0x080, 0x0, 1, .wo, 0x0, 0x0, false⟩,
   ⟨0x084, 0x0, 1, .ro, 0x0, 0x0, false⟩]

/-- Registers of a perfCommon page after its header (Table 18.3). -/
def rows_perfCommon : List RegRow :=
  [⟨0x040, 0x0, 1, .rw, 0x3, 0x0, false⟩,
   ⟨0x048, 0x0, 1, .st, 0x1FFFFFF, 0x0, false⟩,
   ⟨0x04C, 0x0, 1, .st, 0x1FFFFFF, 0x1FFFFF8, false⟩,
   ⟨0x050, 0x0, 1, .st, 0x1FFFFFF, 0x0, false⟩,
   ⟨0x054, 0x0, 1, .st, 0x1FFFFFF, 0x1FFFFF8, false⟩]

/-- Registers of a perfCell page after its header (Table 18.4). -/
def rows_perfCell : List RegRow :=
  [⟨0x040, 0x0, 1, .st, 0x30FFFFF, 0x3E8, false⟩,
   ⟨0x080, 0x10, 6, .st, 0xF37FF, 0xF07FF, false⟩,
   ⟨0x084, 0x10, 6, .ro, 0x0, 0x0, false⟩,
   ⟨0x088, 0x10, 6, .ro, 0x0, 0x0, false⟩,
   ⟨0x08C, 0x10, 6, .ro, 0x0, 0x0, false⟩,
   ⟨0x100, 0x100, 4, .ro, 0x0, 0x0, false⟩,
   ⟨0x104, 0x100, 4, .ro, 0x0, 0x0, false⟩,
   ⟨0x108, 0x100, 4, .w1c, 0x1FF, 0x0, false⟩,
   ⟨0x110, 0x10, 8, .st, 0x337FF, 0x700, false⟩,
   ⟨0x210, 0x10, 8, .st, 0x337FF, 0x700, false⟩,
   ⟨0x310, 0x10, 8, .st, 0x337FF, 0x700, false⟩,
   ⟨0x410, 0x10, 8, .st, 0x337FF, 0x700, false⟩,
   ⟨0x114, 0x10, 8, .st, 0xFFFFFFFF, 0x0, false⟩,
   ⟨0x214, 0x10, 8, .st, 0xFFFFFFFF, 0x0, false⟩,
   ⟨0x314, 0x10, 8, .st, 0xFFFFFFFF, 0x0, false⟩,
   ⟨0x414, 0x10, 8, .st, 0xFFFFFFFF, 0x0, false⟩,
   ⟨0x118, 0x10, 8, .st, 0xFFFF, 0x0, true⟩,
   ⟨0x218, 0x10, 8, .st, 0xFFFF, 0x0, true⟩,
   ⟨0x318, 0x10, 8, .st, 0xFFFF, 0x0, true⟩,
   ⟨0x418, 0x10, 8, .st, 0xFFFF, 0x0, true⟩]

/-- Registers of a cell page after its header (Table 3.12, Table 5.12). -/
def rows_cell : List RegRow :=
  [⟨0x040, 0x0, 1, .st, 0x7F7F7F, 0x40820, false⟩,
   ⟨0x044, 0x0, 1, .st, 0xFFFF, 0x1, false⟩,
   ⟨0x048, 0x0, 1, .st, 0xFFFFF, 0xFF800, false⟩,
   ⟨0x04C, 0x0, 1, .ro, 0x0, 0xF, false⟩,
   ⟨0x080, 0x0, 1, .ro, 0x0, 0x0, false⟩,
   ⟨0x084, 0x0, 1, .ro, 0x0, 0x0, false⟩,
   ⟨0x088, 0x0, 1, .ro, 0x0, 0x0, false⟩,
   ⟨0x08C, 0x0, 1, .ro, 0x0, 0x0, false⟩,
   ⟨0x090, 0x0, 1, .ro, 0x0, 0x0, false⟩]

/-- Registers of a engine page after its header (Table 3.14). -/
def rows_engine : List RegRow :=
  [⟨0x040, 0x0, 1, .ro, 0x0, 0x0, false⟩,
   ⟨0x044, 0x0, 1, .ro, 0x0, 0x0, false⟩,
   ⟨0x048, 0x0, 1, .ro, 0x0, 0x0, false⟩,
   ⟨0x04C, 0x0, 1, .w1c, 0x1, 0x0, false⟩,
   ⟨0x050, 0x0, 1, .ro, 0x0, 0x0, false⟩,
   ⟨0x054, 0x0, 1, .ro, 0x0, 0x0, false⟩,
   ⟨0x058, 0x0, 1, .ro, 0x0, 0x0, false⟩,
   ⟨0x05C, 0x0, 1, .ro, 0x0, 0x0, true⟩,
   ⟨0x060, 0x0, 1, .w1c, 0xFFFFFFFF, 0x0, false⟩]

/-- Registers of a axis page after its header (Table 6.13, Table 7.9). -/
def rows_axis : List RegRow :=
  [⟨0x040, 0x0, 1, .st, 0x8003FF03, 0x0, false⟩,
   ⟨0x044, 0x0, 1, .st, 0x1, 0x0, false⟩,
   ⟨0x048, 0x0, 1, .st, 0x70FFFFF, 0x0, false⟩,
   ⟨0x04C, 0x0, 1, .ro, 0x0, 0x0, false⟩,
   ⟨0x050, 0x0, 1, .ro, 0x0, 0x0, false⟩,
   ⟨0x054, 0x0, 1, .ro, 0x0, 0x0, true⟩,
   ⟨0x058, 0x0, 1, .ro, 0x0, 0x0, false⟩,
   ⟨0x05C, 0x0, 1, .ro, 0x0, 0x0, true⟩,
   ⟨0x060, 0x0, 1, .ro, 0x0, 0x0, false⟩,
   ⟨0x064, 0x0, 1, .ro, 0x0, 0x0, true⟩,
   ⟨0x100, 0x0, 1, .st, 0xFFFF0307, 0x0, false⟩,
   ⟨0x104, 0x0, 1, .wo, 0x0, 0x0, false⟩,
   ⟨0x108, 0x0, 1, .st, 0xFFFFFFFF, 0x0, false⟩,
   ⟨0x10C, 0x0, 1, .st, 0xFFFF, 0x0, true⟩,
   ⟨0x110, 0x0, 1, .st, 0xFFFFFFFF, 0x0, false⟩,
   ⟨0x114, 0x0, 1, .st, 0xFFFF, 0x0, true⟩,
   ⟨0x118, 0x0, 1, .st, 0xFFFFFFFF, 0x1, false⟩,
   ⟨0x11C, 0x0, 1, .st, 0xFFFFFFFF, 0x1, false⟩,
   ⟨0x120, 0x0, 1, .st, 0x137F, 0x0, false⟩,
   ⟨0x124, 0x0, 1, .st, 0xFFFFFFFF, 0x0, false⟩,
   ⟨0x128, 0x0, 1, .st, 0xFFFFFFFF, 0x0, false⟩,
   ⟨0x12C, 0x0, 1, .st, 0xFFFFFFFF, 0x0, false⟩,
   ⟨0x130, 0x0, 1, .st, 0xFFFFF, 0x0, false⟩,
   ⟨0x134, 0x0, 1, .st, 0x7FF, 0x0, false⟩,
   ⟨0x138, 0x0, 1, .wo, 0x0, 0x0, false⟩,
   ⟨0x13C, 0x0, 1, .ro, 0x0, 0x0, false⟩,
   ⟨0x140, 0x0, 1, .w1c, 0x10000, 0x0, false⟩,
   ⟨0x144, 0x0, 1, .ro, 0x0, 0x0, false⟩,
   ⟨0x148, 0x0, 1, .ro, 0x0, 0x0, false⟩,
   ⟨0x150, 0x0, 1, .ro, 0x0, 0x0, false⟩,
   ⟨0x154, 0x0, 1, .ro, 0x0, 0x0, true⟩,
   ⟨0x158, 0x0, 1, .ro, 0x0, 0x0, false⟩,
   ⟨0x15C, 0x0, 1, .ro, 0x0, 0x0, true⟩]

/-- The registers after the header, by kind of page. -/
def pageRows : PageKind → List RegRow
  | .chip => rows_chip
  | .reset => rows_reset
  | .fuse => rows_fuse
  | .invarCore => rows_invarCore
  | .invarPtp => rows_invarPtp
  | .invarEv => rows_invarEv
  | .sinCore => rows_sinCore
  | .sinClass => rows_sinClass
  | .sinAxis => rows_sinAxis
  | .sinNode => rows_sinNode
  | .pcie => rows_pcie
  | .router => rows_router
  | .msix => rows_msix
  | .dma => rows_dma
  | .xlCommon => rows_xlCommon
  | .xlCell => rows_xlCell
  | .lahar => rows_lahar
  | .lpSrc => rows_lpSrc
  | .cmp => rows_cmp
  | .ae => rows_ae
  | .qe => rows_qe
  | .geyCommon => rows_geyCommon
  | .geyChan => rows_geyChan
  | .geyTrig => rows_geyTrig
  | .crater => rows_crater
  | .branch => rows_branch
  | .nodeTable => rows_nodeTable
  | .pair => rows_pair
  | .lvCommon => rows_lvCommon
  | .lvPort => rows_lvPort
  | .can => rows_can
  | .eth => rows_eth
  | .perfCommon => rows_perfCommon
  | .perfCell => rows_perfCell
  | .cell => rows_cell
  | .engine => rows_engine
  | .axis => rows_axis

/-- Whether a row covers an offset. -/
def RegRow.covers (r : RegRow) (o : Nat) : Bool :=
  if r.cnt = 1 then o = r.off else r.off ≤ o ∧ (o - r.off) % r.stride = 0 ∧ (o - r.off) / r.stride < r.cnt

/-- The row of a register offset of a kind of page; none for an offset that holds no register, which is reserved (R40, R11). -/
def findRow (k : PageKind) (o : Nat) : Option RegRow :=
  if o < 0x40 then (headerRows k).find? (·.covers o) else (pageRows k).find? (·.covers o)

/-- The row of a register address (a byte offset in the device address space, word aligned). -/
def rowOf (a : Nat) : Option RegRow :=
  match pageKind (a / 0x1000) with
  | some (k, _) => findRow k (a % 0x1000)
  | none => none

/-- The reset value of the register at an address (R9); 0 where the tables give none. REMAP of cell n resets to n (Table 5.12). -/
def resetOf (a : Nat) : W32 :=
  if 0x100000 ≤ a ∧ a < 0x180000 ∧ a % 0x10000 = 0x84 then BitVec.ofNat 32 (a / 0x10000 % 16)
  else match rowOf a with
  | some r => BitVec.ofNat 32 r.reset
  | none => 0

/-- The page number of engine e (R43). -/
def enginePage (e : Nat) : Nat := 0x100 + (e / 4) * 16 + e % 4 + 1

/-- The page number of cell c (R43). -/
def cellPage (c : Nat) : Nat := 0x100 + c * 16

/-! Addresses of the registers. The first argument is the page's instance where there is more than one page of the kind, the last the index of an array register. -/

abbrev R.chip_GCOMMIT : Nat := 0x40
abbrev R.chip_GCOMMIT_STAT : Nat := 0x44
abbrev R.chip_ERR_ADDR : Nat := 0x48
abbrev R.chip_ERR_INFO : Nat := 0x4C
abbrev R.chip_CYCLE_LO : Nat := 0x50
abbrev R.chip_CYCLE_HI : Nat := 0x54
abbrev R.chip_SERIAL_LO : Nat := 0x58
abbrev R.chip_SERIAL_HI : Nat := 0x5C
abbrev R.chip_GPIO_IN : Nat := 0xA0
abbrev R.chip_GPIO_OUT : Nat := 0xA4
abbrev R.chip_GPIO_SET : Nat := 0xA8
abbrev R.chip_GPIO_CLR : Nat := 0xAC
abbrev R.chip_GPIO_OE : Nat := 0xB0
abbrev R.chip_TWI_CFG : Nat := 0xC0
abbrev R.chip_TWI_CMD : Nat := 0xC4
abbrev R.chip_TWI_STAT : Nat := 0xC8
abbrev R.chip_PAD (i : Nat) : Nat := 0x100 + 0x4 * i
abbrev R.reset_RST_CAUSE : Nat := 0x10040
abbrev R.reset_RST_REQ : Nat := 0x10044
abbrev R.reset_RST_HOLD : Nat := 0x10048
abbrev R.reset_RST_STAT : Nat := 0x1004C
abbrev R.reset_WDOG_CFG : Nat := 0x10050
abbrev R.reset_WDOG_CNT : Nat := 0x10054
abbrev R.fuse_FUSE_STAT : Nat := 0x11040
abbrev R.fuse_REACH_TBL : Nat := 0x11044
abbrev R.fuse_BOOT_OPT : Nat := 0x11048
abbrev R.fuse_STRAPS : Nat := 0x1104C
abbrev R.fuse_BOOT_STAT : Nat := 0x11050
abbrev R.invarCore_CFG : Nat := 0x20040
abbrev R.invarCore_STEP_LIMIT : Nat := 0x20044
abbrev R.invarCore_STEP_WIN : Nat := 0x20048
abbrev R.invarCore_FREQ_TRIM : Nat := 0x2004C
abbrev R.invarCore_PPS_CFG : Nat := 0x20050
abbrev R.invarCore_CMD : Nat := 0x20054
abbrev R.invarCore_STAT : Nat := 0x20058
abbrev R.invarCore_RATE : Nat := 0x2005C
abbrev R.invarCore_FREQ : Nat := 0x20060
abbrev R.invarCore_THETA : Nat := 0x20064
abbrev R.invarCore_PHASE : Nat := 0x20068
abbrev R.invarCore_NOW_NS_LO : Nat := 0x20070
abbrev R.invarCore_NOW_NS_HI : Nat := 0x20074
abbrev R.invarCore_NOW_SEC_LO : Nat := 0x20078
abbrev R.invarCore_NOW_SEC_HI : Nat := 0x2007C
abbrev R.invarCore_NOW_FRAC : Nat := 0x20080
abbrev R.invarCore_SEC_SET_LO : Nat := 0x20088
abbrev R.invarCore_SEC_SET_HI : Nat := 0x2008C
abbrev R.invarCore_LAT_NS_LO : Nat := 0x20090
abbrev R.invarCore_LAT_NS_HI : Nat := 0x20094
abbrev R.invarCore_LAT_SEC_LO : Nat := 0x20098
abbrev R.invarCore_LAT_SEC_HI : Nat := 0x2009C
abbrev R.invarCore_LAT_FRAC : Nat := 0x200A0
abbrev R.invarCore_LAT_COUNT_W0 : Nat := 0x200A8
abbrev R.invarCore_LAT_COUNT_W1 : Nat := 0x200AC
abbrev R.invarPtp_PTPCFG : Nat := 0x21040
abbrev R.invarPtp_TS_ADJ : Nat := 0x21044
abbrev R.invarPtp_MASTER_CLK_W0 : Nat := 0x21048
abbrev R.invarPtp_MASTER_CLK_W1 : Nat := 0x2104C
abbrev R.invarPtp_MASTER_PORT : Nat := 0x21050
abbrev R.invarPtp_MPD : Nat := 0x21054
abbrev R.invarPtp_PTPSTAT : Nat := 0x21058
abbrev R.invarPtp_TC_CNT : Nat := 0x2105C
abbrev R.invarEv_EV_FIRED (i : Nat) : Nat := 0x22040 + 0x4 * i
abbrev R.invarEv_DUE_LO (i : Nat) : Nat := 0x22100 + 0x10 * i
abbrev R.invarEv_DUE_HI (i : Nat) : Nat := 0x22104 + 0x10 * i
abbrev R.invarEv_PERIOD (i : Nat) : Nat := 0x22108 + 0x10 * i
abbrev R.invarEv_ECFG (i : Nat) : Nat := 0x2210C + 0x10 * i
abbrev R.invarEv_ESTAT (i : Nat) : Nat := 0x22500 + 0x4 * i
abbrev R.sinCore_SCFG : Nat := 0x30040
abbrev R.sinCore_SINCFG : Nat := 0x30044
abbrev R.sinCore_SCMD : Nat := 0x30048
abbrev R.sinCore_PARAM_ACK : Nat := 0x3004C
abbrev R.sinCore_SSTAT : Nat := 0x30050
abbrev R.sinCore_OUTSTAT : Nat := 0x30054
abbrev R.sinCore_SINSTAT : Nat := 0x30058
abbrev R.sinCore_CLKX : Nat := 0x3005C
abbrev R.sinCore_SUPPLY : Nat := 0x30060
abbrev R.sinCore_PARAM_CRC : Nat := 0x30064
abbrev R.sinCore_CYC_MISS : Nat := 0x30068
abbrev R.sinClass_DET (i : Nat) : Nat := 0x310C0 + 0x4 * i
abbrev R.sinAxis_SFCFG (n : Nat) (i : Nat) : Nat := 0x32100 + 0x1000 * n + 0x20 * i
abbrev R.sinAxis_SS1T (n : Nat) (i : Nat) : Nat := 0x32104 + 0x1000 * n + 0x20 * i
abbrev R.sinAxis_SS1R (n : Nat) (i : Nat) : Nat := 0x32108 + 0x1000 * n + 0x20 * i
abbrev R.sinAxis_SS1R_LIM (n : Nat) (i : Nat) : Nat := 0x3210C + 0x1000 * n + 0x20 * i
abbrev R.sinAxis_SLS (n : Nat) (i : Nat) : Nat := 0x32110 + 0x1000 * n + 0x20 * i
abbrev R.sinAxis_AXSTAT (n : Nat) (i : Nat) : Nat := 0x32114 + 0x1000 * n + 0x20 * i
abbrev R.sinAxis_AXCMD (n : Nat) (i : Nat) : Nat := 0x32118 + 0x1000 * n + 0x20 * i
abbrev R.sinNode_NSCFG (n : Nat) (i : Nat) : Nat := 0x38100 + 0x1000 * n + 0x10 * i
abbrev R.sinNode_NSID (n : Nat) (i : Nat) : Nat := 0x38104 + 0x1000 * n + 0x10 * i
abbrev R.sinNode_NSSTAT (n : Nat) (i : Nat) : Nat := 0x38108 + 0x1000 * n + 0x10 * i
abbrev R.sinNode_NSMISS (n : Nat) (i : Nat) : Nat := 0x3810C + 0x1000 * n + 0x10 * i
abbrev R.pcie_PCIE_STAT : Nat := 0x40040
abbrev R.pcie_PCIE_ERR : Nat := 0x40044
abbrev R.router_VEC_STAT (i : Nat) : Nat := 0x41040 + 0x4 * i
abbrev R.router_VEC_ARM (i : Nat) : Nat := 0x41048 + 0x4 * i
abbrev R.router_REMOTE_PEND (i : Nat) : Nat := 0x41050 + 0x4 * i
abbrev R.router_CASC_ROUTE (i : Nat) : Nat := 0x41100 + 0x4 * i
abbrev R.router_ROUTE (i : Nat) : Nat := 0x41400 + 0x4 * i
abbrev R.msix_TBL_ADDR_W0 (i : Nat) : Nat := 0x42800 + 0x10 * i
abbrev R.msix_TBL_ADDR_W1 (i : Nat) : Nat := 0x42804 + 0x10 * i
abbrev R.msix_TBL_DATA (i : Nat) : Nat := 0x42808 + 0x10 * i
abbrev R.msix_TBL_CTL (i : Nat) : Nat := 0x4280C + 0x10 * i
abbrev R.msix_PBA (i : Nat) : Nat := 0x42C00 + 0x4 * i
abbrev R.dma_DMA_STAT : Nat := 0x43040
abbrev R.dma_CH_CFG (i : Nat) : Nat := 0x43100 + 0x40 * i
abbrev R.dma_RING_W0 (i : Nat) : Nat := 0x43108 + 0x40 * i
abbrev R.dma_RING_W1 (i : Nat) : Nat := 0x4310C + 0x40 * i
abbrev R.dma_TAIL (i : Nat) : Nat := 0x43110 + 0x40 * i
abbrev R.dma_HEAD (i : Nat) : Nat := 0x43114 + 0x40 * i
abbrev R.dma_CH_CMD (i : Nat) : Nat := 0x43118 + 0x40 * i
abbrev R.dma_CH_STAT (i : Nat) : Nat := 0x4311C + 0x40 * i
abbrev R.dma_FADDR_W0 (i : Nat) : Nat := 0x43120 + 0x40 * i
abbrev R.dma_FADDR_W1 (i : Nat) : Nat := 0x43124 + 0x40 * i
abbrev R.dma_BYTES (i : Nat) : Nat := 0x43128 + 0x40 * i
abbrev R.dma_CUR (i : Nat) : Nat := 0x4312C + 0x40 * i
abbrev R.xlCommon_TLB_INV : Nat := 0x50040
abbrev R.xlCommon_INV_VPN : Nat := 0x50044
abbrev R.xlCommon_INV_STAT : Nat := 0x50048
abbrev R.xlCommon_DTLB_CNT : Nat := 0x5004C
abbrev R.xlCell_FLT_VA_LO (n : Nat) : Nat := 0x58040 + 0x1000 * n
abbrev R.xlCell_FLT_VA_HI (n : Nat) : Nat := 0x58044 + 0x1000 * n
abbrev R.xlCell_FLT_INFO (n : Nat) : Nat := 0x58048 + 0x1000 * n
abbrev R.xlCell_FLT_OP (n : Nat) : Nat := 0x5804C + 0x1000 * n
abbrev R.xlCell_TLB_CNT (n : Nat) : Nat := 0x58050 + 0x1000 * n
abbrev R.lahar_LOAD_ADDR : Nat := 0x60040
abbrev R.lahar_LOAD_CTL : Nat := 0x60044
abbrev R.lahar_LOAD_STAT : Nat := 0x60048
abbrev R.lahar_GRAPH_STAT : Nat := 0x6004C
abbrev R.lahar_DB_VALUE : Nat := 0x60050
abbrev R.lahar_DOORBELL : Nat := 0x60054
abbrev R.lahar_REFIRE : Nat := 0x60058
abbrev R.lahar_OP_QUERY : Nat := 0x6005C
abbrev R.lahar_OP_STATE : Nat := 0x60060
abbrev R.lahar_ERR_CNT : Nat := 0x60064
abbrev R.lahar_QUAR_STAT : Nat := 0x60068
abbrev R.lahar_FLOW_EN (i : Nat) : Nat := 0x60070 + 0x4 * i
abbrev R.lahar_DL_STAT (i : Nat) : Nat := 0x600B0 + 0x4 * i
abbrev R.lahar_DL_TICK_LO (i : Nat) : Nat := 0x600C0 + 0x8 * i
abbrev R.lahar_DL_TICK_HI (i : Nat) : Nat := 0x600C4 + 0x8 * i
abbrev R.lpSrc_LPCFG (i : Nat) : Nat := 0x70040 + 0x40 * i
abbrev R.lpSrc_STOP_T (i : Nat) : Nat := 0x70044 + 0x40 * i
abbrev R.lpSrc_VM_VEL_LO (i : Nat) : Nat := 0x70048 + 0x40 * i
abbrev R.lpSrc_VM_VEL_HI (i : Nat) : Nat := 0x7004C + 0x40 * i
abbrev R.lpSrc_VM_ACC_LO (i : Nat) : Nat := 0x70050 + 0x40 * i
abbrev R.lpSrc_VM_ACC_HI (i : Nat) : Nat := 0x70054 + 0x40 * i
abbrev R.lpSrc_LPPOS_LO (i : Nat) : Nat := 0x70058 + 0x40 * i
abbrev R.lpSrc_LPPOS_HI (i : Nat) : Nat := 0x7005C + 0x40 * i
abbrev R.lpSrc_LPVEL_LO (i : Nat) : Nat := 0x70060 + 0x40 * i
abbrev R.lpSrc_LPVEL_HI (i : Nat) : Nat := 0x70064 + 0x40 * i
abbrev R.lpSrc_LPACC_LO (i : Nat) : Nat := 0x70068 + 0x40 * i
abbrev R.lpSrc_LPACC_HI (i : Nat) : Nat := 0x7006C + 0x40 * i
abbrev R.lpSrc_LPSTAT (i : Nat) : Nat := 0x70070 + 0x40 * i
abbrev R.cmp_CMPCFG (i : Nat) : Nat := 0x71040 + 0x20 * i
abbrev R.cmp_PW (i : Nat) : Nat := 0x71044 + 0x20 * i
abbrev R.cmp_PUSH_LO (i : Nat) : Nat := 0x71048 + 0x20 * i
abbrev R.cmp_PUSH_HI (i : Nat) : Nat := 0x7104C + 0x20 * i
abbrev R.cmp_CMD (i : Nat) : Nat := 0x71050 + 0x20 * i
abbrev R.cmp_CSTAT (i : Nat) : Nat := 0x71054 + 0x20 * i
abbrev R.cmp_CNT (i : Nat) : Nat := 0x71058 + 0x20 * i
abbrev R.ae_AE_FIRED (n : Nat) (i : Nat) : Nat := 0x72040 + 0x1000 * n + 0x4 * i
abbrev R.ae_X_LO (n : Nat) (i : Nat) : Nat := 0x72100 + 0x1000 * n + 0x10 * i
abbrev R.ae_X_HI (n : Nat) (i : Nat) : Nat := 0x72104 + 0x1000 * n + 0x10 * i
abbrev R.ae_AECFG (n : Nat) (i : Nat) : Nat := 0x72108 + 0x1000 * n + 0x10 * i
abbrev R.ae_AESTAT (n : Nat) (i : Nat) : Nat := 0x7210C + 0x1000 * n + 0x10 * i
abbrev R.qe_QCFG (n : Nat) : Nat := 0x78040 + 0x1000 * n
abbrev R.qe_MOD_M1 (n : Nat) : Nat := 0x78044 + 0x1000 * n
abbrev R.qe_QCMD (n : Nat) : Nat := 0x78048 + 0x1000 * n
abbrev R.qe_QSTAT (n : Nat) : Nat := 0x7804C + 0x1000 * n
abbrev R.qe_POS (n : Nat) : Nat := 0x78050 + 0x1000 * n
abbrev R.qe_ANG (n : Nat) : Nat := 0x78054 + 0x1000 * n
abbrev R.qe_IDX_POS (n : Nat) : Nat := 0x78058 + 0x1000 * n
abbrev R.qe_IDX_ANG (n : Nat) : Nat := 0x7805C + 0x1000 * n
abbrev R.qe_CYC_POS (n : Nat) : Nat := 0x78060 + 0x1000 * n
abbrev R.qe_CYC_ANG (n : Nat) : Nat := 0x78064 + 0x1000 * n
abbrev R.qe_EDGE_T_LO (n : Nat) : Nat := 0x78068 + 0x1000 * n
abbrev R.qe_EDGE_T_HI (n : Nat) : Nat := 0x7806C + 0x1000 * n
abbrev R.qe_ILL_CNT (n : Nat) : Nat := 0x78070 + 0x1000 * n
abbrev R.geyCommon_RING_CFG (i : Nat) : Nat := 0x80040 + 0x10 * i
abbrev R.geyCommon_RING_WM (i : Nat) : Nat := 0x80044 + 0x10 * i
abbrev R.geyCommon_RING_WR (i : Nat) : Nat := 0x80048 + 0x10 * i
abbrev R.geyCommon_RING_RD (i : Nat) : Nat := 0x8004C + 0x10 * i
abbrev R.geyCommon_RING_DROP (i : Nat) : Nat := 0x800C0 + 0x4 * i
abbrev R.geyCommon_BUDGET : Nat := 0x800E0
abbrev R.geyChan_SRC (n : Nat) (i : Nat) : Nat := 0x81100 + 0x1000 * n + 0x20 * i
abbrev R.geyChan_MODE (n : Nat) (i : Nat) : Nat := 0x81104 + 0x1000 * n + 0x20 * i
abbrev R.geyChan_ANCHOR_LO (n : Nat) (i : Nat) : Nat := 0x81108 + 0x1000 * n + 0x20 * i
abbrev R.geyChan_ANCHOR_HI (n : Nat) (i : Nat) : Nat := 0x8110C + 0x1000 * n + 0x20 * i
abbrev R.geyChan_REV_LO (n : Nat) (i : Nat) : Nat := 0x81110 + 0x1000 * n + 0x20 * i
abbrev R.geyChan_REV_HI (n : Nat) (i : Nat) : Nat := 0x81114 + 0x1000 * n + 0x20 * i
abbrev R.geyChan_REVS (n : Nat) (i : Nat) : Nat := 0x81118 + 0x1000 * n + 0x20 * i
abbrev R.geyChan_CHSTAT (n : Nat) (i : Nat) : Nat := 0x8111C + 0x1000 * n + 0x20 * i
abbrev R.geyTrig_TCFG (i : Nat) : Nat := 0x85100 + 0x40 * i
abbrev R.geyTrig_LEVEL (i : Nat) : Nat := 0x85104 + 0x40 * i
abbrev R.geyTrig_HYST (i : Nat) : Nat := 0x85108 + 0x40 * i
abbrev R.geyTrig_PREPOST (i : Nat) : Nat := 0x8510C + 0x40 * i
abbrev R.geyTrig_SNAP (i : Nat) : Nat := 0x85110 + 0x40 * i
abbrev R.geyTrig_TMO (i : Nat) : Nat := 0x85114 + 0x40 * i
abbrev R.geyTrig_TCMD (i : Nat) : Nat := 0x85118 + 0x40 * i
abbrev R.geyTrig_TSTAT (i : Nat) : Nat := 0x8511C + 0x40 * i
abbrev R.geyTrig_TRIG_T_LO (i : Nat) : Nat := 0x85120 + 0x40 * i
abbrev R.geyTrig_TRIG_T_HI (i : Nat) : Nat := 0x85124 + 0x40 * i
abbrev R.geyTrig_TRIG_IDX (i : Nat) : Nat := 0x85128 + 0x40 * i
abbrev R.geyTrig_CAPT (i : Nat) : Nat := 0x8512C + 0x40 * i
abbrev R.crater_CYCLE : Nat := 0x90040
abbrev R.crater_ROUTE : Nat := 0x90044
abbrev R.crater_BR_STAT : Nat := 0x90048
abbrev R.crater_MISS_TOT : Nat := 0x9004C
abbrev R.branch_BRCFG (n : Nat) : Nat := 0xA0040 + 0x1000 * n
abbrev R.branch_SLOTCFG (n : Nat) : Nat := 0xA0044 + 0x1000 * n
abbrev R.branch_FIRST (n : Nat) : Nat := 0xA0048 + 0x1000 * n
abbrev R.branch_FIELDCFG (n : Nat) : Nat := 0xA004C + 0x1000 * n
abbrev R.branch_DYNCFG (n : Nat) : Nat := 0xA0050 + 0x1000 * n
abbrev R.branch_NIT (n : Nat) : Nat := 0xA0054 + 0x1000 * n
abbrev R.branch_BRBUF (n : Nat) : Nat := 0xA0058 + 0x1000 * n
abbrev R.branch_MSGBUF (n : Nat) : Nat := 0xA005C + 0x1000 * n
abbrev R.branch_DQ_PUSH (n : Nat) : Nat := 0xA0060 + 0x1000 * n
abbrev R.branch_DQ_LEN (n : Nat) : Nat := 0xA0064 + 0x1000 * n
abbrev R.branch_DQ_STAT (n : Nat) : Nat := 0xA0068 + 0x1000 * n
abbrev R.branch_UQ_STAT (n : Nat) : Nat := 0xA006C + 0x1000 * n
abbrev R.branch_UQ_HEAD (n : Nat) : Nat := 0xA0070 + 0x1000 * n
abbrev R.branch_UQ_POP (n : Nat) : Nat := 0xA0074 + 0x1000 * n
abbrev R.branch_CNT_ERR (n : Nat) : Nat := 0xA0078 + 0x1000 * n
abbrev R.branch_CNT_WIN (n : Nat) : Nat := 0xA007C + 0x1000 * n
abbrev R.branch_REL (n : Nat) (i : Nat) : Nat := 0xA0080 + 0x1000 * n + 0x4 * i
abbrev R.branch_SLOT_CFG (n : Nat) (i : Nat) : Nat := 0xA0100 + 0x1000 * n + 0x8 * i
abbrev R.branch_SLOT_STAT (n : Nat) (i : Nat) : Nat := 0xA0104 + 0x1000 * n + 0x8 * i
abbrev R.nodeTable_NTCFG (n : Nat) : Nat := 0xB0040 + 0x1000 * n
abbrev R.nodeTable_NPCACHE (n : Nat) : Nat := 0xB0044 + 0x1000 * n
abbrev R.nodeTable_NTCMD (n : Nat) : Nat := 0xB0048 + 0x1000 * n
abbrev R.nodeTable_BSTATE (n : Nat) : Nat := 0xB004C + 0x1000 * n
abbrev R.nodeTable_ADMSTAT (n : Nat) : Nat := 0xB0050 + 0x1000 * n
abbrev R.nodeTable_DTOTAL (n : Nat) : Nat := 0xB0054 + 0x1000 * n
abbrev R.nodeTable_CNT (n : Nat) : Nat := 0xB0058 + 0x1000 * n
abbrev R.nodeTable_EXP_VENDOR (n : Nat) (i : Nat) : Nat := 0xB0100 + 0x1000 * n + 0x10 * i
abbrev R.nodeTable_EXP_TYPE (n : Nat) (i : Nat) : Nat := 0xB0104 + 0x1000 * n + 0x10 * i
abbrev R.nodeTable_EXP_SERIAL_LO (n : Nat) (i : Nat) : Nat := 0xB0108 + 0x1000 * n + 0x10 * i
abbrev R.nodeTable_EXP_CTL (n : Nat) (i : Nat) : Nat := 0xB010C + 0x1000 * n + 0x10 * i
abbrev R.nodeTable_NODE_STATE (n : Nat) (i : Nat) : Nat := 0xB0300 + 0x1000 * n + 0x10 * i
abbrev R.nodeTable_NODE_DELAY (n : Nat) (i : Nat) : Nat := 0xB0304 + 0x1000 * n + 0x10 * i
abbrev R.nodeTable_NODE_DELAY_FAR (n : Nat) (i : Nat) : Nat := 0xB0308 + 0x1000 * n + 0x10 * i
abbrev R.nodeTable_NODE_FD (n : Nat) (i : Nat) : Nat := 0xB030C + 0x1000 * n + 0x10 * i
abbrev R.pair_PCFG : Nat := 0xC0040
abbrev R.pair_PCMD : Nat := 0xC0044
abbrev R.pair_PSTAT : Nat := 0xC0048
abbrev R.pair_PEER_SERIAL_LO : Nat := 0xC004C
abbrev R.pair_PEER_SERIAL_HI : Nat := 0xC0050
abbrev R.pair_CMPSTAT : Nat := 0xC0054
abbrev R.pair_DIV_CNT : Nat := 0xC0058
abbrev R.pair_PXLOAD : Nat := 0xC005C
abbrev R.pair_RESYNC_STAT : Nat := 0xC0060
abbrev R.pair_RMAP (i : Nat) : Nat := 0xC0080 + 0x4 * i
abbrev R.pair_FARFIT (i : Nat) : Nat := 0xC00A0 + 0x4 * i
abbrev R.lvCommon_LVCFG : Nat := 0xC1040
abbrev R.lvCommon_LVSTAT : Nat := 0xC1044
abbrev R.lvCommon_ROOT_SERIAL_LO : Nat := 0xC1048
abbrev R.lvCommon_ROOT_SERIAL_HI : Nat := 0xC104C
abbrev R.lvCommon_PRESENT (i : Nat) : Nat := 0xC1050 + 0x4 * i
abbrev R.lvCommon_LVERR : Nat := 0xC1058
abbrev R.lvPort_LSTAT (n : Nat) : Nat := 0xC2040 + 0x1000 * n
abbrev R.lvPort_LDELAY (n : Nat) : Nat := 0xC2044 + 0x1000 * n
abbrev R.lvPort_LCNT (n : Nat) : Nat := 0xC2048 + 0x1000 * n
abbrev R.can_CCFG (n : Nat) : Nat := 0xD0040 + 0x1000 * n
abbrev R.can_NBT (n : Nat) : Nat := 0xD0044 + 0x1000 * n
abbrev R.can_DBT (n : Nat) : Nat := 0xD0048 + 0x1000 * n
abbrev R.can_MBBASE (n : Nat) : Nat := 0xD004C + 0x1000 * n
abbrev R.can_CMD (n : Nat) : Nat := 0xD0050 + 0x1000 * n
abbrev R.can_ECNT (n : Nat) : Nat := 0xD0054 + 0x1000 * n
abbrev R.can_TXREQ (n : Nat) (i : Nat) : Nat := 0xD0058 + 0x1000 * n + 0x4 * i
abbrev R.can_TXCAN (n : Nat) (i : Nat) : Nat := 0xD0060 + 0x1000 * n + 0x4 * i
abbrev R.can_TXDONE (n : Nat) (i : Nat) : Nat := 0xD0068 + 0x1000 * n + 0x4 * i
abbrev R.can_TXFAIL (n : Nat) (i : Nat) : Nat := 0xD0070 + 0x1000 * n + 0x4 * i
abbrev R.can_RXFULL (n : Nat) (i : Nat) : Nat := 0xD0078 + 0x1000 * n + 0x4 * i
abbrev R.can_CNT (n : Nat) : Nat := 0xD0080 + 0x1000 * n
abbrev R.can_TXSTAT (n : Nat) : Nat := 0xD0084 + 0x1000 * n
abbrev R.can_MB_ID (n : Nat) (i : Nat) : Nat := 0xD0100 + 0x1000 * n + 0x8 * i
abbrev R.can_MB_MASK (n : Nat) (i : Nat) : Nat := 0xD0104 + 0x1000 * n + 0x8 * i
abbrev R.eth_ECFG (n : Nat) : Nat := 0xE0040 + 0x1000 * n
abbrev R.eth_MAC_LO (n : Nat) : Nat := 0xE0044 + 0x1000 * n
abbrev R.eth_MAC_HI (n : Nat) : Nat := 0xE0048 + 0x1000 * n
abbrev R.eth_IPV4 (n : Nat) : Nat := 0xE004C + 0x1000 * n
abbrev R.eth_RXRING (n : Nat) : Nat := 0xE0050 + 0x1000 * n
abbrev R.eth_TXRING (n : Nat) : Nat := 0xE0054 + 0x1000 * n
abbrev R.eth_RX_WR (n : Nat) : Nat := 0xE0058 + 0x1000 * n
abbrev R.eth_RX_RD (n : Nat) : Nat := 0xE005C + 0x1000 * n
abbrev R.eth_TX_WR (n : Nat) : Nat := 0xE0060 + 0x1000 * n
abbrev R.eth_TX_RD (n : Nat) : Nat := 0xE0064 + 0x1000 * n
abbrev R.eth_MBX_CFG (n : Nat) : Nat := 0xE0068 + 0x1000 * n
abbrev R.eth_MBX_BASE (n : Nat) : Nat := 0xE006C + 0x1000 * n
abbrev R.eth_MBX_RX (n : Nat) : Nat := 0xE0070 + 0x1000 * n
abbrev R.eth_MBX_TX (n : Nat) : Nat := 0xE0074 + 0x1000 * n
abbrev R.eth_LSTAT (n : Nat) : Nat := 0xE0078 + 0x1000 * n
abbrev R.eth_CNT (n : Nat) : Nat := 0xE007C + 0x1000 * n
abbrev R.eth_MDIO_CMD (n : Nat) : Nat := 0xE0080 + 0x1000 * n
abbrev R.eth_MDIO_STAT (n : Nat) : Nat := 0xE0084 + 0x1000 * n
abbrev R.perfCommon_PCTL : Nat := 0xF0040
abbrev R.perfCommon_WIN0_BASE : Nat := 0xF0048
abbrev R.perfCommon_WIN0_LIMIT : Nat := 0xF004C
abbrev R.perfCommon_WIN1_BASE : Nat := 0xF0050
abbrev R.perfCommon_WIN1_LIMIT : Nat := 0xF0054
abbrev R.perfCell_BW_CFG (n : Nat) : Nat := 0xF8040 + 0x1000 * n
abbrev R.perfCell_BWF (n : Nat) (i : Nat) : Nat := 0xF8080 + 0x1000 * n + 0x10 * i
abbrev R.perfCell_BW_CUR (n : Nat) (i : Nat) : Nat := 0xF8084 + 0x1000 * n + 0x10 * i
abbrev R.perfCell_BW_LAST (n : Nat) (i : Nat) : Nat := 0xF8088 + 0x1000 * n + 0x10 * i
abbrev R.perfCell_BW_PEAK (n : Nat) (i : Nat) : Nat := 0xF808C + 0x1000 * n + 0x10 * i
abbrev R.perfCell_ECYC_W0 (n : Nat) (i : Nat) : Nat := 0xF8100 + 0x1000 * n + 0x100 * i
abbrev R.perfCell_ECYC_W1 (n : Nat) (i : Nat) : Nat := 0xF8104 + 0x1000 * n + 0x100 * i
abbrev R.perfCell_OVF (n : Nat) (i : Nat) : Nat := 0xF8108 + 0x1000 * n + 0x100 * i
abbrev R.perfCell_PSEL (n : Nat) (l : Nat) (i : Nat) : Nat := 0xF8110 + 0x1000 * n + 0x100 * l + 0x10 * i
abbrev R.perfCell_PCNT_LO (n : Nat) (l : Nat) (i : Nat) : Nat := 0xF8114 + 0x1000 * n + 0x100 * l + 0x10 * i
abbrev R.perfCell_PCNT_HI (n : Nat) (l : Nat) (i : Nat) : Nat := 0xF8118 + 0x1000 * n + 0x100 * l + 0x10 * i
abbrev R.cell_LMAP (n : Nat) : Nat := 0x100040 + 0x10000 * n
abbrev R.cell_CTL_INIT (n : Nat) : Nat := 0x100044 + 0x10000 * n
abbrev R.cell_SPILL_BASE (n : Nat) : Nat := 0x100048 + 0x10000 * n
abbrev R.cell_ENG_IN_SERVICE (n : Nat) : Nat := 0x10004C + 0x10000 * n
abbrev R.cell_CFG (n : Nat) : Nat := 0x100080 + 0x10000 * n
abbrev R.cell_REMAP (n : Nat) : Nat := 0x100084 + 0x10000 * n
abbrev R.cell_COPY_STAT (n : Nat) : Nat := 0x100088 + 0x10000 * n
abbrev R.cell_READY (n : Nat) : Nat := 0x10008C + 0x10000 * n
abbrev R.cell_ABORT_CNT (n : Nat) : Nat := 0x100090 + 0x10000 * n
abbrev R.engine_STATE (e : Nat) : Nat := enginePage e * 0x1000 + 0x40
abbrev R.engine_OP_CUR (e : Nat) : Nat := enginePage e * 0x1000 + 0x44
abbrev R.engine_PC_CUR (e : Nat) : Nat := enginePage e * 0x1000 + 0x48
abbrev R.engine_TRAP_STAT (e : Nat) : Nat := enginePage e * 0x1000 + 0x4C
abbrev R.engine_TRAP_PC (e : Nat) : Nat := enginePage e * 0x1000 + 0x50
abbrev R.engine_TRAP_OP (e : Nat) : Nat := enginePage e * 0x1000 + 0x54
abbrev R.engine_TRAP_ADDR_LO (e : Nat) : Nat := enginePage e * 0x1000 + 0x58
abbrev R.engine_TRAP_ADDR_HI (e : Nat) : Nat := enginePage e * 0x1000 + 0x5C
abbrev R.engine_ECC_STAT (e : Nat) : Nat := enginePage e * 0x1000 + 0x60
abbrev R.axis_CFG (n : Nat) : Nat := 0x200040 + 0x1000 * n
abbrev R.axis_COEF (n : Nat) : Nat := 0x200044 + 0x1000 * n
abbrev R.axis_BLOCK (n : Nat) : Nat := 0x200048 + 0x1000 * n
abbrev R.axis_STATE (n : Nat) : Nat := 0x20004C + 0x1000 * n
abbrev R.axis_TAG_LAST_LO (n : Nat) : Nat := 0x200050 + 0x1000 * n
abbrev R.axis_TAG_LAST_HI (n : Nat) : Nat := 0x200054 + 0x1000 * n
abbrev R.axis_POS_FB_LO (n : Nat) : Nat := 0x200058 + 0x1000 * n
abbrev R.axis_POS_FB_HI (n : Nat) : Nat := 0x20005C + 0x1000 * n
abbrev R.axis_POS_REF_LO (n : Nat) : Nat := 0x200060 + 0x1000 * n
abbrev R.axis_POS_REF_HI (n : Nat) : Nat := 0x200064 + 0x1000 * n
abbrev R.axis_PMODE (n : Nat) : Nat := 0x200100 + 0x1000 * n
abbrev R.axis_PCMD (n : Nat) : Nat := 0x200104 + 0x1000 * n
abbrev R.axis_JOG_VEL_LO (n : Nat) : Nat := 0x200108 + 0x1000 * n
abbrev R.axis_JOG_VEL_HI (n : Nat) : Nat := 0x20010C + 0x1000 * n
abbrev R.axis_GEAR_AT_LO (n : Nat) : Nat := 0x200110 + 0x1000 * n
abbrev R.axis_GEAR_AT_HI (n : Nat) : Nat := 0x200114 + 0x1000 * n
abbrev R.axis_GEAR_NUM (n : Nat) : Nat := 0x200118 + 0x1000 * n
abbrev R.axis_GEAR_DEN (n : Nat) : Nat := 0x20011C + 0x1000 * n
abbrev R.axis_GEAR_CFG (n : Nat) : Nat := 0x200120 + 0x1000 * n
abbrev R.axis_GEAR_BLEND (n : Nat) : Nat := 0x200124 + 0x1000 * n
abbrev R.axis_ENG_BLEND (n : Nat) : Nat := 0x200128 + 0x1000 * n
abbrev R.axis_STILL_WIN (n : Nat) : Nat := 0x20012C + 0x1000 * n
abbrev R.axis_PBLOCK (n : Nat) : Nat := 0x200130 + 0x1000 * n
abbrev R.axis_RING_LEN (n : Nat) : Nat := 0x200134 + 0x1000 * n
abbrev R.axis_RING_PUT (n : Nat) : Nat := 0x200138 + 0x1000 * n
abbrev R.axis_RING_STAT (n : Nat) : Nat := 0x20013C + 0x1000 * n
abbrev R.axis_RING_CREDIT (n : Nat) : Nat := 0x200140 + 0x1000 * n
abbrev R.axis_PSTAT (n : Nat) : Nat := 0x200144 + 0x1000 * n
abbrev R.axis_PTAG (n : Nat) : Nat := 0x200148 + 0x1000 * n
abbrev R.axis_HOME_POS_LO (n : Nat) : Nat := 0x200150 + 0x1000 * n
abbrev R.axis_HOME_POS_HI (n : Nat) : Nat := 0x200154 + 0x1000 * n
abbrev R.axis_PVEL_LO (n : Nat) : Nat := 0x200158 + 0x1000 * n
abbrev R.axis_PVEL_HI (n : Nat) : Nat := 0x20015C + 0x1000 * n
abbrev R.sinClass_FDCFG (c : Nat) : Nat := 0x31040 + 4 * c
abbrev R.sinClass_RESP (k : Nat) : Nat := 0x31080 + 4 * k

/-! Header registers of a page number. -/

abbrev R.CTRL (p : Nat) : Nat := p * 0x1000 + 0x8
abbrev R.STATUS (p : Nat) : Nat := p * 0x1000 + 0xC
abbrev R.IRQ_STAT (p : Nat) : Nat := p * 0x1000 + 0x10
abbrev R.IRQ_EN (p : Nat) : Nat := p * 0x1000 + 0x14
abbrev R.COMMIT (p : Nat) : Nat := p * 0x1000 + 0x1C
abbrev R.COMMIT_STAT (p : Nat) : Nat := p * 0x1000 + 0x20
abbrev R.LOCK (p : Nat) : Nat := p * 0x1000 + 0x28

/-! Page numbers, by kind and instance. -/

abbrev P.chip : Nat := 0x0
abbrev P.reset : Nat := 0x10
abbrev P.fuse : Nat := 0x11
abbrev P.invarCore : Nat := 0x20
abbrev P.invarPtp : Nat := 0x21
abbrev P.invarEv : Nat := 0x22
abbrev P.sinCore : Nat := 0x30
abbrev P.sinClass : Nat := 0x31
abbrev P.sinAxis (n : Nat) : Nat := 0x32 + n
abbrev P.sinNode (n : Nat) : Nat := 0x38 + n
abbrev P.pcie : Nat := 0x40
abbrev P.router : Nat := 0x41
abbrev P.msix : Nat := 0x42
abbrev P.dma : Nat := 0x43
abbrev P.xlCommon : Nat := 0x50
abbrev P.xlCell (n : Nat) : Nat := 0x58 + n
abbrev P.lahar : Nat := 0x60
abbrev P.lpSrc : Nat := 0x70
abbrev P.cmp : Nat := 0x71
abbrev P.ae (n : Nat) : Nat := 0x72 + n
abbrev P.qe (n : Nat) : Nat := 0x78 + n
abbrev P.geyCommon : Nat := 0x80
abbrev P.geyChan (n : Nat) : Nat := 0x81 + n
abbrev P.geyTrig : Nat := 0x85
abbrev P.crater : Nat := 0x90
abbrev P.branch (n : Nat) : Nat := 0xA0 + n
abbrev P.nodeTable (n : Nat) : Nat := 0xB0 + n
abbrev P.pair : Nat := 0xC0
abbrev P.lvCommon : Nat := 0xC1
abbrev P.lvPort (n : Nat) : Nat := 0xC2 + n
abbrev P.can (n : Nat) : Nat := 0xD0 + n
abbrev P.eth (n : Nat) : Nat := 0xE0 + n
abbrev P.perfCommon : Nat := 0xF0
abbrev P.perfCell (n : Nat) : Nat := 0xF8 + n
abbrev P.axis (n : Nat) : Nat := 0x200 + n

end Sys2Proof.Machine
end

