-- ==== Sys2Proof/Machine/State.lean ====
section
/-! DEFINITION. The state of the block as plain data, the reasons a step can stop, and State.reset. A table (Tab) lists what differs from its reset
value, so most of the machine after reset is empty tables. -/

namespace Sys2Proof.Machine

/-- Why a step stops with a fault. -/
inductive Fault where
  /-- Raised by RESET_RELEASE when the clock-mode straps latched are 0b00, test bypass: the behaviour of the device in that mode is not stated (R518). Safe. -/
  | testBypass
  deriving DecidableEq, Repr

/-- Why a step is refused. -/
inductive Refusal where
  /-- Raised by exec for a command whose meaning is not modelled. Safe. -/
  | notModelled (mnemonic : String)
  deriving DecidableEq, Repr

/-- How a Delay_Req leaves (Table 12.3, R411): its Ethernet port, its transport, the port's MAC and IPv4 addresses, and its domain. Its destination is that of the
transport. -/
structure DelayReq where
  eth : Nat
  udp : Bool
  mac : W48
  ip : W32
  domain : Nat
  deriving DecidableEq, Repr

/-- What leaves the device or is answered to a master, in the order it happens. -/
inductive Emit where
  /-- The data a read returns to its master. -/
  | readData (m : Master) (addr : Nat) (v : W64)
  /-- A host or cascade read that completes with Unsupported Request status. -/
  | unsupported (m : Master) (addr : Nat)
  /-- An error response to an engine or DMA access (R40). -/
  | errorResponse (m : Master) (addr : Nat)
  /-- An MSI-X message for a vector, to its table address with its data (R534, R535). -/
  | msix (vec : Nat) (addr : W64) (data : W32)
  /-- A cascade interrupt sent to the root (R536). -/
  | cascadeIrq (dev vec : Nat)
  /-- A sync on a branch: the bytes after its K symbol (Table 9.5). -/
  | sync (b : Nat) (bytes : List Byte)
  /-- The summation header with its grant list and CRC (Table 9.6). -/
  | header (b : Nat) (bytes : List Byte)
  /-- A command field released on a branch (Table 9.7). -/
  | field (b sl : Nat) (bytes : List Byte)
  /-- The trailer CRC of a summation frame (Table 9.3). -/
  | trailer (b : Nat) (bytes : List Byte)
  /-- A downlink fragment: header, payload and its CRC (Table 9.15). -/
  | fragment (b : Nat) (bytes : List Byte)
  /-- An accepted slot frame's data words and sub-frame sent to the partner (Table 13.4, R446). -/
  | pxSlot (b sl : Nat) (words : List W48) (sub : BitVec 128)
  /-- SIN demands and Sinter's state sent to the partner over PX (R491, R493). -/
  | pxSafety (dem0 dem1 : Bool) (state : Nat)
  /-- The level an STO output is driven to: 0 STO_HS, 1 STO_LS (R482). -/
  | stoOut (which : Nat) (high : Bool)
  /-- The level NRST_OUT is driven to (R516). -/
  | nrstOut (high : Bool)
  /-- The agreement record of a cycle, sent to the standby (R431). -/
  | agreed (r : AgreementRec)
  /-- A write of len bytes carried over PX to the standby (R432). -/
  | mirrored (addr len : Nat) (val : W64)
  /-- A compare output is driven to its active or its idle level (R279, R282). -/
  | cmpOut (c : Nat) (active : Bool)
  /-- The level PPS_OUT is driven to (R414). -/
  | ppsOut (high : Bool)
  /-- A Delay_Req leaves ETHPORT with this sequence number (R410). -/
  | delayReq (seq : Nat) (by' : DelayReq)
  /-- The state of a line-position source broadcast on the cascade (R263, R456). -/
  | lpBroadcast (l : Nat) (st : LpState)
  /-- Bytes written to host memory at a bus address. -/
  | hostWrite (addr : W64) (bytes : List Byte)
  /-- A read of host memory asked for. -/
  | hostRead (addr : W64) (len : Nat)
  /-- A CAN frame sent without error: the controller, the words of its identifier and length fields, and its data. -/
  | canFrame (n : Nat) (id ctl : W32) (data : List Byte)
  /-- An Ethernet frame sent, FCS excluded. -/
  | ethFrame (n : Nat) (bytes : List Byte)
  /-- A part of a request sent on the cascade: the device, its address, whether a write, its length and its data. -/
  | cascade (slot off : Nat) (write : Bool) (len : Nat) (data : List Byte)
  /-- The bytes a host read of a memory range or of the cascade window returns. -/
  | readBytes (m : Master) (addr : Nat) (bytes : List Byte)
  /-- Idle sent on a branch for 8 µs (R442, R445). -/
  | idle (b : Nat)
  /-- A standby's STALE masks, or its digest, field count and sub-frame CRC (R438, R493). -/
  | staleMask (masks : List (BitVec 24))
  | digest (d : W64) (count : Nat) (safety : W32)
  /-- What the active sends in the final round of a resynchronisation besides addressed data (R449, R492). -/
  | resync (x : ResyncLast)
  deriving DecidableEq, Repr

/-- The whole machine. Registers are held in regs (the active or stored values) and stage (the staged copies of ST fields), by device offset; a
register not listed holds its reset value (resetOf). -/
structure State where
  /-- The commands waiting, first in, first out. -/
  pending : List Instr := []
  /-- The latest instant a command has reached the block. -/
  now : Time := 0
  /-- The model's own: how many free values have been used (notes/assumptions/3.md). -/
  freeCtr : Nat := 0
  regs : Tab W32 := []
  stage : Tab W32 := []
  /-- For a register with W1C bits: the engine cycle in which hardware last set bits, and which (R12). -/
  hwSet : Tab (Nat × W32) := []
  pages : Tab PageSt := []
  /-- Read shadows (R45): by master code and page, the registers captured and their values. -/
  shadows : Tab (List (Nat × W32)) := []
  /-- Every on-chip memory of Table 1.2 at its device offset; an unlisted byte is 0 (R505). -/
  mem : List Host.Cell := []
  ecc : Tab Ecc := []
  /-- Fault disposition channels, by class × 0x1000 + channel. -/
  fd : Tab FdCh := []
  out : List Emit := []
  rst : RstSt := {}
  pcie : PcieSt := {}
  pair : PairSt := {}
  sin : SinSt := {}
  br : Tab BranchSt := []
  inv : InvSt := {}
  lahar : LaharSt := {}
  engs : Tab Eng := []
  xl : XlSt := {}
  perf : PerfSt := {}
  lp : LpSt := {}
  ax : Tab AxSt := []
  gey : GeySt := {}
  dma : Tab DmaCh := []
  can : Tab CanSt := []
  eth : Tab EthSt := []
  lv : LvSt := {}
  /-- The MDIO transaction and the two-wire command in progress, as written to MDIO_CMD and TWI_CMD. -/
  mdio : Option W32 := none
  twi : Option W32 := none
  /-- Masters of the cycles that fired operations may still ask for, newest first. -/
  masters : List Masters := []
  /-- The instant of the latest cycle start, and whether cycle boundaries occur (R53). -/
  tau : Time := 0
  /-- Device time of the latest cycle start, and of the next (R398), in units of 2^-16 ns. -/
  tauDev : Nat := 0
  target : Nat := 0
  cycling : Bool := false
  /-- The next cycle boundary is the first (R517). -/
  firstCycle : Bool := true
  deriving DecidableEq, Repr

/-- The machine right after the release of CHIP reach (notes/assumptions/6.md). -/
def State.reset : State := {}

end Sys2Proof.Machine
end

