-- ==== Sys2Proof/Machine/Tab.lean ====
section
/-! DEFINITION. Tables: sparse maps from numbers in one canonical form. The keys rise strictly and no entry equals the table's default, so that equal
tables are equal lists. Registers, memory bytes and every numbered resource are kept in tables. -/

namespace Sys2Proof.Machine

/-- The value at k, or d where k is not listed. -/
def Tab.get {α : Type} (t : Tab α) (k : Nat) (d : α) : α :=
  match t with
  | [] => d
  | (k', v) :: r => if k' = k then v else Tab.get r k d

/-- Put v at k, keeping the keys in order. -/
def Tab.ins {α : Type} (t : Tab α) (k : Nat) (v : α) : Tab α :=
  match t with
  | [] => [(k, v)]
  | (k', v') :: r => if k' = k then (k, v) :: r else if k < k' then (k, v) :: (k', v') :: r else (k', v') :: Tab.ins r k v

/-- Remove k. -/
def Tab.del {α : Type} (t : Tab α) (k : Nat) : Tab α :=
  match t with
  | [] => []
  | (k', v) :: r => if k' = k then Tab.del r k else (k', v) :: Tab.del r k

/-- Write v at k in a table whose unlisted keys read d. -/
def Tab.set {α : Type} [DecidableEq α] (t : Tab α) (k : Nat) (v d : α) : Tab α :=
  if v = d then Tab.del t k else Tab.ins t k v

/-- Remove the keys from lo up to but not including hi. -/
def Tab.clear {α : Type} (t : Tab α) (lo hi : Nat) : Tab α :=
  match t with
  | [] => []
  | (k, v) :: r => if lo ≤ k ∧ k < hi then Tab.clear r lo hi else (k, v) :: Tab.clear r lo hi

/-- The keys rise strictly, all above lo. -/
def Tab.sortedFrom {α : Type} (lo : Nat) (t : Tab α) : Bool :=
  match t with
  | [] => true
  | (k, _) :: r => lo ≤ k && Tab.sortedFrom (k + 1) r

/-- The canonical form for a table whose unlisted key k reads d k. -/
def Tab.wf {α : Type} [DecidableEq α] (d : Nat → α) (t : Tab α) : Bool :=
  Tab.sortedFrom 0 t && t.all (fun e => e.2 ≠ d e.1)

end Sys2Proof.Machine
end

