-- ==== Sys2Proof/Machine/Ops.lean ====
section
/-! DEFINITION. The named operations over registers, memory, interrupts and failed accesses, which every meaning is written with. -/

namespace Sys2Proof.Machine

/-! ## Bits -/

/-- The field [hi:lo] of a word as a number. -/
def fld {n : Nat} (w : BitVec n) (hi lo : Nat) : Nat := w.toNat / 2 ^ lo % 2 ^ (hi + 1 - lo)

/-- Bit i of a word. -/
def bit {n : Nat} (w : BitVec n) (i : Nat) : Bool := w.getLsbD i

/-- A word with its field [hi:lo] replaced by x, which wraps to the field. -/
def setFld {n : Nat} (w : BitVec n) (hi lo x : Nat) : BitVec n :=
  BitVec.ofNat n (w.toNat - fld w hi lo * 2 ^ lo + x % 2 ^ (hi + 1 - lo) * 2 ^ lo)

/-- 1 for true. -/
def b2n (b : Bool) : Nat := if b then 1 else 0

/-- The field [hi:lo] as a signed number. -/
def sfld {n : Nat} (w : BitVec n) (hi lo : Nat) : Int :=
  let x := fld w hi lo
  if x < 2 ^ (hi - lo) then x else (x : Int) - 2 ^ (hi + 1 - lo)

/-- A 48-bit word from an integer, wrapping. -/
def w48 (x : Int) : W48 := BitVec.ofInt 48 x

/-- The greatest and least 48-bit numbers (R78 and others saturate to them). -/
def max48 : Int := 2 ^ 47 - 1
def min48 : Int := -(2 ^ 47)

/-- An integer saturated to 48 bits. -/
def sat48 (x : Int) : W48 := w48 (if x > max48 then max48 else if x < min48 then min48 else x)

/-- An integer clamped to a range. -/
def clampI (x lo hi : Int) : Int := if x < lo then lo else if x > hi then hi else x

/-- The sign of an integer, 0 for 0. -/
def sgn (x : Int) : Int := if x > 0 then 1 else if x < 0 then -1 else 0

/-- Integer quotient rounded to nearest, ties to even. The divisor is positive. -/
def rndDiv (x : Int) (d : Nat) : Int :=
  let q := x / d
  let r := (x % d).toNat
  if 2 * r < d then q else if 2 * r > d then q + 1 else if q % 2 = 0 then q else q + 1

/-- Engine cycles of 1/750 MHz (R29): the number of the engine cycle an instant lies in. -/
def ecyc (t : Time) : Nat := t / 16

/-- Nanoseconds as an amount of time. -/
def nsT (n : Nat) : Time := 12 * n

/-! ## Time and what leaves the device -/

/-- A command reaches the block at t. Time never runs back (notes/assumptions/1.md). -/
def State.tick (s : State) (t : Time) : State := { s with now := if s.now ≤ t then t else s.now }

/-- Record something leaving the device. -/
def State.emit (s : State) (e : Emit) : State := { s with out := e :: s.out }

/-- Take the next free value number. -/
def State.useFree (s : State) : State := { s with freeCtr := s.freeCtr + 1 }

/-! ## Registers -/

/-- The active or stored value of a register. -/
def State.rd (s : State) (a : Nat) : W32 := Tab.get s.regs a (resetOf a)

/-- Set the active or stored value of a register. -/
def State.wr (s : State) (a : Nat) (v : W32) : State := { s with regs := Tab.set s.regs a v (resetOf a) }

/-- The staged value of a register. -/
def State.rdStage (s : State) (a : Nat) : W32 := Tab.get s.stage a (resetOf a)

/-- Set the staged value of a register. -/
def State.wrStage (s : State) (a : Nat) (v : W32) : State := { s with stage := Tab.set s.stage a v (resetOf a) }

/-- Field [hi:lo] of a register. -/
def State.f (s : State) (a hi lo : Nat) : Nat := fld (s.rd a) hi lo

/-- Bit i of a register. -/
def State.b (s : State) (a i : Nat) : Bool := bit (s.rd a) i

/-- Set field [hi:lo] of a register. -/
def State.setF (s : State) (a hi lo x : Nat) : State := s.wr a (setFld (s.rd a) hi lo x)

/-- Set bit i of a register. -/
def State.setB (s : State) (a i : Nat) (v : Bool) : State := s.setF a i i (b2n v)

/-- The 48-bit quantity whose LO register is a (R44). -/
def State.rd48 (s : State) (a : Nat) : W48 := BitVec.ofNat 48 ((s.rd a).toNat + (s.rd (a + 4)).toNat % 65536 * 2 ^ 32)

/-- Set the 48-bit quantity whose LO register is a. -/
def State.wr48 (s : State) (a : Nat) (v : W48) : State :=
  (s.wr a (BitVec.ofNat 32 v.toNat)).wr (a + 4) (BitVec.ofNat 32 (v.toNat / 2 ^ 32))

/-- Advance a count held in field [hi:lo] by n, saturating. -/
def State.inc (s : State) (a hi lo : Nat) (n : Nat := 1) : State :=
  s.setF a hi lo (min (s.f a hi lo + n) (2 ^ (hi + 1 - lo) - 1))

/-- Advance a modulo count held in field [hi:lo] by n. -/
def State.incMod (s : State) (a hi lo : Nat) (n : Nat := 1) : State := s.setF a hi lo (s.f a hi lo + n)

/-- Hardware sets bits of a register with W1C bits, and the engine cycle is noted for R12. -/
def State.hwSetBits (s : State) (a : Nat) (bits : W32) : State :=
  let old := Tab.get s.hwSet a (0, 0)
  let c := ecyc s.now
  { s.wr a (s.rd a ||| bits) with
    hwSet := Tab.set s.hwSet a (if old.1 = c then (c, old.2 ||| bits) else (c, bits)) (0, 0) }

/-- What hardware has set, or counted, in a register in the present engine cycle (R12). -/
def State.hwNoted (s : State) (a : Nat) : W32 :=
  let old := Tab.get s.hwSet a (0, 0)
  if old.1 = ecyc s.now then old.2 else 0

/-- Hardware advances a count that a write clears, and notes the event for R12. -/
def State.hwCount (s : State) (a hi lo : Nat) : State :=
  let w := s.hwNoted a
  { s.inc a hi lo with hwSet := Tab.set s.hwSet a (ecyc s.now, setFld w hi lo (fld w hi lo + 1)) (0, 0) }

/-- Bits of a W1C write that clear: those not set by hardware in the engine cycle of the write (R12). -/
def State.w1cBits (s : State) (a : Nat) (bits : W32) : W32 :=
  let old := Tab.get s.hwSet a (0, 0)
  if old.1 = ecyc s.now then bits &&& ~~~ old.2 else bits

/-- Clear W1C bits. -/
def State.w1c (s : State) (a : Nat) (bits : W32) : State := s.wr a (s.rd a &&& ~~~ s.w1cBits a bits)

/-- The state of a page. -/
def State.page (s : State) (p : Nat) : PageSt := Tab.get s.pages p {}

/-- Replace the state of a page. -/
def State.setPage (s : State) (p : Nat) (x : PageSt) : State := { s with pages := Tab.set s.pages p x {} }

/-! ## Memory: bytes at device offsets (R6, R8, R38) -/

def State.byte (s : State) (a : Nat) : Byte := Tab.get s.mem a 0

def State.setByte (s : State) (a : Nat) (v : Byte) : State := { s with mem := Tab.set s.mem a v 0 }

/-- n bytes from a, lowest address first. -/
def State.bytes (s : State) (a : Nat) : Nat → List Byte
  | 0 => []
  | n + 1 => s.byte a :: s.bytes (a + 1) n

/-- Store bytes from a up. -/
def State.setBytes (s : State) (a : Nat) : List Byte → State
  | [] => s
  | b :: r => (s.setByte a b).setBytes (a + 1) r

/-- The number little-endian bytes spell. -/
def leNat : List Byte → Nat
  | [] => 0
  | b :: r => b.toNat + 256 * leNat r

/-- n little-endian bytes of a number. -/
def natLe : Nat → Nat → List Byte
  | 0, _ => []
  | n + 1, x => BitVec.ofNat 8 x :: natLe n (x / 256)

/-- n bytes at a as a number. -/
def State.le (s : State) (a n : Nat) : Nat := leNat (s.bytes a n)

/-- The 64-bit location of an address. -/
def loc64 (a : Nat) : Nat := a / 8 * 8

/-- The check bits of the location of an address. -/
def State.eccAt (s : State) (a : Nat) : Ecc := Tab.get s.ecc (loc64 a) .good

def State.setEcc (s : State) (a : Nat) (e : Ecc) : State := { s with ecc := Tab.set s.ecc (loc64 a) e .good }

/-- Write a whole 64-bit location: its check bits become valid (R17). -/
def State.wr64 (s : State) (a : Nat) (v : Nat) : State := ((s.setBytes (loc64 a) (natLe 8 v)).setEcc a .good)

/-- A 48-bit word at a 64-bit location: bits [63:48] are ignored (R38). -/
def State.word48 (s : State) (a : Nat) : W48 := BitVec.ofNat 48 (s.le (loc64 a) 8)

/-- Store a 48-bit word with the sign extension of bit 47 above it (R8, R38). -/
def State.setWord48 (s : State) (a : Nat) (v : W48) : State := s.wr64 a (v.signExtend 64).toNat

/-- Memory ranges (Table 2.1, R36). -/
def engDataAddr (e w : Nat) : Nat := 0x00800000 + e * 0x40000 + w * 8
def engInstrAddr (e i : Nat) : Nat := 0x00820000 + e * 0x40000 + i * 8
def cellMemAddr (c off : Nat) : Nat := 0x01800000 + c * 0x100000 + off
def sharedAddr (off : Nat) : Nat := 0x01000000 + off

/-! ## Interrupts (R49, R533 to R537) -/

/-- Byte i of a packed byte table of registers. -/
def State.routeByte (s : State) (base i : Nat) : Nat := s.f (base + i / 4 * 4) (i % 4 * 8 + 7) (i % 4 * 8)

/-- The causes a page asserts: IRQ_STAT masked by IRQ_EN (R49). -/
def State.pageCauses (s : State) (p : Nat) : W32 := s.rd (R.IRQ_STAT p) &&& s.rd (R.IRQ_EN p)

/-- The completion bits of the DMA page that bypass the router because their channel has VEC_EN 1 (R543). -/
def State.dmaDirect (s : State) (c : Nat) : Bool := s.b (R.dma_CH_CFG c) 14

/-- The page interrupt of a page as the router sees it: on the DMA page without the completion bits of VEC_EN channels. -/
def State.pageIrqLevel (s : State) (p : Nat) : Bool :=
  let w := s.pageCauses p
  if p = P.dma then
    ((List.range 32).any fun i => bit w i && !(8 ≤ i && i < 24 && s.dmaDirect (i - 8)))
  else w ≠ 0

/-- The entries of the packed byte table at base whose EN is 1 and whose VEC is v. Only registers that differ from their reset can be enabled. -/
def State.routed (s : State) (base cnt v : Nat) : List Nat :=
  (s.regs.filter fun e => base ≤ e.1 && e.1 < base + cnt).flatMap fun e =>
    (List.range 4).filterMap fun i =>
      let r := fld e.2 (i * 8 + 7) (i * 8)
      if r ≥ 128 ∧ r % 64 = v then some (e.1 - base + i) else none

/-- Whether vector v is asserted: a routed page interrupt, a DMA channel's own vector, or a cascade interrupt (R534, R536, R543). -/
def State.vecAsserted (s : State) (v : Nat) : Bool :=
  ((s.routed (R.router_ROUTE 0) 0x800 v).any s.pageIrqLevel) ||
  ((List.range 16).any fun c => s.dmaDirect c && s.f (R.dma_CH_CFG c) 13 8 = v && bit (s.pageCauses P.dma) (8 + c)) ||
  ((s.routed (R.router_CASC_ROUTE 0) 0x40 v).any fun d => s.b (R.router_REMOTE_PEND (d / 32)) (d % 32))

/-- Whether a message of vector v can leave now: bus mastering, D0, and neither mask (R532, R537). -/
def State.msixOpen (s : State) (v : Nat) : Bool :=
  s.pcie.busMaster && !s.pcie.d3hot && !s.pcie.fmask && !s.b (R.msix_TBL_CTL v) 0

def State.setPba (s : State) (v : Nat) (x : Bool) : State :=
  { s with pcie := { s.pcie with pba := setFld s.pcie.pba v v (b2n x) } }

/-- Bring vector v up to date (R534 to R537): a message when it is asserted and armed, re-arming when it deasserts. -/
def State.vecUpdate (s : State) (v : Nat) : State :=
  let arm := R.router_VEC_ARM (v / 32)
  if s.vecAsserted v then
    if s.b arm (v % 32) then
      if s.b R.lvCommon_LVSTAT 6 && !s.b R.lvCommon_LVSTAT 7 then
        (s.setB arm (v % 32) false).emit (.cascadeIrq (s.f R.lvCommon_LVSTAT 5 0) v)
      else if s.msixOpen v then
        ((s.setB arm (v % 32) false).setPba v false).emit
          (.msix v (BitVec.ofNat 64 ((s.rd (R.msix_TBL_ADDR_W0 v)).toNat + (s.rd (R.msix_TBL_ADDR_W1 v)).toNat * 2 ^ 32)) (s.rd (R.msix_TBL_DATA v)))
      else s.setPba v true
    else s
  else (s.setB arm (v % 32) true).setPba v false

/-- Bring the vectors of page p up to date after its causes changed. -/
def State.pageIrq (s : State) (p : Nat) : State :=
  let r := s.routeByte (R.router_ROUTE 0) p
  let s := if r ≥ 128 then s.vecUpdate (r % 64) else s
  if p = P.dma then
    (List.range 16).foldl (fun s c => if s.dmaDirect c then s.vecUpdate (s.f (R.dma_CH_CFG c) 13 8) else s) s
  else s

/-- Hardware sets IRQ_STAT bits of page p (R49). Bits the page does not define stay 0 (R11). -/
def State.irq (s : State) (p : Nat) (bits : Nat) : State :=
  (s.hwSetBits (R.IRQ_STAT p) (BitVec.ofNat 32 bits)).pageIrq p

/-- Set one IRQ_STAT bit of page p. -/
def State.irqB (s : State) (p i : Nat) : State := s.irq p (2 ^ i)

/-- Set one IRQ_STAT bit when a condition holds. -/
def State.irqIf (s : State) (c : Bool) (p i : Nat) : State := if c then s.irqB p i else s

/-! ## Failed accesses (R40, R68) -/

/-- The code of a master in ERR_INFO (Table 2.6). -/
def masterCode : Master → Nat
  | .host => 0
  | .cascade => 1
  | .engine => 2
  | .dma => 3
  | .geyser => 4
  | .luavan => 5
  | .axisPage => 8

/-- KIND of a failed access (Table 2.6). -/
inductive FailKind where
  | unmapped
  | size
  | locked
  | retired
  deriving DecidableEq, Repr

def FailKind.code : FailKind → Nat
  | .unmapped => 0
  | .size => 1
  | .locked => 2
  | .retired => 3

/-- Record a failed access in CHIP.ERR_ADDR and ERR_INFO (R68). -/
def State.recordFail (s : State) (m : Master) (a : Nat) (write : Bool) (k : FailKind) : State :=
  if s.b R.chip_ERR_INFO 0 then s.inc R.chip_ERR_INFO 15 8
  else ((s.wr R.chip_ERR_ADDR (BitVec.ofNat 32 (a % 2 ^ 25))).hwSetBits R.chip_ERR_INFO 1).wr R.chip_ERR_INFO
    (BitVec.ofNat 32 (1 + b2n write * 2 + k.code * 4 + masterCode m * 16 + 256))

/-- The response of a failed access to its master (R40): a host or cascade read ends with Unsupported Request, a posted write is discarded, and an
engine or DMA access gets an error response. -/
def State.failResponse (s : State) (m : Master) (a : Nat) (write : Bool) : State :=
  match m with
  | .host | .cascade => if write then s else s.emit (.unsupported m a)
  | _ => s.emit (.errorResponse m a)

/-- An access that fails under R40. A failure of a host request also advances UR_SENT (R531). -/
def State.failAccess (s : State) (m : Master) (a : Nat) (write : Bool) (k : FailKind) : State :=
  let s := (s.recordFail m a write k).failResponse m a write
  if m = .host then s.inc R.pcie_PCIE_ERR 7 0 else s

end Sys2Proof.Machine
end

