-- ==== Sys2Proof/Machine/Gate.lean ====
section
/-! DEFINITION. Which domains are in reset (Table 15.1), and the gate every register write passes: implemented page, reset, power state, pair role and
write lock (R40, R64, R65, R434, R513, R522, R532). -/

namespace Sys2Proof.Machine

/-- The SerDes group g passed its calibration: 0 TL, 1 LV and PX, 2 PCI Express, 3 Ethernet. A port of a group that did not remains down (R607). -/
def State.calOk (s : State) (g : Nat) : Bool := !s.rst.noCal.getLsbD g

/-- The class of I/O bank n at the latest release of POR, bank S as 4 (R621). -/
def State.bankClass (s : State) (n : Nat) : BankClass := Tab.get s.rst.banks n .v33

/-! ## Reaches (R504, R506, R508, R510) -/

/-- The highest reach permitted to a source (Table 15.2). Codes: 0 NONE, 1 BLOCK, 2 CELL, 3 CORE, 4 SYSTEM, 5 CHIP. -/
def maxReach : Nat → Nat
  | 3 => 4
  | 5 => 4
  | 6 => 3
  | 7 => 3
  | _ => 5

/-- Whether a reach is permitted to a source (Table 15.2). -/
def reachPermitted (i r : Nat) : Bool :=
  match i with
  | 0 => r = 5
  | 1 | 2 => 3 ≤ r && r ≤ 5
  | 3 => r = 3 || r = 4
  | 4 => 1 ≤ r && r ≤ 5
  | 5 => r = 0 || r = 3 || r = 4
  | 6 => r = 0 || r = 3
  | 7 => r = 3
  | 8 => r = 1 || (3 ≤ r && r ≤ 5)
  | _ => false

/-- The reach-table entry of a source as it acts (R510); until the table is applied every source acts at CHIP reach (R511). -/
def State.reachEntry (s : State) (i : Nat) : Nat :=
  if !s.rst.fuseOk then 5
  else if i = 0 then 5
  else
    let r := s.f R.fuse_REACH_TBL (3 * i + 2) (3 * i)
    if reachPermitted i r then r else maxReach i

/-- The reach at which an asserted source acts: what it was at its assertion, of HOST what RST_REQ asked for. -/
def State.sourceReach (s : State) (i : Nat) : Nat := if i = 4 then s.rst.hostReach else Tab.get s.rst.acts i 0

/-- The largest reach asserted by the sources that p picks (R504). -/
def State.reachAsserted (s : State) (p : Nat → Bool) : Nat :=
  (List.range 9).foldl (fun r i => if s.rst.asserted.getLsbD i && p i then max r (s.sourceReach i) else r) 0

/-- The largest reach asserted. -/
def State.reach (s : State) : Nat := s.reachAsserted fun _ => true

/-- Everything of CORE reach but the region a RESYNC spares (R508). -/
def State.coreInReset (s : State) : Bool := s.reach ≥ 3

/-- The Luavan and pair region: RESYNC spares it (R508). -/
def State.pairInReset (s : State) : Bool := s.reachAsserted (· ≠ 7) ≥ 3

def State.systemInReset (s : State) : Bool := s.reach ≥ 4

/-- The PCI Express endpoint, which PERST and HOT reset whatever their reach (R507). -/
def State.endpointInReset (s : State) : Bool := s.systemInReset || s.rst.asserted.getLsbD 2 || s.rst.asserted.getLsbD 3

/-- Block code b of Table 15.6, held by RST_HOLD or reset alone by RST_REQ, or within a larger reach. -/
def State.blockInReset (s : State) (b : Nat) : Bool :=
  s.coreInReset || s.b R.reset_RST_HOLD b || (s.rst.asserted.getLsbD 4 && s.rst.targets.contains (1, b)) ||
  (b = 0x11 && s.rst.asserted.getLsbD 8)

/-- Cell c. -/
def State.cellInReset (s : State) (c : Nat) : Bool :=
  s.coreInReset || (s.rst.asserted.getLsbD 4 && s.rst.targets.contains (2, c))

/-- Whether the block of a page is in reset (Tables 15.1 and 15.6). -/
def State.pageInReset (s : State) (k : PageKind) (n : Nat) : Bool :=
  match k with
  | .reset | .fuse | .sinCore | .sinClass | .sinAxis | .sinNode => s.systemInReset
  | .pcie | .msix => s.endpointInReset
  | .dma | .xlCommon => s.blockInReset 0x0E
  | .xlCell => s.blockInReset 0x0E || s.cellInReset n
  | .lahar => s.blockInReset 0x0F
  | .lpSrc | .cmp | .ae | .qe => s.blockInReset 0x09
  | .geyCommon | .geyChan | .geyTrig => s.blockInReset 0x08
  | .branch | .nodeTable => s.blockInReset n
  | .pair | .lvCommon | .lvPort => s.pairInReset
  | .can => s.blockInReset (0x0A + n)
  | .eth => s.blockInReset (0x0C + n)
  | .perfCommon | .perfCell => s.blockInReset 0x10
  | .cell => s.cellInReset n
  | .engine => s.cellInReset (n / 4)
  | .chip | .invarCore | .invarPtp | .invarEv | .router | .crater | .axis => s.coreInReset

/-- Whether what lies at a device address is in reset, so that its wrapper answers (R522): a register page, the engine memories of a cell, or, with CORE reach and
above, the cell memories and shared memory. -/
def State.isolated (s : State) (a : Nat) : Bool :=
  if a < 0x00800000 then (match pageKind (a / 0x1000) with
    | some (k, n) => s.pageInReset k n
    | none => false)
  else if a < 0x01000000 then s.cellInReset ((a - 0x00800000) / 0x100000)
  else s.coreInReset

/-- A request that reaches a block in reset: it fails, is recorded as UNMAPPED and counted (R522). -/
def State.isolate (s : State) (m : Master) (a : Nat) (write : Bool) : State :=
  (s.failAccess m a write .unmapped).inc R.reset_RST_STAT 31 16

/-! ## The gate -/

/-- Pages whose writes the pair does not mirror (R432). -/
def notMirrored : PageKind → Bool
  | .chip | .reset | .fuse | .pair | .lvCommon | .lvPort | .perfCommon | .perfCell | .can | .eth | .invarPtp => true
  | _ => false

/-- Pages a device in safe boot serves (R513). -/
def diagnosticPage : PageKind → Bool
  | .chip | .reset | .fuse | .sinCore => true
  | _ => false

/-- A device COPYING or STANDBY discards host and cascade writes to what the active mirrors (R434). -/
def State.pairDiscards (s : State) (m : Master) : Bool :=
  (m = .host || m = .cascade) && s.rst.fuseOk &&
  (s.pair.sync = 1 || (s.pair.sync = 2 && !s.pair.claim))

/-- Whether this device carries writes over PX (R432): it is the ACTIVE of a pair and the link is up. -/
def State.pairMirrors (s : State) (m : Master) : Bool :=
  (m = .host || m = .cascade || m = .dma) && s.b R.pair_PCFG 0 && s.pair.claim && s.pair.pxUp

/-- Whether BAR accesses of the host are served (R532). -/
def State.barOpen (s : State) (m : Master) : Bool := m ≠ .host || (s.pcie.memEn && !s.pcie.d3hot)

/-- A BAR access of the host that the function does not serve: Unsupported Request status, counted in UR_SENT (R531, R532). -/
def State.barRefuse (s : State) (m : Master) (a : Nat) (write : Bool) : State := (s.failResponse m a write).inc R.pcie_PCIE_ERR 7 0

/-- Any other write to a page fails its unlock sequence (R65). -/
def State.breakKey (s : State) (p : Nat) : State := s.setPage p { s.page p with key1 := none }

/-- Whether writes to page p are locked out (R63, R64). -/
def State.locked (s : State) (k : PageKind) (p : Nat) : Bool := pageCaps k / 4 % 2 = 1 && !(s.page p).unlocked

/-- PAD[56] to PAD[61] while flash boot owns them (R614). -/
def State.padHeld (s : State) (a : Nat) : Bool :=
  R.chip_PAD 56 ≤ a && a ≤ R.chip_PAD 61 && s.f R.fuse_BOOT_STAT 2 0 = 1

/-- The gate of a write of a register: the state after what the attempt itself does, and whether the write is performed. -/
def State.gate (s : State) (m : Master) (a : Nat) (val : W32) : State × Bool :=
  let p := a / 0x1000
  match pageKind p with
  | none => (s.failAccess m a true .unmapped, false)
  | some (k, n) =>
      if s.rst.safeBoot && (!diagnosticPage k || k = .sinCore) then (s.failAccess m a true .unmapped, false)
      else if s.pageInReset k n then (s.isolate m a true, false)
      else if s.pairDiscards m && !notMirrored k then (s.recordFail m a true .locked, false)
      else
        let s := if a % 0x1000 = 0x28 then s else s.breakKey p
        if s.locked k p && a % 0x1000 ≠ 0x28 && a % 0x1000 ≠ 0x10 then
          ((s.recordFail m a true .locked).irqB p 3, false)
        else if s.padHeld a then (s.recordFail m a true .locked, false)
        else (if s.pairMirrors m && !notMirrored k then s.emit (.mirrored a 4 (val.setWidth 64)) else s, true)

/-- Perform a register write's effect when the gate lets it through. -/
def State.gated (s : State) (t : Time) (m : Master) (a : Nat) (val : W32) (f : State → State) : State :=
  let s := s.tick t
  if !s.barOpen m then s.barRefuse m a true
  else
    let g := s.gate m a val
    if g.2 then f g.1 else g.1

end Sys2Proof.Machine
end

