-- ==== Sys2Proof/Machine/CraterBase.lean ====
section
/-! DEFINITION. Crater's state, the timing quantities of a branch and the node table, as other chapters use them (chapters 9 and 10). -/

namespace Sys2Proof.Machine

/-- CHIP.CYCLE. -/
def State.cycle (s : State) : Nat := (s.rd48 R.chip_CYCLE_LO).toNat

/-- The number of the cycle that begins at the next boundary. -/
def State.nextCycle (s : State) : Nat := if s.firstCycle then 0 else s.cycle + 1

/-- The cycle time T in ns for a CYCLE.SEL value (Table 9.18). -/
def cycleNs (sel : Nat) : Nat := 15625 * 2 ^ sel

/-- The cycle time in ns. -/
def State.tNs (s : State) : Nat := cycleNs (s.f R.crater_CYCLE 2 0)

/-- The cycle time as an amount of time. -/
def State.cycleT (s : State) : Time := nsT s.tNs

def State.branch (s : State) (b : Nat) : BranchSt := Tab.get s.br b {}

def State.setBranch (s : State) (b : Nat) (x : BranchSt) : State := { s with br := Tab.set s.br b x {} }

def State.slot (s : State) (b sl : Nat) : SlotSt := Tab.get (s.branch b).slots sl {}

def State.setSlot (s : State) (b sl : Nat) (x : SlotSt) : State :=
  s.setBranch b { s.branch b with slots := Tab.set (s.branch b).slots sl x {} }

def State.hop (s : State) (b h : Nat) : HopSt := Tab.get (s.branch b).hops h {}

def State.setHop (s : State) (b h : Nat) (x : HopSt) : State :=
  s.setBranch b { s.branch b with hops := Tab.set (s.branch b).hops h x {} }

/-- BSTATE.STATE (Table 10.1). -/
def State.bstate (s : State) (b : Nat) : Nat := s.f (R.nodeTable_BSTATE b) 3 0

def State.setBstate (s : State) (b st : Nat) : State := s.setF (R.nodeTable_BSTATE b) 3 0 st

/-- BRCFG.EN. -/
def State.brEn (s : State) (b : Nat) : Bool := s.b (R.branch_BRCFG b) 0

/-- The branch is driven: START or RUN, with its port calibrated. -/
def State.driven (s : State) (b : Nat) : Bool := (s.bstate b = 1 || s.bstate b = 2) && s.calOk 0

/-- The command lag (R22). -/
def State.lag (s : State) (b : Nat) : Nat := if s.b (R.branch_BRCFG b) 1 then 2 else 1

/-- SLOTCFG and the other layout fields, in slots, bytes and ns. -/
def State.nSlots (s : State) (b : Nat) : Nat := s.f (R.branch_SLOTCFG b) 4 0
def State.slotLen (s : State) (b : Nat) : Nat := 16 * s.f (R.branch_SLOTCFG b) 13 8
def State.guardNs (s : State) (b : Nat) : Nat := 4 * s.f (R.branch_SLOTCFG b) 22 16
def State.pitch (s : State) (b : Nat) : Nat := 4 * s.slotLen b + s.guardNs b
def State.firstNs (s : State) (b : Nat) : Nat := s.f (R.branch_FIRST b) 17 0
def State.flen (s : State) (b : Nat) : Nat := 16 * s.f (R.branch_FIELDCFG b) 3 0
def State.msBytes (s : State) (b : Nat) : Nat := 16 * (s.f (R.branch_DYNCFG b) 1 0 + 1)
def State.admMs (s : State) (b : Nat) : Nat := s.f (R.branch_DYNCFG b) 11 8
def State.nitNs (s : State) (b : Nat) : Nat := s.f (R.branch_NIT b) 17 0
def State.relNs (s : State) (b sl : Nat) : Nat := s.f (R.branch_REL b sl) 17 0
def State.slotNax (s : State) (b sl : Nat) : Nat := s.f (R.branch_SLOT_CFG b sl) 2 0
def State.slotNacq (s : State) (b sl : Nat) : Nat := s.f (R.branch_SLOT_CFG b sl) 6 4

/-- The nominal arrival S_s in ns (R297). -/
def State.slotNs (s : State) (b sl : Nat) : Nat := s.firstNs b + sl * s.pitch b

/-- The end of the static segment, S_N. -/
def State.staticEnd (s : State) (b : Nat) : Nat := s.slotNs b (s.nSlots b)

/-- E_sum (R319). -/
def State.eSum (s : State) (b : Nat) : Nat :=
  if s.lag b = 1 then s.relNs b (s.nSlots b - 1) + 4 * s.flen b + 20 else 40 + 4 * (82 + s.nSlots b * s.flen b)

/-- m(p) (R319): the mini-slots of an uplink fragment of payload p. -/
def State.miniSlots (s : State) (b p : Nat) : Nat := (4 * (12 + p) + s.guardNs b + 4 * s.msBytes b - 1) / (4 * s.msBytes b)

/-- NMS (R323). -/
def State.nms (s : State) (b : Nat) : Nat := (s.tNs - s.nitNs b - s.staticEnd b) / (4 * s.msBytes b)

/-- W, the mini-slots of the admission region (R342). -/
def State.admW (s : State) (b : Nat) : Nat := max (s.admMs b) ((1536 + 4 * s.msBytes b - 1) / (4 * s.msBytes b))

/-- A_w, the start of the admission region in ns (R342). -/
def State.admStart (s : State) (b : Nat) : Nat := s.staticEnd b + 4 * s.msBytes b * (s.nms b - s.admW b)

/-- k_up (R330). -/
def State.kUp (s : State) (b : Nat) : Nat := min 16 ((s.nms b - s.admMs b) / s.miniSlots b 256)

/-- Time since the cycle start, in time units. -/
def State.phase (s : State) : Time := s.now - s.tau

/-! ## The node table -/

def State.nodeState (s : State) (b h : Nat) : Nat := s.f (R.nodeTable_NODE_STATE b h) 3 0
def State.setNodeState (s : State) (b h st : Nat) : State := s.setF (R.nodeTable_NODE_STATE b h) 3 0 st

/-- The hop whose node has slot sl. -/
def State.hopOf (s : State) (b sl : Nat) : Option Nat :=
  (List.range 24).find? fun h => s.nodeState b h ≠ 0 && s.f (R.nodeTable_NODE_STATE b h) 8 4 = sl

/-- The state of the node in a slot; 0 ABSENT where there is none. -/
def State.slotState (s : State) (b sl : Nat) : Nat :=
  match s.hopOf b sl with
  | some h => s.nodeState b h
  | none => 0

/-- The expected-topology entry of slot sl, among the valid ones. -/
def State.expOf (s : State) (b sl : Nat) : Option Nat :=
  (List.range 24).find? fun h => s.b (R.nodeTable_EXP_CTL b h) 24 && s.f (R.nodeTable_EXP_CTL b h) 20 16 = sl

/-- Where the nameplate record of hop h is cached (R349). -/
def State.npAddr (s : State) (b h : Nat) : Nat := sharedAddr (s.f (R.nodeTable_NPCACHE b) 22 14 * 0x4000) + h * 512

/-- The cached nameplate record of the node in slot sl, when one is valid. -/
def State.nameplate (s : State) (b sl : Nat) : Option Nat :=
  match s.hopOf b sl with
  | some h => if s.b (R.nodeTable_NODE_STATE b h) 9 then some (s.npAddr b h) else none
  | none => none

/-- NCAPS of a nameplate record (Table 10.6). -/
def State.ncaps (s : State) (np : Nat) : W32 := BitVec.ofNat 32 (s.le (np + 0x20) 4)

/-- The cell that serves branch b (Table 9.18). -/
def State.branchCell (s : State) (b : Nat) : Nat := s.f R.crater_ROUTE (3 * b + 2) (3 * b)

/-- The device address of a branch's I/O area (R307). -/
def State.ioArea (s : State) (b : Nat) : Nat := cellMemAddr (s.branchCell b) (s.f (R.branch_BRBUF b) 19 0)

/-- Messages queued or in reassembly are lost (R441, R442). -/
def State.loseMessages (s : State) : State :=
  (List.range 8).foldl (fun s b =>
    let x := s.branch b
    s.setBranch b { x with txq := [], rxq := [], grants := [], slots := x.slots.map fun e => (e.1, { e.2 with reSeq := none, reGot := [], reLast := none, reNext := 0, retry := [], tries := [], req := none }) }) s

/-! ## The bound axes of a slot (R309) -/

/-- The axis pages bound to a slot. -/
def State.boundAxes (s : State) (b sl : Nat) : List Nat :=
  (List.range 128).filter fun a =>
    let c := s.rd (R.axis_CFG a)
    bit c 31 && fld c 10 8 = b && fld c 15 11 = sl

/-- Whether a copy holds both locations of every bound axis's record. -/
def State.copyFull (s : State) (b sl : Nat) (c : FieldCopy) : Bool :=
  (s.boundAxes b sl).all fun a =>
    let r := s.f (R.axis_CFG a) 17 16
    (Tab.get c (2 * r) none).isSome && (Tab.get c (2 * r + 1) none).isSome

/-! ## The command store (R308) -/

/-- Whether the pointer of frame k has reached field sl. -/
def SlotSt.past (x : SlotSt) (k : Nat) : Bool :=
  match x.reached with
  | some p => k ≤ p
  | none => false

/-- Whether a write for frame k is late: its pointer has reached the field, or its cycle is over (R24, R26). -/
def State.frameOver (s : State) (b sl k : Nat) : Bool := (s.slot b sl).past k || k < s.cycle

/-- The earliest frame whose pointer has not reached the field. -/
def State.openFrame (s : State) (b sl : Nat) : Nat :=
  let x := s.slot b sl
  if x.past s.cycle then s.cycle + 1 else s.cycle

/-- The copy of frame k. -/
def SlotSt.copy (x : SlotSt) (k : Nat) : FieldCopy := if k % 2 = 0 then x.even else x.odd

def SlotSt.setCopy (x : SlotSt) (k : Nat) (c : FieldCopy) : SlotSt := if k % 2 = 0 then { x with even := c } else { x with odd := c }

/-- Deliver a word to location i of field sl for target frame k: to that frame's copy, or to the late copy (R26, R308). -/
def State.windowWrite (s : State) (b sl i k : Nat) (v : W48) : State :=
  let x := s.slot b sl
  let e := some (v, ecyc s.now)
  if s.frameOver b sl k then s.setSlot b sl { x with late := Tab.set x.late i e none }
  else s.setSlot b sl (x.setCopy k (Tab.set (x.copy k) i e none))

/-- What a read of a command window location returns (R308). -/
def State.windowRead (s : State) (b sl i : Nat) : W48 :=
  match Tab.get ((s.slot b sl).copy (s.openFrame b sl)) i none with
  | some (v, _) => v
  | none => 0

/-- The branch, field and location of a device address in a command window of an enabled branch. -/
def State.windowAt (s : State) (a : Nat) : Option (Nat × Nat × Nat) :=
  (List.range 8).findSome? fun b =>
    let base := s.ioArea b + 0x3000
    if s.brEn b && base ≤ a && a < base + 24 * 64 then
      let o := a - base
      some (b, o / 64, o % 64 / 8)
    else none

end Sys2Proof.Machine
end

