-- ==== Sys2Proof/Machine/InvarBase.lean ====
section
/-! DEFINITION. Device time (R390 to R395) as other chapters use it. -/

namespace Sys2Proof.Machine

def State.setInv (s : State) (x : InvSt) : State := { s with inv := x }

/-- The Invar counter at an instant: ticks of 2 ns since the release of the latest CHIP reset (R390). -/
def State.counter (s : State) (t : Time) : Nat := (t - s.rst.countBase) / 24

/-- RATE as a signed number (R392). -/
def State.rate (s : State) : Int := (s.rd R.invarCore_RATE).toInt

/-- Device time at an instant (R391), as a number below 2^64. -/
def State.devTime (s : State) (t : Time) : Nat :=
  let d : Int := (s.counter t : Int) - s.inv.anchor
  (BitVec.ofInt 64 (s.inv.offset.toNat + rndDiv (d * 2 ^ 17 * (2 ^ 48 + s.rate)) (2 ^ 48))).toNat

/-- The nanosecond field of device time at an instant. -/
def State.nsAt (s : State) (t : Time) : W48 := BitVec.ofNat 48 (s.devTime t / 65536)

/-- The nanosecond field now. -/
def State.nsNow (s : State) : W48 := s.nsAt s.now

/-- Device time of the latest cycle start, nanosecond field. -/
def State.tk (s : State) : W48 := BitVec.ofNat 48 (s.tauDev / 65536)

/-- Signed difference of two nanosecond fields (R394). -/
def nsDiff (a b : W48) : Int := (a - b).toInt

/-- SEC and SEC_MARK brought up to an instant (R395): the difference from SEC_MARK lies in one second. -/
def State.secAt (s : State) (t : Time) : W48 × W48 :=
  let k := nsDiff (s.nsAt t) s.inv.secMark / 1000000000
  (s.inv.sec + w48 k, s.inv.secMark + w48 (k * 1000000000))

/-- Keep SEC and SEC_MARK up to date. -/
def State.secUpdate (s : State) : State :=
  let x := s.secAt s.now
  s.setInv { s.inv with sec := x.1, secMark := x.2 }

/-- Plant time at an instant, in units of 2^-16 ns: SEC seconds plus the time since SEC_MARK (R395). -/
def State.plantAt (s : State) (t : Time) : Int :=
  let x := s.secAt t
  ((x.1.toNat : Int) * 1000000000 + nsDiff (s.nsAt t) x.2) * 65536 + (s.devTime t % 65536 : Nat)

/-- A new RATE takes effect: OFFSET and ANCHOR are set so that device time continues (R392). -/
def State.setRate (s : State) (r : Int) : State :=
  let o := s.devTime s.now
  (s.setInv { s.inv with offset := BitVec.ofNat 64 o, anchor := s.counter s.now }).wr R.invarCore_RATE (BitVec.ofInt 32 r)

/-- The Invar correction step of the reset exit sequence (R393): device time restarts from the counter, RATE is FREQ_TRIM, SEC is 0, state FREE. -/
def State.invarExit (s : State) : State :=
  let c := s.counter s.now
  let s := s.setInv { s.inv with anchor := c, offset := BitVec.ofNat 64 (c * 2 ^ 17), sec := 0, secMark := 0 }
  let s := s.wr R.invarCore_RATE (s.rd R.invarCore_FREQ_TRIM)
  let s := s.setF R.invarCore_STAT 1 0 0
  let ns := s.nsNow.toNat
  s.setInv { s.inv with secMark := BitVec.ofNat 48 (ns / 1000000000 * 1000000000) }

/-! ## The cycle grid (R398, R517) -/

/-- Whether any branch has EN 1. -/
def State.anyBranch (s : State) : Bool := (List.range 8).any s.brEn

/-- The phase of a device time against the grid, in units of 2^-16 ns, in (-T/2, T/2]. -/
def State.gridPhase (s : State) (d : Nat) : Int :=
  let t : Int := s.tNs * 65536
  let x := (nsDiff (BitVec.ofNat 48 (d / 65536)) (s.secAt s.now).2 * 65536 + (d % 65536 : Nat)) % t
  if 2 * x > t then x - t else x

/-- Place the next cycle start (R398). -/
def State.placeTarget (s : State) : State :=
  let ph := s.gridPhase s.tauDev
  let c := if s.anyBranch then clampI ph (-131072) 131072 else ph
  { s with target := (BitVec.ofInt 64 (s.tauDev + s.tNs * 65536 - c)).toNat }

/-- PHASE and ALIGNED of the latest cycle start (R398, R415). -/
def State.showPhase (s : State) : State :=
  let ph := s.gridPhase s.tauDev
  let al : Bool := -131072 < ph && ph < 131072
  let s := s.irqIf (al && !s.b R.invarCore_STAT 6) P.invarCore 12
  (s.setB R.invarCore_STAT 6 al).wr R.invarCore_PHASE (BitVec.ofInt 32 (rndDiv ph 65536))

/-- Whether the next cycle start is due: device time has reached the target. -/
def State.cycleDue (s : State) : Bool := s.cycling && (BitVec.ofNat 64 (s.devTime s.now) - BitVec.ofNat 64 s.target).toInt ≥ 0

/-- Cycle boundaries begin at the first grid point from now (R517). -/
def State.startCycling (s : State) : State :=
  let d := s.devTime s.now
  let t : Int := s.tNs * 65536
  let x := (nsDiff (BitVec.ofNat 48 (d / 65536)) (s.secAt s.now).2 * 65536 + (d % 65536 : Nat)) % t
  { s with cycling := true, target := (BitVec.ofInt 64 (if x = 0 then d else d + t - x)).toNat }

end Sys2Proof.Machine
end

