-- ==== Sys2Proof/Machine/PairBase.lean ====
section
/-! DEFINITION. Operations on the pair that other chapters use: leaving LOCKSTEP, releases, and the transmitter enable (sections 13.2 to 13.5). -/

namespace Sys2Proof.Machine

def State.setPair (s : State) (p : PairSt) : State := { s with pair := p }

/-- In pair mode (R419). -/
def State.pairMode (s : State) : Bool := s.b R.pair_PCFG 0

/-- In LOCKSTEP (Table 13.3). -/
def State.inLockstep (s : State) : Bool := s.pair.sync = 2

/-- In LOCKSTEP with the partner in it too (R172). -/
def State.withPartner (s : State) : Bool := s.inLockstep && s.pair.partnerSync

/-- ROLE (Table 13.3): 1 ACTIVE, 2 STANDBY, 0 NONE. -/
def State.role (s : State) : Nat := if !s.pairMode then 0 else if s.pair.claim then 1 else if s.inLockstep then 2 else 0

/-- STANDBY in LOCKSTEP. -/
def State.isStandby (s : State) : Bool := s.role = 2

/-- Side B by the strap: PAIR_SIDE 1 is side A (Table 15.5). -/
def State.sideB (s : State) : Bool := !s.b R.fuse_STRAPS 4

/-- Transmitters enabled by claim (R424, first case). No transmitter is enabled in safe boot (R513). -/
def State.txEnabled (s : State) : Bool := s.pair.claim && !s.pair.peerClaim && !s.pair.intlkHigh && !s.rst.safeBoot

/-- Transmitters that may echo (R424, second case). -/
def State.txEcho (s : State) : Bool := !s.pair.claim && s.pair.peerClaim && !s.rst.safeBoot

def State.setSin (s : State) (x : SinSt) : State := { s with sin := x }

/-- Drive the STO outputs by the state (R482), noting when an output switches (R483). -/
def State.driveOutputs (s : State) : State :=
  let on := s.sin.state = 4 && s.b R.sinCore_SCFG 0
  let hs := on && s.sin.test ≠ some 0
  let ls := on && s.sin.test ≠ some 1
  let s := if hs ≠ s.sin.hs then (s.setSin { s.sin with hs := hs, hsAt := s.now }).emit (.stoOut 0 hs) else s
  if ls ≠ s.sin.ls then (s.setSin { s.sin with ls := ls, lsAt := s.now }).emit (.stoOut 1 ls) else s

/-- Put Sinter in a state and drive the outputs. -/
def State.sinState (s : State) (st : Nat) : State := (s.setSin { s.sin with state := st, test := if st = 4 then s.sin.test else none }).driveOutputs

/-- In pair mode a device is held in SAFE unless it is ACTIVE, or STANDBY in LOCKSTEP (R491). -/
def State.pairHold (s : State) : State := if s.pairMode && s.role = 0 && s.sin.state = 4 then s.sinState 3 else s

/-- Leave LOCKSTEP, or give up copying, for UNSYNC (R429). -/
def State.leaveLockstep (s : State) : State :=
  if s.pair.sync = 2 then ((s.setPair { s.pair with sync := 0, partnerSync := false }).irqB P.pair 11).pairHold else s

/-- Branches whose transmitters the interlock stops fall back to STANDBY (R424, Table 10.1). -/
def State.stopTransmitters (s : State) : State :=
  (List.range 8).foldl (fun s n =>
    let st := s.f (R.nodeTable_BSTATE n) 3 0
    if st = 1 || st = 2 || st = 3 || st = 4 || st = 7 then s.setF (R.nodeTable_BSTATE n) 3 0 6 else s) s

/-- Stop what the interlock no longer enables. -/
def State.txReview (s : State) : State :=
  if s.txEnabled then s
  else
    (List.range 8).foldl (fun s n =>
      let st := s.f (R.nodeTable_BSTATE n) 3 0
      if st = 1 || st = 2 || st = 3 || st = 4 || (st = 7 && !s.txEcho) then s.setF (R.nodeTable_BSTATE n) 3 0 6 else s) s

/-- A release (R441): the claim falls, INTLK is let go, the transmitters stop, RELEASED is set, and in pair mode the device is NONE and UNSYNC.
Messages queued or in reassembly are lost. -/
def State.dropClaim (s : State) : State :=
  let s := s.setPair { s.pair with claim := false, intlkHigh := !s.pair.peerClaim, releaseDue := none, claimReq := false, sync := 0, partnerSync := false }
  (((s.stopTransmitters).loseMessages).irqB P.pair 10).pairHold

/-- An immediate release: it takes effect within 100 ns, in the command that causes it. -/
def State.immediateRelease (s : State) : State := if s.pair.claim then s.dropClaim else s

/-- An orderly release is due at the release point (R441). -/
def State.orderlyRelease (s : State) : State :=
  if s.pair.claim && s.pair.releaseDue.isNone then s.setPair { s.pair with releaseDue := some s.now } else s

end Sys2Proof.Machine
end

