-- ==== Sys2Proof/Machine/Sinter.lean ====
section
/-! DEFINITION. Sinter's state operations: failure classes and their responses, axis safety functions, and the STO outputs (chapter 14). -/

namespace Sys2Proof.Machine

/-- The safety function state of an axis. -/
def State.sax (s : State) (a : Nat) : SinAxis := Tab.get s.sin.axes a {}

def State.setSax (s : State) (a : Nat) (x : SinAxis) : State := s.setSin { s.sin with axes := Tab.set s.sin.axes a x {} }

/-- The connection state of a slot. -/
def State.conn (s : State) (b sl : Nat) : SinConn := Tab.get s.sin.conns (b * 24 + sl) {}

def State.setConn (s : State) (b sl : Nat) (x : SinConn) : State :=
  s.setSin { s.sin with conns := Tab.set s.sin.conns (b * 24 + sl) x {} }

/-- SFCFG of axis a (R499). -/
def sfcfg (a : Nat) : Nat := R.sinAxis_SFCFG (a / 32) (a % 32)

/-- Axis a is under Sinter (R475). -/
def State.underSinter (s : State) (a : Nat) : Bool := s.b (sfcfg a) 16

/-- The axis's branch and slot (R475). -/
def State.axisBranch (s : State) (a : Nat) : Nat := s.f (R.axis_CFG a) 10 8
def State.axisSlot (s : State) (a : Nat) : Nat := s.f (R.axis_CFG a) 15 11
def State.axisRecord (s : State) (a : Nat) : Nat := s.f (R.axis_CFG a) 17 16

/-- The axes under Sinter on a node. -/
def State.nodeAxes (s : State) (b sl : Nat) : List Nat :=
  (List.range 128).filter fun a => s.underSinter a && s.axisBranch a = b && s.axisSlot a = sl

/-- Every axis under Sinter. -/
def State.allAxes (s : State) : List Nat := (List.range 128).filter s.underSinter

/-! ## Axis functions (R476 to R481) -/

/-- STO is set on the axis. -/
def State.axisSto (s : State) (a : Nat) : State :=
  let x := { s.sax a with demandCycle := some s.cycle }
  if x.sto then s.setSax a { x with event := true }
  else (s.setSax a { x with sto := true, stoCycle := s.cycle, event := true, ss1t := none, ss1r := none }).irqB (P.sinAxis (a / 32)) 8

/-- A stop demand that names function fn: 0 STO, 1 SS1-t, 2 SS1-r. A running function is never cancelled (R479). -/
def State.stopDemand (s : State) (a fn : Nat) : State :=
  let x := { s.sax a with demandCycle := some s.cycle }
  if fn = 0 then s.axisSto a
  else if x.sto then s.setSax a { x with event := true }
  else if fn = 1 then
    s.setSax a { x with event := true, stopReq := true, ss1t := some (x.ss1t.getD s.cycle) }
  else
    s.setSax a { x with event := true, stopReq := true, ss1r := some (x.ss1r.getD (s.cycle, x.spd.toInt.natAbs)) }

/-- A stop demand for the axis's own function. -/
def State.stopOwn (s : State) (a : Nat) : State := s.stopDemand a (s.f (sfcfg a) 1 0)

/-- AXSTAT.STATE: 0 RUN, 1 SS1-t, 2 SS1-r, 3 STO. -/
def State.axState (s : State) (a : Nat) : Nat :=
  let x := s.sax a
  if x.sto then 3 else if x.ss1r.isSome then 2 else if x.ss1t.isSome then 1 else 0

/-- Whether SIN pair p demands, as decisions use it: agreed in pair mode, own otherwise (R485, R491). -/
def State.pairDemand (s : State) (p : Nat) : Bool :=
  let x := s.sin.pairs.getD p {}
  if s.pairMode then x.agreed else x.demand

/-- Whether a TRIG code selects pair p (R500). -/
def trigSelects (trig p : Nat) : Bool := trig = 3 || trig = p + 1

/-- Whether both inputs of a pair, here and at the partner, allow its demand to clear at an ACK (R480, R485). -/
def State.pairReleasable (s : State) (p : Nat) : Bool :=
  let x := s.sin.pairs.getD p {}
  !x.active && !x.partner

/-- Whether the slot's MISS_RUN stands at or above its limit, if it has one (R473). -/
def State.missLevel (s : State) (b sl : Nat) : Bool :=
  s.f (R.sinNode_NSCFG b sl) 23 16 ≠ 0 && s.f (R.sinNode_NSSTAT b sl) 7 0 ≥ s.f (R.sinNode_NSCFG b sl) 23 16

/-- A response to a slot that acted as DEVICE_STO while its condition still holds (R481, R487). -/
def State.slotDev (s : State) (b sl : Nat) : Bool :=
  (s.missLevel b sl && (s.conn b sl).missDev) || (s.b (R.sinNode_NSSTAT b sl) 16 && (s.conn b sl).tmoDev)

/-- Such a response of any slot. -/
def State.devLevel (s : State) : Bool := (List.range 192).any fun i => s.slotDev (i / 24) (i % 24)

/-- Whether any level demand persists on an axis (R481). A selected pair whose inputs are released no longer holds one. -/
def State.levelDemand (s : State) (a : Nat) : Bool :=
  let b := s.axisBranch a
  let sl := s.axisSlot a
  ((List.range 2).any fun p => trigSelects (s.f (sfcfg a) 3 2) p && s.pairDemand p && !s.pairReleasable p) ||
  (s.missLevel b sl && s.f (R.sinNode_NSCFG b sl) 26 24 = 1) ||
  (s.b (R.sinNode_NSSTAT b sl) 16 && s.f (R.sinNode_NSCFG b sl) 30 28 = 1) || s.devLevel

/-! ## Device-level responses (R482, R487, R490) -/

/-- Every axis of a list gets function fn. -/
def State.stopAxes (s : State) (l : List Nat) (fn : Nat) : State := l.foldl (fun s a => s.stopDemand a fn) s

/-- DEVICE_STO for cause k (R487): SAFE from RUN, STO on every axis under Sinter, and an immediate release when the partner is in LOCKSTEP. -/
def State.deviceSto (s : State) (k : Nat) : State :=
  let s := s.setSin { s.sin with cause := k }
  let s := if s.sin.state = 4 then s.sinState 3 else s.driveOutputs
  let s := s.stopAxes s.allAxes 0
  if s.pair.claim && s.pairMode && s.withPartner then s.immediateRelease else s

/-- A latched DEVICE_STO: the state becomes LATCHED (Table 14.7); CLOCK and SUPPLY release immediately in every case. -/
def State.latchedSto (s : State) (k : Nat) : State :=
  let s := (s.deviceSto k).sinState 2
  let s := s.irqB P.sinCore 9
  if k = 6 || k = 7 then s.immediateRelease else s

/-- Whether response code c acts as DEVICE_STO here (R487). -/
def State.devResponse (s : State) (c : Nat) : Bool := c = 4 || (c = 3 && !(s.pair.claim && s.pairMode && s.withPartner))

/-- Apply response code c of class k to axes l (R487). -/
def State.respond (s : State) (k c : Nat) (l : List Nat) : State :=
  match c with
  | 1 => s.stopAxes l 0
  | 2 => s.stopAxes l 1
  | 3 => if s.pair.claim && s.pairMode && s.withPartner then (s.setSin { s.sin with cause := k }).orderlyRelease else s.deviceSto k
  | 4 => s.deviceSto k
  | _ => s

/-- Count a detection of class k (R487, R498); a response above REPORT sets DEMAND. -/
def State.countDet (s : State) (k c : Nat) : State :=
  (s.inc (R.sinClass_DET k) 15 0).irqIf (c ≠ 0) P.sinCore 8

/-- A failure of a device-wide class whose response the class page holds (Table 14.5). -/
def State.failure (s : State) (k : Nat) : State :=
  let c := s.f (R.sinClass_RESP k) 2 0
  (s.countDet k c).respond k c s.allAxes

/-- A failure of class k of one node, with the response its node page gives (classes 1 and 5). -/
def State.nodeFailure (s : State) (k c b sl : Nat) : State := (s.countDet k c).respond k c (s.nodeAxes b sl)

/-- A failure of a latched class: 6 CLOCK, 7 SUPPLY, 8 SINTER, 9 OUTPUT. -/
def State.latchedFailure (s : State) (k : Nat) : State :=
  let s := s.countDet k 4
  let s := if k = 6 then s.irqB P.sinCore 12 else if k = 7 then s.irqB P.sinCore 13 else if k = 9 then s.irqB P.sinCore 10 else s
  s.latchedSto k

/-- A failure whose fixed response is REPORT (class 2, LOCKSTEP). -/
def State.reportFailure (s : State) (k : Nat) : State := s.countDet k 0

/-! ## Release of the STO hold and the permit to run -/

/-- Sinter has passed or failed its SELFTEST (step 6 of Table 15.4 waits for it). -/
def State.sinterReadyForRelease (s : State) : Bool := s.sin.state ≠ 0

/-- The release of the STO hold: HOLD becomes SAFE (Table 14.7); safe boot keeps Sinter in HOLD (R513). -/
def State.sinterRelease (s : State) : State := if s.sin.state = 1 && !s.rst.safeBoot then s.sinState 3 else s

/-- A device-level cause in force (Table 14.7): a node response DEVICE_STO whose level condition holds, a CORE reset (R490), or pair mode without
the role R491 asks for. -/
def State.deviceCause (s : State) : Bool :=
  s.coreInReset || (s.pairMode && s.role = 0) || s.devLevel

/-- SAFE_ALL (R494): the state is not RUN and every axis under Sinter is in STO. -/
def State.safeAll (s : State) : Bool := s.sin.state ≠ 4 && s.allAxes.all fun a => (s.sax a).sto

end Sys2Proof.Machine
end

