-- ==== Sys2Proof/Machine/Mem.lean ====
section
/-! DEFINITION. Memory as masters reach it: the redirect of a retired cell's home region (R171, R640), fault disposition channels (R466), and double-bit
errors (R17, R639). -/

namespace Sys2Proof.Machine

/-! ## Retired cells (R170, R171, R640) -/

/-- STATUS.RETIRED of a cell page. -/
def State.cellRetired (s : State) (c : Nat) : Bool := s.b (R.STATUS (cellPage c)) 3

/-- The size in bytes of a cell's home region (R171). -/
def State.homeBytes (s : State) (c : Nat) : Nat := s.f (R.cell_CFG c) 3 0 * 0x10000

/-- The cell memory and offset of a device address. -/
def cellOf (a : Nat) : Option (Nat × Nat) :=
  if 0x01800000 ≤ a ∧ a < 0x02000000 then some ((a - 0x01800000) / 0x100000, a % 0x100000) else none

/-- Where the home region of a retired cell has moved (R171). -/
def State.movedTo (s : State) (c : Nat) : Option CopySt := Tab.get s.lahar.copies c none

/-- Where an access to a device address goes: unchanged, redirected to the reserve region of the target, or nowhere when the bank is retired (R171, R640). The redirect
of a cell that a CELL reset has returned to service lasts until the next activation. -/
def State.phys (s : State) (a : Nat) : Option Nat :=
  match cellOf a with
  | none => some a
  | some (c, off) =>
    match s.movedTo c with
    | some x => if off < x.size then (if s.cellRetired x.target then none else some (cellMemAddr x.target (x.base + off)))
      else if s.cellRetired c then none else some a
    | none => if s.cellRetired c && off ≥ s.homeBytes c then none else some a

/-- The address an access of Crater or another hardware master uses; a retired address is left as it is. -/
def State.physD (s : State) (a : Nat) : Nat := (s.phys a).getD a

/-! ## Fault disposition channels (R466, R467) -/

/-- The page whose FDISP_STAT shows channel ch of class c (Table 14.1). Nodes and acquisition channels have no page of their own. -/
def fdPage (c ch : Nat) : Option Nat :=
  match c with
  | 1 => some (P.branch ch)
  | 2 => some (P.lvPort ch)
  | 3 => some P.pair
  | 4 => some (enginePage ch)
  | 5 => some (cellPage ch)
  | 6 => some (P.qe ch)
  | 8 => some (P.can ch)
  | _ => none

def State.fdCh (s : State) (c ch : Nat) : FdCh := Tab.get s.fd (c * 0x1000 + ch) {}

def State.setFdCh (s : State) (c ch : Nat) (x : FdCh) : State := { s with fd := Tab.set s.fd (c * 0x1000 + ch) x {} }

/-- Store a channel and raise IRQ_STAT.FDISP when what FDISP_STAT shows has changed. -/
def State.fdStore (s : State) (c ch : Nat) (x : FdCh) : State :=
  let o := s.fdCh c ch
  let s := s.setFdCh c ch x
  if o.level = x.level ∧ o.events = x.events ∧ o.perm = x.perm then s
  else match fdPage c ch with
    | some p => s.irqB p 2
    | none => s

/-- LIMIT and LEAK of a class (R498). -/
def State.fdLimit (s : State) (c : Nat) : Nat := s.f (R.sinClass_FDCFG c) 15 8
def State.fdLeak (s : State) (c : Nat) : Nat := s.f (R.sinClass_FDCFG c) 4 0

/-- The level and good-event count without a good event of the same engine cycle: only the fault counts (R466). -/
def FdCh.withoutGood (x : FdCh) (cyc : Nat) : FdCh := if x.lastGood && x.last = cyc then { x with level := x.before } else x

/-- A fault of a channel that is not permanent: the level rises and the good-event count returns to 0; at LIMIT the fault is permanent. The answer says
whether this fault declared it. EVENTS counts transient faults. -/
def State.fdFault (s : State) (c ch : Nat) : State × Bool :=
  let cyc := ecyc s.now
  let x := (s.fdCh c ch).withoutGood cyc
  if x.perm then (s, false)
  else
    let l := min (x.level + 1) 255
    let p := l ≥ s.fdLimit c
    let x' := { x with level := l, good := 0, perm := p, events := if p then x.events else min (x.events + 1) 65535, last := cyc, lastGood := false }
    let s := s.fdStore c ch x'
    (if p then match fdPage c ch with
      | some pg => s.setB (R.STATUS pg) 3 true
      | none => s
    else s, p)

/-- A good event (R466). A fault in the same engine cycle has already taken the place of this event. -/
def State.fdGood (s : State) (c ch : Nat) : State :=
  let cyc := ecyc s.now
  let x := s.fdCh c ch
  if x.perm || (!x.lastGood && x.last = cyc && x.events > 0) then s
  else if x.good + 1 ≥ 2 ^ s.fdLeak c then s.fdStore c ch { x with good := 0, level := x.level - 1, before := x.level, last := cyc, lastGood := true }
  else s.fdStore c ch { x with good := x.good + 1, before := x.level, last := cyc, lastGood := true }

/-- FDISP_STAT as it reads. -/
def FdCh.word (x : FdCh) : W32 := BitVec.ofNat 32 (x.level + b2n x.perm * 256 + x.events * 65536)

end Sys2Proof.Machine
end

