-- ==== Sys2Proof/Machine/LaharBase.lean ====
section
/-! DEFINITION. Reading Lahar's tables and the engines, and the performance counters that count their events (chapters 5 and 18). -/

namespace Sys2Proof.Machine

def State.setLahar (s : State) (x : LaharSt) : State := { s with lahar := x }

/-- GRAPH_STAT.BANK and RUNNING (Table 5.11). -/
def State.bankNo (s : State) : Nat := s.f R.lahar_GRAPH_STAT 1 1
def State.running (s : State) : Bool := s.b R.lahar_GRAPH_STAT 0

def State.graphOf (s : State) (b : Nat) : Option Graph := Tab.get s.lahar.graphs b none

/-- The active graph. -/
def State.graph (s : State) : Option Graph := if s.running then s.graphOf s.bankNo else none

def State.setGraph (s : State) (b : Nat) (g : Option Graph) : State :=
  s.setLahar { s.lahar with graphs := Tab.set s.lahar.graphs b g none }

/-- The key of operation i of bank b, and Sinter's runtime operation (R465). -/
def opKey (b i : Nat) : Nat := b * 4096 + i
def runtimeKey : Nat := 0x2000

def noOp : OpRec := { program := false, prio := 7, cell := 0, ctx := 0, flow := none, nIn := 0, nOut := 0, code := 0, param := 0 }

/-- The record of an operation. -/
def State.opRec (s : State) (key : Nat) : OpRec :=
  match s.graphOf (key / 4096) with
  | some g => g.ops.getD (key % 4096) noOp
  | none => noOp

def State.opSt (s : State) (key : Nat) : OpSt := Tab.get s.lahar.ops key {}

def State.setOpSt (s : State) (key : Nat) (x : OpSt) : State :=
  if key = runtimeKey then s else s.setLahar { s.lahar with ops := Tab.set s.lahar.ops key x {} }

/-- Fired: ready-listed, serving or draining (R150, Table 5.11). -/
def OpSt.fired (x : OpSt) : Bool := 1 ≤ x.phase && x.phase ≤ 3

/-- The keys of every operation that is fired. -/
def State.firedOps (s : State) : List Nat := (s.lahar.ops.filter fun e => e.2.fired).map (·.1)

def State.ctxRec (s : State) (b id : Nat) : Option CtxRec :=
  match s.graphOf b with
  | some g => g.ctxs.find? (·.id = id)
  | none => none

/-- The cell that runs a home cell's operations (REMAP.EXEC). -/
def State.execCell (s : State) (c : Nat) : Nat := s.f (R.cell_REMAP c) 2 0

def State.eng (s : State) (e : Nat) : Eng := Tab.get s.engs e {}

def State.setEng (s : State) (e : Nat) (x : Eng) : State := { s with engs := Tab.set s.engs e x {} }

/-- The engine is in service. -/
def State.engUp (s : State) (e : Nat) : Bool := s.b (R.cell_ENG_IN_SERVICE (e / 4)) (e % 4)

/-- The operation at the top depth. -/
def State.top (s : State) (e : Nat) : Option Serv := (s.eng e).servs.head?

/-- Replace the operation at the top depth. -/
def State.setTop (s : State) (e : Nat) (x : Serv) : State :=
  match (s.eng e).servs with
  | [] => s
  | _ :: r => s.setEng e { s.eng e with servs := x :: r }

/-- Operations in service on an engine (STATE.DEPTH). -/
def State.inService (s : State) (e : Nat) : Nat := ((s.eng e).servs.filter fun v => !v.ghost).length

/-! ## Cycles -/

/-- The present cycle as operations see it (R138); once its agreement record has come, a standby sees the active's TCYC (R430). -/
def State.stamp (s : State) : Stamp :=
  { cyc := s.cycle, tcyc := if s.isStandby && s.pair.agreed = some s.cycle then s.pair.tcyc.getD s.tk else s.tk, lpp := (List.range 4).map fun i => s.rd48 (R.lpSrc_LPPOS_LO i) }

/-! ## Performance counters (R586 to R589, R591, R592) -/

/-- Whether an offset passes a WSEL (R588). -/
def State.inWindows (s : State) (wsel : Nat) (off : Option Nat) : Bool :=
  match wsel, off with
  | 0, _ => true
  | _, none => false
  | w, some o =>
    let i0 := (s.rd R.perfCommon_WIN0_BASE).toNat ≤ o && o ≤ (s.rd R.perfCommon_WIN0_LIMIT).toNat
    let i1 := (s.rd R.perfCommon_WIN1_BASE).toNat ≤ o && o ≤ (s.rd R.perfCommon_WIN1_LIMIT).toNat
    (w = 1 && i0) || (w = 2 && i1) || (w = 3 && (i0 || i1))

/-- PCTL.FREEZE. -/
def State.frozen (s : State) : Bool := s.b R.perfCommon_PCTL 0

/-- The bit of a privilege filter that passes the operation at the top depth: 1 supervisor, 2 user; none with no operation in service (R587). -/
def State.privBit (s : State) (e : Nat) : Option Nat :=
  match s.top e with
  | none => none
  | some v =>
    if v.key = runtimeKey then none
    else match s.ctxRec (v.key / 4096) (s.opRec v.key).ctx with
      | some c => some (if c.priv = 1 then 1 else 2)
      | none => none

/-- Add n to programmable counter i of engine e; a wrap is noted for COUNTER_OVERFLOW (R594). -/
def State.pcntAdd (s : State) (e i n : Nat) : State :=
  let c := e / 4
  let l := e % 4
  let v := (s.rd48 (R.perfCell_PCNT_LO c l i)).toNat + n
  let s := s.wr48 (R.perfCell_PCNT_LO c l i) (BitVec.ofNat 48 v)
  if v < 2 ^ 48 || s.perf.wraps.contains (e * 9 + i) then s else { s with perf := { s.perf with wraps := (e * 9 + i) :: s.perf.wraps } }

/-- Whether programmable counter i of engine e counts an event now (R586). -/
def State.pcounts (s : State) (e i code : Nat) (off : Option Nat) : Bool :=
  let w := s.rd (R.perfCell_PSEL (e / 4) (e % 4) i)
  bit w 16 && fld w 7 0 = code && s.inWindows (fld w 13 12) off &&
  (match s.privBit e with
   | some b => bit w (8 + b)
   | none => fld w 10 8 = 7)

/-- An event that occurs n times on engine e (R586). A retired engine's counters stop (R584). -/
def State.perfEv (s : State) (e code n : Nat) (off : Option Nat) : State :=
  if s.frozen || !s.engUp e || n = 0 then s
  else (List.range 8).foldl (fun s i => if s.pcounts e i code off then s.pcntAdd e i n else s) s

/-- The device-space offset of an access, for the window filter (R588). -/
def Phys.off (p : Phys) : Option Nat := if p.host then none else some p.addr

/-- The events of an open slot by class: 0 idle, 1 refill, 2 far-load interlock, 3 after DONE, 4 spill and read-back, 5 front-starved otherwise (R589). -/
def slotEvents : Nat → List Nat
  | 0 => [0x00, 0x03, 0x10]
  | 1 => [0x00, 0x03, 0x11]
  | 2 => [0x00, 0x04, 0x12]
  | 3 => [0x00, 0x04, 0x13]
  | 4 => [0x00, 0x04, 0x14]
  | _ => [0x00, 0x03]

/-- Class the issue slots since the last one classed, and open slots of class k from now on. -/
def State.slots (s : State) (e k : Nat) : State :=
  let g := s.eng e
  let n := ecyc s.now - g.slotAt
  let s := (slotEvents g.slotClass).foldl (fun s c => s.perfEv e c n none) s
  let s := (g.servs.flatMap (·.loads)).foldl (fun s l => s.perfEv e 0x22 n l.at'.off) s
  s.setEng e { s.eng e with slotAt := max g.slotAt (ecyc s.now), slotClass := k }

/-- A slot in which the instruction at pc issues: retired, or wasted when it has no effect (R589). -/
def State.slotIssue (s : State) (e : Nat) (retired : Bool) (next pc : Nat) : State :=
  let s := s.slots e next
  let s := s.perfEv e 0x00 1 none
  let s := s.perfEv e (if retired then 0x01 else 0x02) 1 none
  s.setEng e { s.eng e with slotAt := ecyc s.now + 1, ad := pc }

/-- A transfer of n locations on fabric port p of cell c (R591, R592): the master's bit, the privilege bit, the access class bit, and the offset. -/
def State.bwCount (s : State) (c p mbit pbit cls n : Nat) (off : Option Nat) : State :=
  let w := s.rd (R.perfCell_BWF c p)
  if s.b (R.perfCell_BW_CFG c) 24 && !s.frozen && !s.perf.stopped.contains c &&
      bit w mbit && bit w (8 + pbit) && s.inWindows (fld w 13 12) off && bit w (16 + cls) then
    s.inc (R.perfCell_BW_CUR c p) 31 0 n
  else s

/-- Traffic of an engine: its cell's port, master 2, with the privilege of its operation. -/
def State.bwEngine (s : State) (e cls n : Nat) (at' : Phys) : State :=
  s.bwCount (e / 4) (e % 4) 2 ((s.privBit e).getD 0) cls n at'.off

/-- Traffic of a master to a cell's memory; an engine's counts at its own port instead (bwEngine): port 4; Crater and Geyser on port 5. pbit is the privilege bit, host unless it is a
translated DMA element (R592). -/
def State.bwCell (s : State) (mcode cls n a : Nat) (pbit : Nat := 0) : State :=
  match (if mcode = 2 then none else cellOf a) with
  | some (c, _) => s.bwCount c (if mcode = 6 || mcode = 4 then 5 else 4) mcode pbit cls n (some a)
  | none => s

end Sys2Proof.Machine
end

