-- ==== Sys2Proof/Machine/Lahar.lean ====
section
/-! DEFINITION. Lahar's tokens, firing, ready lists, delay lists, aborts and retirement (chapter 5). -/

namespace Sys2Proof.Machine

/-! ## Ready lists (R29, R154) -/

/-- Whether x stands before y in a ready list: priority, re-fired operations first, then time of entry, then index (R29, R154). -/
def Ready.before (x y : Ready) : Bool :=
  x.prio > y.prio || (x.prio = y.prio && ((x.again && !y.again) ||
    (x.again == y.again && (x.cyc < y.cyc || (x.cyc = y.cyc && x.key % 4096 < y.key % 4096)))))

def readyInsert (x : Ready) : List Ready → List Ready
  | [] => [x]
  | y :: r => if x.before y then x :: y :: r else y :: readyInsert x r

/-- A re-fired operation enters at the head of its priority (R154). -/
def readyHead (x : Ready) : List Ready → List Ready
  | [] => [x]
  | y :: r => if y.prio ≤ x.prio then x :: y :: r else y :: readyHead x r

def State.readyOf (s : State) (c : Nat) : List Ready := Tab.get s.lahar.ready c []

def State.setReady (s : State) (c : Nat) (l : List Ready) : State :=
  s.setLahar { s.lahar with ready := Tab.set s.lahar.ready c l [] }

/-! ## Flows and firing (R150 to R153) -/

/-- Whether flow f is in service: an operation of it is fired, in the active graph or among the old graph's (R152, R178). -/
def State.flowBusy (s : State) (f : Nat) : Bool := s.firedOps.any fun k => (s.opRec k).flow = some f

/-- Whether a flow is atomic. -/
def State.flowAtomic (s : State) (f : Nat) : Bool :=
  match s.graph with
  | some g => (g.flows.getD f (false, false)).1
  | none => false

def State.tok (s : State) (i : Nat) : Option Token := Tab.get s.lahar.toks i none

def State.setTok (s : State) (i : Nat) (x : Option Token) : State :=
  s.setLahar { s.lahar with toks := Tab.set s.lahar.toks i x none }

/-- The index of the arc that feeds a port. -/
def Graph.feed (g : Graph) (op port : Nat) : Option Nat := g.arcs.findIdx? fun a => a.dstOp = op && a.dstPort = port

/-- The arcs that feed an operation's ports, in port order. -/
def Graph.feeds (g : Graph) (op : Nat) : List Nat := (List.range (g.ops.getD op noOp).nIn).filterMap (g.feed op)

/-- Whether every input port of operation op holds a token. -/
def State.inputsFull (s : State) (g : Graph) (op : Nat) : Bool :=
  let l := g.feeds op
  l.length = (g.ops.getD op noOp).nIn && l.all fun i => (s.tok i).isSome

/-- Whether the present boundary is the one an activation waits for: the first at least 128 engine cycles after it (R177). From it on nothing of the
old graph fires (R178). -/
def State.switchDue (s : State) : Bool :=
  match s.lahar.act with
  | some a => a + 2048 ≤ s.tau && s.cycling
  | none => false

/-- The conditions of R150. -/
def State.canFire (s : State) (g : Graph) (op : Nat) : Bool :=
  (s.opSt (opKey s.bankNo op)).phase = 0 && s.inputsFull g op && !s.switchDue &&
  (match (g.ops.getD op noOp).flow with
   | none => true
   | some f => s.b (R.lahar_FLOW_EN (f / 32)) (f % 32) && !(s.flowAtomic f && s.flowBusy f))

/-- The latest stamp among tokens (R435). -/
def latestStamp (d : Stamp) (l : List Token) : Stamp := l.foldl (fun b t => if t.at'.cyc > b.cyc then t.at' else b) d

/-- Fire an operation: its tokens move to its firing record and it enters the ready list of its executing cell (R150, R151). -/
def State.fire (s : State) (g : Graph) (op : Nat) : State :=
  let r := g.ops.getD op noOp
  let key := opKey s.bankNo op
  let l := g.feeds op
  let toks := l.filterMap s.tok
  let s := l.foldl (fun s i => s.setTok i none) s
  let st := s.stamp
  let pair := match toks with
    | [] => st
    | t :: ts => latestStamp t.at' ts
  let s := s.setOpSt key { s.opSt key with phase := 1, toks := toks, fire := st, pair := pair }
  let c := s.execCell r.cell
  s.setReady c (readyInsert { key := key, prio := r.prio, cyc := ecyc s.now, again := false } (s.readyOf c))

/-- Fire an operation if R150 allows. -/
def State.tryFire (s : State) (op : Nat) : State :=
  match s.graph with
  | some g => if s.canFire g op then s.fire g op else s
  | none => s

/-- The operation of flow f that fires when the flow leaves service: highest priority, then lowest index (R152). -/
def State.nextOfFlow (s : State) (g : Graph) (f : Nat) : Option Nat :=
  ((List.range g.ops.length).filter fun i => (g.ops.getD i noOp).flow = some f && s.canFire g i).foldl
    (fun b i => match b with
      | none => some i
      | some j => if (g.ops.getD i noOp).prio > (g.ops.getD j noOp).prio then some i else some j) none

/-- An operation has stopped being fired: its flow may fire another, and the operation itself may fire again. -/
def State.afterService (s : State) (key : Nat) : State :=
  match s.graph with
  | none => s
  | some g =>
    match (s.opRec key).flow with
    | some f =>
      if s.flowAtomic f then
        (if s.flowBusy f then s else match s.nextOfFlow g f with
          | some i => s.fire g i
          | none => s)
      else if key / 4096 = s.bankNo then s.tryFire (key % 4096) else s
    | none => if key / 4096 = s.bankNo then s.tryFire (key % 4096) else s

/-! ## Tokens (R145 to R149) -/

/-- A token arrives on arc i of the active graph (R148). -/
def State.arcPost (s : State) (i : Nat) (w : W48) (st : Stamp) : State :=
  match s.graph with
  | none => s
  | some g =>
    match g.arcs[i]? with
    | none => s
    | some a =>
      let s :=
        if (s.tok i).isSome then
          let s := (s.inc R.lahar_ERR_CNT 15 0).irqB P.lahar 13
          if a.keep then s else s.setTok i (some { word := w, at' := st, cyc := ecyc s.now })
        else s.setTok i (some { word := w, at' := st, cyc := ecyc s.now })
      s.tryFire a.dstOp

/-- The arcs of the active graph that a source posts on. -/
def State.arcsOf (s : State) (kind src : Nat) : List Nat :=
  match s.graph with
  | none => []
  | some g => (List.range g.arcs.length).filter fun i =>
      match g.arcs[i]? with
      | some a => a.kind = kind && a.src = src && !a.viaDl
      | none => false

/-- A slot arrival's token goes only to the cell that the routing table names for the branch (R19): the arcs of operations that run there. -/
def State.postSlot (s : State) (src c : Nat) (w : W48) : State :=
  match s.graph with
  | none => s
  | some g => ((s.arcsOf 1 src).filter fun i => match g.arcs[i]? with
      | some a => s.execCell (g.ops.getD a.dstOp noOp).cell = s.execCell c
      | none => false).foldl (fun s i => s.arcPost i w s.stamp) s

/-- A source outside the graph posts a word on every arc it feeds. -/
def State.post (s : State) (kind src : Nat) (w : W48) (st : Stamp) : State :=
  (s.arcsOf kind src).foldl (fun s i => s.arcPost i w st) s

/-- A time, angle or doorbell token (R430): in pair mode it waits for the next boundary on the device that holds the claim. -/
def State.postAsync (s : State) (kind src : Nat) (w : W48) : State :=
  if s.pairMode then
    if s.pair.claim then s.setLahar { s.lahar with bells := s.lahar.bells ++ [{ kind := BitVec.ofNat 3 kind, src := BitVec.ofNat 12 src, word := w }] } else s
  else s.post kind src w s.stamp

/-! ## Delay lists (R157 to R160) -/

def State.dlist (s : State) (l : Nat) : List DlEnt := Tab.get s.lahar.dls l []

def State.setDlist (s : State) (l : Nat) (x : List DlEnt) : State :=
  let s := s.setLahar { s.lahar with dls := Tab.set s.lahar.dls l x [] }
  let a := R.lahar_DL_STAT l
  let s := s.setF a 10 0 x.length
  if x.length > s.f a 26 16 then s.setF a 26 16 x.length else s

/-- Insert after every entry that is due no later (R159). -/
def dlInsertEnt (tick : W48) (x : DlEnt) : List DlEnt → List DlEnt
  | [] => [x]
  | y :: r => if (y.due - tick).toInt > (x.due - tick).toInt then x :: y :: r else y :: dlInsertEnt tick x r

/-- An arc through a delay list takes a posted word (R158); a full list refuses it (R160). -/
def State.dlInsert (s : State) (i : Nat) (a : ArcRec) (w : W48) (st : Stamp) : State :=
  if (s.dlist a.dl).length ≥ 1024 then
    let s := (s.inc R.lahar_ERR_CNT 31 16).irqB P.lahar 14
    s.post 6 a.src (BitVec.ofNat 48 (1 + a.dl * 256 + i * 1024)) st
  else
    let tick := s.rd48 (R.lahar_DL_TICK_LO a.dl)
    let d := if a.delay = 0 then w.toNat % 65536 else a.delay
    let e := { due := tick + BitVec.ofNat 48 (max d 1), op := a.dstOp, port := a.dstPort, word := w, arc := i }
    s.setDlist a.dl (dlInsertEnt tick e (s.dlist a.dl))

/-- A delay list's count advances by n; the entries due expire in order and deliver their words (R157, R159). -/
def State.dlAdvance (s : State) (l n : Nat) : State :=
  if n = 0 then s
  else
    let tick := s.rd48 (R.lahar_DL_TICK_LO l) + BitVec.ofNat 48 n
    let s := s.wr48 (R.lahar_DL_TICK_LO l) tick
    let d := s.dlist l
    let due := d.filter fun e => (e.due - tick).toInt ≤ 0
    let s := if due.isEmpty then s else s.setDlist l (d.filter fun e => (e.due - tick).toInt > 0)
    due.foldl (fun s e => s.arcPost e.arc e.word s.stamp) s

/-- The tick source of a delay list of the active graph. -/
def State.dlRec (s : State) (l : Nat) : DlRec :=
  match s.graph with
  | some g => g.dls.getD l { mode := 0, lp := 0, period := 0, lpInc := 0 }
  | none => { mode := 0, lp := 0, period := 0, lpInc := 0 }

/-! ## Entering and leaving service (R70, R98, R155) -/

/-- The entry state of a bank (R70). -/
def entryBank (r : OpRec) (idx : Nat) (ctl : W32) (toks : List Token) : Bank :=
  let w (i : Nat) : W48 := match toks[i]? with
    | some t => t.word
    | none => 0
  let d : List (Nat × BitVec 112) :=
    [(0, r.param.setWidth 112), (1, BitVec.ofNat 112 (idx + r.ctx * 65536)), (2, (w 0).setWidth 112), (3, (w 1).setWidth 112),
     (4, (w 2).setWidth 112), (5, (w 3).setWidth 112), (73, BitVec.ofNat 112 (fld ctl 1 0))]
  { regs := d.foldl (fun t e => Tab.set t e.1 e.2 0) [], pc := if r.program then r.code else 0 }

/-- Words of engine data memory from the top of frame n (R83): its first word and its size. -/
def State.frame (s : State) (e n : Nat) : Nat × Nat :=
  let m := s.rd (R.cell_LMAP (e / 4))
  let res := fld m 6 0 * 256
  let f1 := fld m 14 8 * 256
  let f2 := fld m 22 16 * 256
  match n with
  | 2 => (res, f2)
  | 1 => (res + f2, f1)
  | _ => (res + f2 + f1, 16384 - res - f1 - f2)

/-- An operation enters service on engine e above those in service. Frame contents are undefined at entry (R84). -/
def State.enter (s : State) (e : Nat) (x : Ready) : State :=
  let s := s.slots e 1
  let g := s.eng e
  let n := g.servs.length
  let fr := s.frame e n
  let st := s.opSt x.key
  let r := s.opRec x.key
  let v : Serv := { key := x.key, prio := x.prio, bank := entryBank r (x.key % 4096) (s.rd (R.cell_CTL_INIT (e / 4))) st.toks, seed := s.freeCtr }
  let s := s.setEng e { s.eng e with servs := v :: g.servs, preq := none, mode := 0, ad := v.bank.pc, written := g.written.filter fun w => !(fr.1 ≤ w && w < fr.1 + fr.2) }
  let s := (s.useFree).setOpSt x.key { st with phase := 2, eng := e, depth := n }
  s.perfEv e 0x30 1 none

/-- Ghosts at the top give way to what lies below (R102). -/
def dropGhosts : List Serv → List Serv
  | [] => []
  | v :: r => if v.ghost then dropGhosts r else v :: r

/-- The operation at the top depth leaves; the engine returns to the one below (R98): from depth 2 by reading its spill record back. -/
def State.popTop (s : State) (e : Nat) : State :=
  let s := s.slots e 1
  let g := s.eng e
  match g.servs with
  | [] => s
  | _ :: r =>
    let r' := dropGhosts r
    let back := g.servs.length = 3 && r'.length = 2
    s.setEng e { g with servs := r', mode := if back then 2 else if g.mode = 2 then 0 else g.mode,
                        slotClass := if r'.isEmpty then 0 else if back then 4 else 1 }

/-! ## Values of a new image (R178) -/

/-- Whether cell c still holds an operation of the old graph, in service or ready. -/
def State.cellHasOld (s : State) (c : Nat) : Bool :=
  (s.readyOf c).any (fun x => x.key / 4096 ≠ s.bankNo && x.key ≠ runtimeKey) ||
  (List.range 4).any fun l =>
    let g := s.eng (4 * c + l)
    g.servs.any (fun v => !v.ghost && v.key ≠ runtimeKey && v.key / 4096 ≠ s.bankNo) ||
    (match g.preq with
     | some x => x.key ≠ runtimeKey && x.key / 4096 ≠ s.bankNo
     | none => false)

/-- A cell page takes the values of the active image (R178). -/
def State.cellTake (s : State) (c : Nat) : State :=
  match s.graph with
  | none => s
  | some g =>
    match g.cells[c]? with
    | none => s
    | some r =>
      let put (s : State) (a : Nat) (v : W32) : State := (s.wr a v).wrStage a v
      let s := put (put (put s (R.cell_LMAP c) r.lmap) (R.cell_CTL_INIT c) r.ctlInit) (R.cell_SPILL_BASE c) r.spill
      (s.wr (R.cell_CFG c) r.cfg).setLahar { s.lahar with cellWait := s.lahar.cellWait.filter (· ≠ c) }

/-- Cells that wait take the values once they hold no old operation. -/
def State.cellsTake (s : State) : State :=
  s.lahar.cellWait.foldl (fun s c => if s.cellHasOld c then s else s.cellTake c) s

/-! ## Aborts (R101, R165, R166) -/

/-- What Lahar does with an aborted operation (Table 5.4), or with one whose retired cell has no target (R172). -/
inductive Disposition where
  | refire
  | hold
  | quarantine
  | strand
  deriving DecidableEq, Repr

/-- The disposition of a trap code (Tables 3.11 and 5.4). -/
def trapDisposition (code : Nat) : Disposition :=
  if code = 4 then .hold else if code = 6 || code = 7 then .refire else .quarantine

/-- Put an operation back in its executing cell's list at the head of its priority, to fire again with its tokens (R165, R166). -/
def State.refireOp (s : State) (key : Nat) : State :=
  let r := s.opRec key
  let c := s.execCell r.cell
  let s := s.setOpSt key { s.opSt key with phase := 1, fire := s.stamp }
  s.setReady c (readyHead { key := key, prio := r.prio, cyc := ecyc s.now, again := true } (s.readyOf c))

/-- LOAD_STAT when no old operation is fired any more (R178). -/
def State.activationEnd (s : State) : State :=
  if s.f R.lahar_LOAD_STAT 3 0 = 4 && s.lahar.act.isNone && s.firedOps.all (fun k => k / 4096 = s.bankNo) then
    s.wr R.lahar_LOAD_STAT (BitVec.ofNat 32 (if (s.graphOf (1 - s.bankNo)).isSome then 2 else 0))
  else s

/-- The disposition of an aborted operation (Table 5.4), counted on its executing cell's page. An abort without a trap leaves the last trap code (R179). -/
def State.dispose (s : State) (key : Nat) (d : Disposition) (code : Nat) : State :=
  if key = runtimeKey then s
  else
    let x := s.opSt key
    let s := s.setOpSt key { x with aborts := min (x.aborts + 1) 255, code := if code = 0 then x.code else code }
    let a := R.cell_ABORT_CNT (s.execCell (s.opRec key).cell)
    match d with
    | .refire => (s.inc a 15 0).refireOp key
    | .hold =>
      let s := ((s.setOpSt key { s.opSt key with phase := 4 }).inc a 31 16).irqB P.lahar 11
      ((s.afterService key).cellsTake).activationEnd
    | .strand => ((((s.setOpSt key { s.opSt key with phase := 4 }).inc a 31 16).afterService key).cellsTake).activationEnd
    | .quarantine =>
      let s := ((s.setOpSt key { s.opSt key with phase := 5 }).inc a 31 16).irqB P.lahar 12
      let s := if s.b R.lahar_QUAR_STAT 0 then s else (s.wr R.lahar_QUAR_STAT (BitVec.ofNat 32 (code * 16 + key % 4096 * 65536))).hwSetBits R.lahar_QUAR_STAT 1
      ((s.afterService key).cellsTake).activationEnd

/-- Abort the operation at depth d of engine e: its commit buffer, posted words, bank and frame are abandoned (R101). -/
def State.abortAt (s : State) (e d : Nat) (disp : Disposition) (code : Nat) : State :=
  let g := s.eng e
  let n := g.servs.length
  match g.servs[n - 1 - d]? with
  | none => s
  | some v =>
    let s := s.perfEv e 0x34 1 none
    let s :=
      if d + 1 = n then s.popTop e
      else s.setEng e { s.eng e with servs := (s.eng e).servs.set (n - 1 - d) { v with ghost := true, cbuf := [], posted := [], loads := [], walks := [] } }
    let s := if d + 1 = n && (s.eng e).mode = 1 then s.setEng e { s.eng e with mode := 0 } else s
    s.dispose v.key disp code

/-- A pre-emption that was asked for and not accepted: its operation waits in the ready list again. -/
def State.unask (s : State) (e : Nat) : State :=
  match (s.eng e).preq with
  | some x =>
    let s := s.setEng e { s.eng e with preq := none }
    if x.key = runtimeKey then s
    else
      let c := s.execCell (s.opRec x.key).cell
      s.setReady c (readyInsert x (s.readyOf c))
  | none => s

/-- Abort everything in service on an engine, and return a pre-emption asked for to the ready list (R169, R170). -/
def State.abortEngine (s : State) (e : Nat) (disp : Disposition := .refire) : State :=
  let g := s.eng e
  let s := (s.unask e).setEng e { (s.unask e).eng e with mode := 0 }
  let l := (List.range g.servs.length).reverse
  let s := l.foldl (fun s d =>
    match g.servs[g.servs.length - 1 - d]? with
    | some v => if v.ghost then s else s.abortAt e d disp 0
    | none => s) s
  s.setEng e { s.eng e with servs := [], slotClass := 0 }

/-! ## Retirement (R169 to R172, R640) -/

/-- The cell record of a cell in the active graph (Table 5.9); the page's own CFG when none runs. -/
def State.cellCfg (s : State) (c : Nat) : W32 :=
  match s.graph with
  | some g => (g.cells.getD c { lmap := 0, ctlInit := 0, spill := 0, cfg := 0 }).cfg
  | none => s.rd (R.cell_CFG c)

/-- Whether a cell can be a target: in service, hosting no other cell's operations, with room (R172). -/
def State.targetOk (s : State) (c home : Nat) : Bool :=
  !s.cellRetired c && !s.b (R.cell_REMAP c) 24 && fld (s.cellCfg c) 11 8 ≥ home

/-- Follow FALLBACK for at most n steps to the first cell that qualifies (R172). -/
def State.findTarget (s : State) (home : Nat) (c : Nat) : Nat → Option Nat
  | 0 => none
  | n + 1 => let f := fld (s.cellCfg c) 14 12
    if s.targetOk f home then some f else s.findTarget home f n

/-- Put n bytes from src of an earlier state's memory at dst, with the words that have a double-bit error or are poisoned poisoned there (R171). -/
def State.carry (s old : State) (src dst n : Nat) : State :=
  let cells := old.mem.filter fun x => src ≤ x.1 && x.1 < src + n
  let bad := old.ecc.filter fun x => src ≤ x.1 && x.1 < src + n
  { s with mem := cells.foldl (fun (m : Tab Byte) (x : Nat × Byte) => Tab.set m (x.1 - src + dst) x.2 0) (Tab.clear s.mem dst (dst + n)),
           ecc := bad.foldl (fun (m : Tab Ecc) (x : Nat × Ecc) => Tab.set m (x.1 - src + dst) Ecc.poison .good) (Tab.clear s.ecc dst (dst + n)) }

/-- Offsets from src of the words among n bytes that have a double-bit error. -/
def State.badWords (s : State) (src n : Nat) : List Nat := (s.ecc.filter fun x => src ≤ x.1 && x.1 < src + n && x.2 = .double).map fun x => x.1 - src

/-- Where the home region of cell c lies now, for its first n bytes: redirected already, or in place (R171, R640). -/
def State.homeParts (s : State) (c n : Nat) : Nat × Nat :=
  match s.movedTo c with
  | some x => (cellMemAddr x.target x.base, min n x.size)
  | none => (cellMemAddr c 0, n)

/-- The copy of the home region of cell c, wherever it lies, to the reserve region of g begins: the addresses are redirected and the bytes move (R171). A double-bit
error on the way is met later (copyMeet). -/
def State.moveHome (s : State) (c g : Nat) : State :=
  let n := fld (s.cellCfg c) 3 0 * 0x10000
  let base := fld (s.cellCfg g) 7 4 * 0x10000
  let dst := cellMemAddr g base
  let p := s.homeParts c n
  let bad := s.badWords p.1 p.2 ++ (s.badWords (cellMemAddr c p.2) (n - p.2)).map (· + p.2)
  let old := s
  let s := (s.carry old p.1 dst p.2).carry old (cellMemAddr c p.2) (dst + p.2) (n - p.2)
  let s := s.wr (R.cell_COPY_STAT g) 1
  let s := s.setB (R.STATUS (cellPage g)) 9 true
  s.setLahar { s.lahar with copies := Tab.set s.lahar.copies c (some { target := g, since := s.now, base := base, size := n, bad := bad }) none }

/-- Whether the home region of cell c already lies where target g's reserve would put it. -/
def State.homeThere (s : State) (c g : Nat) : Bool :=
  match s.movedTo c with
  | some x => x.target = g && x.base = fld (s.cellCfg g) 7 4 * 0x10000 && x.size = fld (s.cellCfg c) 3 0 * 0x10000
  | none => false

/-- Point home cell h at target g, and show it on both pages (Table 5.12). -/
def State.remapTo (s : State) (h g : Nat) : State :=
  let s := (s.setF (R.cell_REMAP h) 2 0 g).setB (R.cell_REMAP h) 8 (g ≠ h)
  s.irqIf (g ≠ h) (cellPage h) 9

/-- The ready list of cell c moves to cell g (R170). -/
def State.moveReady (s : State) (c g : Nat) : State :=
  let l := s.readyOf c
  let s := s.setReady c []
  s.setReady g (l.foldl (fun r x => readyInsert x r) (s.readyOf g))

/-- An operation whose cell has no target is HELD, and counted (R172, R180). -/
def State.strandOp (s : State) (c key : Nat) : State :=
  let x := s.opSt key
  if x.phase = 4 || x.phase = 5 then s else (s.setOpSt key { x with phase := 4 }).inc (R.cell_ABORT_CNT c) 31 16

/-- The operations that cell c would run: those of the active graph, and those of the old graph that are fired (R178). -/
def State.opsOf (s : State) (c : Nat) : List Nat :=
  ((match s.graph with
    | some g => (List.range g.ops.length).map (opKey s.bankNo ·)
    | none => []) ++ s.firedOps.filter (· / 4096 ≠ s.bankNo)).filter fun k => s.execCell (s.opRec k).cell = c

/-- With no target, the operations that would need one are HELD (R172). -/
def State.holdCell (s : State) (c : Nat) : State :=
  let l := s.opsOf c
  let s := l.foldl (fun s k => s.strandOp c k) (s.setReady c [])
  ((l.foldl (fun s k => s.afterService k) s).cellsTake).activationEnd

/-- The target of a retired cell (R172): none when it was hosting another cell's operations. -/
def State.targetOf (s : State) (c : Nat) : Option Nat :=
  if s.b (R.cell_REMAP c) 24 then none else s.findTarget (fld (s.cellCfg c) 3 0) c 7

/-- A retired cell's work moves to its target (R170, R171). -/
def State.moveTo (s : State) (c g : Nat) : State :=
  let s := (List.range 8).foldl (fun s h => if s.execCell h = c then s.remapTo h g else s) s
  let s := (s.setF (R.cell_REMAP g) 18 16 c).setB (R.cell_REMAP g) 24 true
  let s := s.setB (R.STATUS (cellPage g)) 8 true
  let s := s.moveReady c g
  let s := if s.homeThere c g then s else s.moveHome c g
  s.setLahar { s.lahar with reroute := s.lahar.reroute ++ [(c, s.cycle)] }

/-- No target qualifies for a retired cell (R172). -/
def State.noTarget (s : State) (c : Nat) : State :=
  let s := ((s.holdCell c).irqB P.lahar 15).failure 12
  if s.pair.claim && s.pairMode && s.withPartner then s.orderlyRelease else s

/-- Find a target for a retired cell and move to it, or hold what runs there (R170 to R172). -/
def State.placeCell (s : State) (c : Nat) : State :=
  match s.targetOf c with
  | some g => s.moveTo c g
  | none => s.noTarget c

/-- ECYC of an engine (R585); a retired engine keeps its count (R584). -/
def State.ecycOf (s : State) (e : Nat) : Nat :=
  match Tab.get s.perf.ecycKept e none with
  | some n => n
  | none => match Tab.get s.perf.ecycFrom (e / 4) none with
    | some k => (ecyc s.now - k) % 2 ^ 64
    | none => 0

/-- An engine that retires keeps its cycle count (R584). -/
def State.keepEcyc (s : State) (e : Nat) : State :=
  { s with perf := { s.perf with ecycKept := Tab.set s.perf.ecycKept e (some (s.ecycOf e)) none } }

/-- Every operation in service on a cell is aborted (R170). -/
def State.abortCell (s : State) (c : Nat) (disp : Disposition) : State :=
  (List.range 4).foldl (fun s l => (s.abortEngine (4 * c + l) disp).slots (4 * c + l) 5) s

/-- Retire cell c (R170): its bank is retired with it, its engines leave service, and its operations move or are held. What is aborted is re-fired on the
target; without one it is HELD (R172). -/
def State.retireCell (s : State) (c : Nat) : State :=
  if s.cellRetired c then s
  else
    let s := s.setB (R.STATUS (cellPage c)) 3 true
    let s := match s.targetOf c with
      | some g => (s.moveTo c g).abortCell c .refire
      | none => (s.abortCell c .strand).noTarget c
    let s := (List.range 4).foldl (fun s l => s.keepEcyc (4 * c + l)) s
    s.wr (R.cell_ENG_IN_SERVICE c) 0

/-- Retire engine e (R169); a second retired engine retires the cell (R170). -/
def State.retireEngine (s : State) (e : Nat) : State :=
  if !s.engUp e then s
  else
    let c := e / 4
    let s := (s.slots e 5).keepEcyc e
    let s := (s.setB (R.cell_ENG_IN_SERVICE c) (e % 4) false).irqB (cellPage c) 8
    if ((List.range 4).filter fun l => !s.engUp (4 * c + l)).length ≥ 2 && !s.cellRetired c then s.retireCell c else s.abortEngine e

/-- A fault of the engine class (Table 14.1). -/
def State.engineFault (s : State) (e : Nat) : State :=
  let r := s.fdFault 4 e
  if r.2 then r.1.retireEngine e else r.1

/-- A fault of the cell memory bank class (Table 14.1). -/
def State.bankFault (s : State) (c : Nat) : State :=
  let r := s.fdFault 5 c
  if r.2 then r.1.retireCell c else r.1

/-- The engine whose memory holds a device address. -/
def engineOf (a : Nat) : Option Nat := if 0x00800000 ≤ a ∧ a < 0x01000000 then some ((a - 0x00800000) / 0x40000) else none

/-- A double-bit error met at a device address (R17): reported under the class of its memory, and counted by Sinter as ECC2. -/
def State.doubleError (s : State) (a : Nat) : State :=
  let s := match engineOf a, cellOf a with
    | some e, _ => (s.hwCount (R.engine_ECC_STAT e) 31 16).engineFault e
    | none, some (c, _) => s.bankFault c
    | none, none => s.setEcc a .poison
  s.failure 3

/-- A double-bit error or a poisoned location met at a: reported once as R17 states; a poisoned location read again is no new error. -/
def State.meetEcc (s : State) (a : Nat) : State :=
  if s.eccAt a = .double then s.doubleError a else s

/-- A hardware reader meets the words at the places of a list (R17): the state after, and whether one of them has an error, so that the read ends in an error response. -/
def State.meetAll (s : State) (l : List Nat) : State × Bool :=
  (l.foldl (fun s a => s.meetEcc (loc64 (s.physD a))) s, l.any fun a => s.eccAt (loc64 (s.physD a)) ≠ .good)

/-! ## What the copy of a home region meets (R171) -/

/-- The background copy of cell c's home region has met the words at offsets in l: those with an error are marked in the target's COPY_STAT and reported once
under R17. -/
def State.copyMeet (s : State) (c : Nat) (x : CopySt) (l : List Nat) : State :=
  if l.isEmpty then s
  else
    let s := s.setLahar { s.lahar with copies := Tab.set s.lahar.copies c (some { x with bad := x.bad.filter fun o => !l.contains o }) none }
    let s := s.setB (R.cell_COPY_STAT x.target) 2 true
    l.foldl (fun s _ => (s.bankFault c).failure 3) s

/-- Bytes the background copy has moved by now: 16 in each engine cycle (R171). -/
def State.copied (s : State) (x : CopySt) : Nat := if s.b (R.cell_COPY_STAT x.target) 0 then (ecyc s.now - ecyc x.since) / 4 * 64 else x.size

/-- Every copy has met the words that lie in lines it has moved by now. -/
def State.copiesMeet (s : State) : State :=
  (List.range 8).foldl (fun s c => match s.movedTo c with
    | some x => s.copyMeet c x (x.bad.filter fun o => o < s.copied x)
    | none => s) s

/-- An access to a location of a line that is not yet copied copies it first (R171). -/
def State.copyTouch (s : State) (a : Nat) : State :=
  match cellOf a with
  | some (c, off) => (match s.movedTo c with
    | some x => s.copyMeet c x (x.bad.filter fun o => o / 64 = off / 64)
    | none => s)
  | none => s

end Sys2Proof.Machine
end

