-- ==== Sys2Proof/Machine/Lp.lean ====
section
/-! DEFINITION. Line positions: encoders, the estimator and its prediction, angle event units and compare outputs (chapter 8). -/

namespace Sys2Proof.Machine

def State.setLp (s : State) (x : LpSt) : State := { s with lp := x }

def State.lpSrc (s : State) (l : Nat) : LpSrcSt := Tab.get s.lp.src l {}

def State.setLpSrc (s : State) (l : Nat) (x : LpSrcSt) : State := s.setLp { s.lp with src := Tab.set s.lp.src l x {} }

def State.aeSt (s : State) (u : Nat) : AeSt := Tab.get s.lp.aes u {}

def State.setAe (s : State) (u : Nat) (x : AeSt) : State := s.setLp { s.lp with aes := Tab.set s.lp.aes u x {} }

def State.cmp (s : State) (c : Nat) : CmpSt := Tab.get s.lp.cmps c {}

/-- Store a compare output; CSTAT.COUNT shows the length of its list. -/
def State.setCmp (s : State) (c : Nat) (x : CmpSt) : State :=
  (s.setLp { s.lp with cmps := Tab.set s.lp.cmps c x {} }).setF (R.cmp_CSTAT c) 8 0 x.list.length

/-! ## Registers -/

def State.lpKind (s : State) (l : Nat) : Nat := s.f (R.lpSrc_LPCFG l) 2 0

def State.lpLost (s : State) (l : Nat) : Bool := s.b (R.lpSrc_LPSTAT l) 2

/-- LP(k) (R265). -/
def State.lpk (s : State) (l : Nat) : W48 := s.rd48 (R.lpSrc_LPPOS_LO l)

/-- The velocity and acceleration, Q15.32 counts per cycle. -/
def State.lpVel (s : State) (l : Nat) : Int := (s.rd48 (R.lpSrc_LPVEL_LO l)).toInt
def State.lpAcc (s : State) (l : Nat) : Int := (s.rd48 (R.lpSrc_LPACC_LO l)).toInt

/-- Set v and a, with the bits of LPSTAT that follow them. -/
def State.setLpVel (s : State) (l : Nat) (v a : Int) : State :=
  let s := (s.wr48 (R.lpSrc_LPVEL_LO l) (w48 v)).wr48 (R.lpSrc_LPACC_LO l) (w48 a)
  (s.setB (R.lpSrc_LPSTAT l) 1 (v ≠ 0)).setB (R.lpSrc_LPSTAT l) 3 (v < 0)

def State.qeRetired (s : State) (q : Nat) : Bool := s.b (R.STATUS (P.qe q)) 3

/-- A source whose estimate can be extended: not OFF and not LOST (R262). -/
def State.lpLive (s : State) (l : Nat) : Bool := s.lpKind l ≠ 0 && !s.lpLost l

/-! ## The estimate (R264, R266) -/

/-- v·u + a·u²/2 for u = dt / T, in 2^-32 count, over the divisor 2·T². -/
def extend (v a dt tn : Int) : Int := 2 * v * dt * tn + a * dt * dt

/-- The estimate at dt ns after the sample, rounded to 2^-32 count. -/
def State.lpEst (s : State) (l : Nat) (dt : Int) : W64 :=
  let tn : Nat := s.tNs
  (s.lpSrc l).lam + BitVec.ofInt 64 (rndDiv (extend (s.lpVel l) (s.lpAcc l) dt tn) (2 * tn * tn))

/-- The estimate that extends a sample by v·u + a·u²/2, summed exactly and rounded once to 2^-16 count (R264, R266). -/
def lpRound (lam : W64) (v a dt : Int) (tn : Nat) : W48 := w48 (rndDiv (lam.toInt * (2 * tn * tn) + extend v a dt tn) (2 * tn * tn * 65536))

/-- A position of 2^-32 count rounded to 2^-16 count. -/
def lp16 (x : W64) : W48 := w48 (rndDiv x.toInt 65536)

/-- The line position estimated at a device time. -/
def State.lpAt (s : State) (l : Nat) (t : W48) : W48 :=
  if s.lpLive l then lpRound (s.lpSrc l).lam (s.lpVel l) (s.lpAcc l) (nsDiff t (s.lpSrc l).tl) s.tNs else s.lpk l

/-- The present estimate of source l. -/
def State.est (s : State) (l : Nat) : LpEst :=
  let e := s.lpSrc l
  { live := s.lpLive l, lpk := s.lpk l, lam := e.lam, tl := e.tl, v := s.lpVel l, a := s.lpAcc l, tk := s.tk, tn := s.tNs }

/-- Whether an estimate reaches x while moving in direction sg (1 or -1) at some time after d0 ns and at or before d1 ns from the cycle start. Times run
over the exact estimate: it starts short of x, and either ends at or beyond x or turns there. -/
def LpEst.reaches (e : LpEst) (x : W48) (sg d0 d1 : Int) : Bool :=
  let tn : Int := e.tn
  let base := nsDiff e.tk e.tl
  let v := sg * e.v
  let a := sg * e.a
  let diff := sg * (e.lam - BitVec.ofNat 64 (x.toNat * 65536)).toInt
  let f (d : Int) : Int := 2 * tn * tn * diff + extend v a (base + d) tn
  let v' (d : Int) : Int := v * tn + a * (base + d)
  f d0 < 0 && (f d1 ≥ 0 || (a < 0 && v' d0 > 0 && v' d1 < 0 && 2 * (-a) * diff + v * v ≥ 0))

/-- The least n below 2^fuel more than base for which p holds, given that p is monotone; the bound when there is none. -/
def leastFrom (p : Nat → Bool) (base : Nat) : Nat → Nat
  | 0 => base
  | k + 1 => if p (base + 2 ^ k - 1) then leastFrom p base k else leastFrom p (base + 2 ^ k) k

/-- The prediction of x in direction sg (R266), as a number of 2 ns ticks from the cycle start, within the cycle. d0: the time in ns from which it counts. -/
def LpEst.predict (e : LpEst) (x : W48) (sg d0 : Int) : Option Nat :=
  if sg = 0 || !e.live then none
  else
    let n := leastFrom (fun n => e.reaches x sg d0 (2 * n)) 0 17
    if 2 * n ≤ e.tn && e.reaches x sg d0 (2 * n) then some n else none

def State.lpPredict (s : State) (l : Nat) (x : W48) (sg d0 : Int) : Option Nat := (s.est l).predict x sg d0

/-- The estimate at dt ns after the cycle start, rounded to 2^-16 count. -/
def LpEst.at (e : LpEst) (dt : Int) : W48 :=
  if e.live then lpRound e.lam e.v e.a (nsDiff e.tk e.tl + dt) e.tn else e.lpk

/-! ## Angle event units (R268 to R272) -/

/-- A unit's page and index within it. -/
def aePg (u : Nat) : Nat := u / 128
def aeIx (u : Nat) : Nat := u % 128

def State.aeCfg (s : State) (u : Nat) : W32 := s.rd (R.ae_AECFG (aePg u) (aeIx u))
def aeStatAddr (u : Nat) : Nat := R.ae_AESTAT (aePg u) (aeIx u)
def State.aePend (s : State) (u : Nat) : Bool := s.b (aeStatAddr u) 0
def State.aeX (s : State) (u : Nat) : W48 := s.rd48 (R.ae_X_LO (aePg u) (aeIx u))

/-- The direction of a DIR code on a source: for either the sign of the velocity (R268). -/
def State.lpDir (s : State) (l dir : Nat) : Int := if dir = 1 then 1 else if dir = 2 then -1 else sgn (s.lpVel l)

/-- Whether an armed unit's time has come. -/
def State.aeReady (s : State) (u : Nat) : Bool :=
  let x := s.aeSt u
  s.aePend u && x.armAt ≤ s.now &&
  (x.due || (match x.at' with
    | some t => nsDiff s.nsNow t ≥ 0
    | none => false))

/-- Judge a pending unit (R270): at or behind LP(k) it fires at the arming time and is late; otherwise it is predicted, and armed when the prediction falls
before the next cycle start (R27). armAt: the instant its arming is complete (R267). An armed time that has passed stands (R28). -/
def State.aeJudge (s : State) (u : Nat) (armAt : Time) : State :=
  if !s.aePend u || s.aeReady u then s
  else
    let c := s.aeCfg u
    let l := fld c 2 1
    let sg := s.lpDir l (fld c 4 3)
    let x := s.aeX u
    let st := aeStatAddr u
    if sg ≠ 0 && sg * (x - s.lpk l).toInt ≤ 0 then
      (((s.setAe u { armAt := armAt, due := true, at' := none }).setB st 1 true).setB st 2 true).irqB (P.ae (aePg u)) 9
    else
      match s.lpPredict l x sg 0 with
      | some n =>
        let arm := 2 * n < s.tNs
        (s.setAe u { armAt := armAt, due := false, at' := if arm then some (s.tk + BitVec.ofNat 48 (2 * n)) else none }).setB st 1 arm
      | none => (s.setAe u { armAt := armAt, due := false, at' := none }).setB st 1 false

/-- The arming time of the present cycle, or now when it has passed (R267). -/
def State.armTime (s : State) : Time := max s.now (s.tau + nsT 320)

/-- A unit fires once at x, under its configuration c (R269). -/
def State.aeToken (s : State) (u : Nat) (x : W48) (c : W32) : State :=
  let st := aeStatAddr u
  let s := (s.inc st 31 16).postAsync 3 u x
  if bit c 5 then
    (s.hwSetBits (R.ae_AE_FIRED (aePg u) (aeIx u / 32)) (BitVec.ofNat 32 (2 ^ (aeIx u % 32)))).irqB (P.ae (aePg u)) 8
  else s

/-- X advances by n periods in direction sg. -/
def State.aeAdvance (s : State) (u n : Nat) (sg : Int) : State :=
  s.wr48 (R.ae_X_LO (aePg u) (aeIx u)) (s.aeX u + w48 (sg * n * fld (s.aeCfg u) 31 8 * 65536))

/-- A unit fires (R269) and, with a period, goes on (R271). -/
def State.aeFire (s : State) (u : Nat) : State :=
  let c := s.aeCfg u
  let st := aeStatAddr u
  let s := s.aeToken u (s.aeX u) c
  let per := fld c 31 8
  if per = 0 then ((s.setAe u {}).setB st 0 false).setB st 1 false
  else
    let l := fld c 2 1
    let sg := s.lpDir l (fld c 4 3)
    let s := s.aeAdvance u 1 sg
    let behind : Int := -(sg * (s.aeX u - s.lpk l).toInt)
    let s :=
      if behind > 0 then
        let s := s.aeToken u (s.aeX u) c
        let m := behind.toNat / (per * 65536) + 1
        (s.aeAdvance u m sg).inc st 15 8 (m - 1)
      else s
    (s.setAe u {}).aeJudge u (s.now + nsT 40)

/-- ANGLE_EVENT_FIRE (R269 to R271). -/
def execAngleEventFire (t : Time) (u : Fin 256) (s : State) : Host.Outcome State Fault Refusal :=
  let s := s.tick t
  .next (if s.aeReady u then s.aeFire u else s)

/-- A commit has set a unit's X or AECFG (R272): old is the state before it. A firing whose time has come fires the old X. -/
def State.aeCommit (s : State) (u : Nat) (old : State) : State :=
  let st := aeStatAddr u
  let s := if old.aeReady u then s.aeToken u (old.aeX u) (old.aeCfg u) else s
  let s := ((s.setB st 0 (bit (s.aeCfg u) 0)).setB st 2 false).setB st 1 false
  (s.setAe u {}).aeJudge u s.armTime

/-! ## Compare outputs (R275 to R282) -/

def State.cmpCfg (s : State) (c : Nat) : W32 := s.rd (R.cmp_CMPCFG c)
def State.cmpLp (s : State) (c : Nat) : Bool := bit (s.cmpCfg c) 1
def State.cmpSrc (s : State) (c : Nat) : Nat := fld (s.cmpCfg c) 4 2
def State.cmpMod (s : State) (c : Nat) : Bool := bit (s.cmpCfg c) 5 && !s.cmpLp c

/-- An output is stopped by its source (R282). -/
def State.cmpStopped (s : State) (c : Nat) : Bool := if s.cmpLp c then s.lpLost (s.cmpSrc c) else s.qeRetired (s.cmpSrc c)

/-- The count a QE output compares. -/
def State.cmpCount (s : State) (c : Nat) : W32 := s.rd (if s.cmpMod c then R.qe_ANG (s.cmpSrc c) else R.qe_POS (s.cmpSrc c))

/-- The direction of motion of an output's source: for LP the sign of the velocity, positive when it is 0 (R277). -/
def State.cmpMotion (s : State) (c : Nat) : Int :=
  if s.cmpLp c then (if s.lpVel (s.cmpSrc c) < 0 then -1 else 1) else if s.b (R.qe_QSTAT (s.cmpSrc c)) 3 then -1 else 1

def State.cmpIrq (s : State) (c : Nat) : State := s.irqB P.cmp (8 + c)

/-- A CSTAT bit is set, with the output's interrupt (R285). -/
def State.cmpFlag (s : State) (c i : Nat) : State := (s.hwSetBits (R.cmp_CSTAT c) (BitVec.ofNat 32 (2 ^ i))).cmpIrq c

/-- The level at the pin: active while a pulse runs, high for POL 0 (R279); the standby of a pair holds the idle level, as a stopped output does (R282). -/
def State.cmpLevel (s : State) (c : Nat) (on : Bool) : Bool := (on && !s.isStandby && !s.cmpStopped c) != bit (s.cmpCfg c) 8

/-- Drive the pin. -/
def State.cmpPin (s : State) (c : Nat) (on : Bool) : State := (s.setB (R.cmp_CSTAT c) 25 on).emit (.cmpOut c (s.cmpLevel c on))

/-- The device has become the standby of a pair, or is it no longer: the pins of the outputs that pulse follow (R282). -/
def State.cmpPins (s : State) : State :=
  (List.range 8).foldl (fun s c => if (s.cmp c).pulse.isSome then s.emit (.cmpOut c (s.cmpLevel c true)) else s) s

/-- Leave LOCKSTEP, and drive the pins as a device that is no standby. -/
def State.leaveStandby (s : State) : State := if s.isStandby then s.leaveLockstep.cmpPins else s.leaveLockstep

/-- The output pulses for PW samples of 4 ns (R279); with reach, a pulse still active is an overlap. -/
def State.cmpPulse (s : State) (c : Nat) (reach : Bool) : State :=
  let x := s.cmp c
  let fin := s.now + nsT 4 * s.f (R.cmp_PW c) 19 0
  let s := if x.pulse.isSome && reach then s.cmpFlag c 18 else s
  (s.setCmp c { s.cmp c with pulse := some fin }).cmpPin c true

/-- The direction of an entry. -/
def State.cmpDir (s : State) (c dir : Nat) : Int := if dir = 1 then 1 else if dir = 2 then -1 else s.cmpMotion c

/-- Whether an entry is late as it becomes head (R277, R278). -/
def State.cmpLate (s : State) (c : Nat) (x : W48) (dir : Nat) : Bool :=
  let sg := s.cmpDir c dir
  if s.cmpMod c then false
  else if s.cmpLp c then sg * (x - s.lpAt (s.cmpSrc c) s.nsNow).toInt ≤ 0
  else sg * (BitVec.ofNat 32 (x.toNat / 65536) - s.cmpCount c).toInt ≤ 0

/-- Whether the head of an LP output is due: its armed time less ADV has come (R275, R281). -/
def State.cmpDue (s : State) (c : Nat) : Bool :=
  let x := s.cmp c
  bit (s.cmpCfg c) 0 && !s.cmpStopped c &&
  (x.reached || (s.cmpLp c && x.armAt ≤ s.now && (match x.at' with
    | some t => nsDiff s.nsNow t + fld (s.cmpCfg c) 21 16 ≥ 0
    | none => false)))

/-- Predict and arm the head of an LP output (R266, R267). -/
def State.cmpArm (s : State) (c : Nat) (armAt : Time) : State :=
  let x := s.cmp c
  match x.list with
  | [] => (s.setCmp c { x with at' := none }).setB (R.cmp_CSTAT c) 24 false
  | (p, dir) :: _ =>
    if s.cmpLp c then
      let l := s.cmpSrc c
      let sg := if dir = 0 then sgn (s.lpVel l) else s.cmpDir c dir
      match s.lpPredict l p sg (max 0 (nsDiff x.from' s.tk)) with
      | some n =>
        let arm := 2 * n < s.tNs
        (s.setCmp c { x with armAt := armAt, at' := if arm then some (s.tk + BitVec.ofNat 48 (2 * n)) else none }).setB (R.cmp_CSTAT c) 24 arm
      | none => (s.setCmp c { x with at' := none }).setB (R.cmp_CSTAT c) 24 false
    else s.setB (R.cmp_CSTAT c) 24 true

/-- Take late heads off the list: SKIP drops each, FIRE_NOW pulses at once (R277). The entry that stays is the head, judged. -/
def State.cmpJudgeList (s : State) (c : Nat) : List (W48 × Nat) → State
  | [] => s.setCmp c { s.cmp c with list := [], judged := false, at' := none }
  | (x, dir) :: r =>
    if s.cmpLate c x dir then
      let s := (s.cmpFlag c 16).inc (R.cmp_CNT c) 31 16
      let s := if bit (s.cmpCfg c) 7 then (s.cmpPulse c true).inc (R.cmp_CNT c) 15 0 else s
      s.cmpJudgeList c r
    else s.setCmp c { s.cmp c with list := (x, dir) :: r, judged := true, from' := s.nsNow, at' := none }

/-- At a cycle start the head of an LP output is predicted anew (R27), unless its armed time has passed (R28); one that lies at or behind LP(k) in its
direction fires at the arming time (R270, R275). -/
def State.cmpRearm (s : State) (c : Nat) : State :=
  let x := s.cmp c
  let armAt := s.tau + nsT 320
  match x.list with
  | [] => s
  | (p, dir) :: _ =>
    let l := s.cmpSrc c
    let sg := if dir = 0 then sgn (s.lpVel l) else s.cmpDir c dir
    if !bit (s.cmpCfg c) 0 || !s.cmpLp c || !x.judged || s.cmpDue c then s
    else if s.lpLive l && sg ≠ 0 && sg * (p - s.lpk l).toInt ≤ 0 then (s.setCmp c { x with armAt := armAt, at' := some s.tk }).setB (R.cmp_CSTAT c) 24 true
    else s.cmpArm c armAt

/-- Judge the head where it has not been judged while EN is 1, and arm it. -/
def State.cmpJudge (s : State) (c : Nat) : State :=
  let x := s.cmp c
  if !bit (s.cmpCfg c) 0 || x.judged || s.cmpStopped c then s
  else (s.cmpJudgeList c x.list).cmpArm c (max s.armTime (s.now + nsT 40))

/-- The head is reached (R275, R278, R279): it is consumed, with RECYCLE it is appended again, and the next head is judged. -/
def State.cmpReach (s : State) (c : Nat) : State :=
  let x := s.cmp c
  match x.list with
  | [] => s.setCmp c { x with reached := false }
  | e :: r =>
    let r' := if bit (s.cmpCfg c) 6 && s.cmpMod c then r ++ [e] else r
    let s := (s.setCmp c { x with list := r', judged := false, reached := false, at' := none }).setB (R.cmp_CSTAT c) 24 false
    ((s.cmpPulse c true).inc (R.cmp_CNT c) 15 0).cmpJudge c

/-- COMPARE_REACH (R275). -/
def execCompareReach (t : Time) (c : Fin 8) (s : State) : Host.Outcome State Fault Refusal :=
  let s := s.tick t
  .next (if s.cmpDue c then s.cmpReach c else s)

/-- A commit of the compare page: an entry reached before it fires; a head is judged anew when EN rises (R277); the pin follows POL. -/
def State.cmpCommit (s : State) (c : Nat) (old : State) : State :=
  let o := old.cmpCfg c
  let s := if (s.cmp c).reached && !bit (s.cmpCfg c) 0 then s.cmpReach c else s
  let s := if bit (s.cmpCfg c) 0 && !bit o 0 then s.setCmp c { s.cmp c with judged := false } else s
  let s := if bit (s.cmpCfg c) 8 ≠ bit o 8 then s.emit (.cmpOut c (s.cmpLevel c (s.cmp c).pulse.isSome)) else s
  s.cmpJudge c

/-- PULSE_END (R279). -/
def execPulseEnd (t : Time) (c : Fin 8) (s : State) : Host.Outcome State Fault Refusal :=
  let s := s.tick t
  .next (match (s.cmp c).pulse with
  | some e => if e ≤ s.now then (s.setCmp c { s.cmp c with pulse := none }).cmpPin c false else s
  | none => s)

/-- A push (R276). -/
def State.cmpPush (s : State) (c : Nat) (hi : W32) : State :=
  let x := s.cmp c
  let p := BitVec.ofNat 48 (x.lo.toNat + fld hi 15 0 * 2 ^ 32)
  if x.list.length ≥ 256 then s.cmpFlag c 17
  else if s.cmpMod c && p.toNat / 65536 > (s.rd (R.qe_MOD_M1 (s.cmpSrc c))).toNat then s.cmpFlag c 19
  else (s.setCmp c { x with list := x.list ++ [(p, fld hi 17 16)] }).cmpJudge c

/-- COMPARE_PUSH (R276): PUSH_HI, with PUSH_LO where the write is of 64 bits. -/
def execComparePush (t : Time) (m : Master) (c : Fin 8) (lo : Option W32) (hi : W32) (s : State) : Host.Outcome State Fault Refusal :=
  .next (s.gated t m (R.cmp_PUSH_HI c) hi fun s =>
    match lo with
    | some l => (s.setCmp c { s.cmp c with lo := l }).cmpPush c hi
    | none => s.cmpPush c hi)

def State.cmpFlush (s : State) (c : Nat) : State :=
  (s.setCmp c { s.cmp c with list := [], judged := false, reached := false, at' := none }).setB (R.cmp_CSTAT c) 24 false

/-- COMPARE_FLUSH (R279): the list empties; an active pulse is not shortened. -/
def execCompareFlush (t : Time) (m : Master) (c : Fin 8) (s : State) : Host.Outcome State Fault Refusal :=
  .next (s.gated t m (R.cmp_CMD c) 1 fun s => s.cmpFlush c)

/-- COMPARE_FORCE (R279): a pulse at once, regardless of the list. -/
def execCompareForce (t : Time) (m : Master) (c : Fin 8) (s : State) : Host.Outcome State Fault Refusal :=
  .next (s.gated t m (R.cmp_CMD c) 2 fun s => s.cmpPulse c false)

/-- An output whose source has stopped: its pin holds the idle level, its entries are kept (R282). -/
def State.cmpStop (s : State) (c : Nat) : State :=
  if bit (s.cmpCfg c) 0 then
    (((s.setCmp c { s.cmp c with pulse := none, reached := false, judged := false, at' := none }).cmpPin c false).setB (R.cmp_CSTAT c) 24 false).cmpIrq c
  else s

/-- Stop every output that p picks. -/
def State.cmpStops (s : State) (p : Nat → Bool) : State := (List.range 8).foldl (fun s c => if p c then s.cmpStop c else s) s

/-! ## Quadrature inputs (R252 to R258) -/

def State.qeEn (s : State) (q : Nat) : Bool := s.b (R.qe_QCFG q) 8

/-- Whether an accepted transition raises the count (R253): A leads B. -/
def qeUp (onB level a b inv : Bool) : Bool := (if onB then level == a else level != b) != inv

/-- Outputs that compare channel q note the entry the new count reaches (R275). -/
def State.qeCompare (s : State) (q : Nat) (up : Bool) : State :=
  (List.range 8).foldl (fun s c =>
    let x := s.cmp c
    if bit (s.cmpCfg c) 0 && !s.cmpLp c && s.cmpSrc c = q && x.judged && !x.reached then
      match x.list with
      | [] => s
      | (p, dir) :: _ =>
        if (dir = 0 || dir = (if up then 1 else 2)) && p.toNat / 65536 = (s.cmpCount c).toNat then s.setCmp c { x with reached := true } else s
    else s) s

/-- Heads reached in an earlier sample are taken before a new one counts. -/
def State.qeSettle (s : State) (q : Nat) : State :=
  (List.range 8).foldl (fun s c => if (s.cmp c).reached && !s.cmpLp c && s.cmpSrc c = q then s.cmpReach c else s) s

/-- The channel counts one up or down (R253, R254). -/
def State.qeCount (s : State) (q : Nat) (up : Bool) : State :=
  let m := (s.rd (R.qe_MOD_M1 q)).toNat
  let a := (s.rd (R.qe_ANG q)).toNat
  let p := s.rd (R.qe_POS q)
  let s := s.wr (R.qe_POS q) (if up then p + 1 else p - 1)
  s.wr (R.qe_ANG q) (BitVec.ofNat 32 (if up then (if a ≥ m then 0 else a + 1) else if a = 0 then m else a - 1))

def State.qeTransition (s : State) (q : Nat) (onB level : Bool) (stamp : W48) : State :=
  let st := R.qe_QSTAT q
  let a := s.b st 0
  let b := s.b st 1
  if (if onB then b else a) == level || s.qeRetired q then s
  else
    let s := s.setB st (b2n onB) level
    if !s.qeEn q then s
    else
      let up := qeUp onB level a b (s.b (R.qe_QCFG q) 9)
      let s := s.qeSettle q
      let s := (s.setB st 3 (!up)).qeCount q up
      let s := s.setLp { s.lp with edge := Tab.set s.lp.edge q stamp 0 }
      (s.qeCompare q up).fdGood 6 q

/-- QE_TRANSITION (R253): an accepted transition of A, or of B. -/
def execQeTransition (t : Time) (q : Fin 8) (onB level : Bool) (stamp : W48) (s : State) : Host.Outcome State Fault Refusal :=
  let s := s.tick t
  .next (if s.blockInReset 0x09 then s else s.qeTransition q onB level stamp)

/-- An index (R257): Z has gone to its active level. -/
def State.qeIndex (s : State) (q : Nat) : State :=
  let c := s.rd (R.qe_QCFG q)
  let st := R.qe_QSTAT q
  let s := s.setB st 2 (!bit c 10)
  if !bit c 8 || s.qeRetired q || (bit c 12 && !s.b st 10) then s
  else
    let s := (s.wr (R.qe_IDX_POS q) (s.rd (R.qe_POS q))).wr (R.qe_IDX_ANG q) (s.rd (R.qe_ANG q))
    let s := (s.hwSetBits st 0x200).inc (R.qe_ILL_CNT q) 31 16
    let s := if bit c 12 then s.setB st 10 false else s
    let s := if bit c 11 then s.wr (R.qe_ANG q) 0 else s
    s.irqB (P.qe q) 9

/-- INDEX (R257): Z has been accepted at its active level, or has returned from it, which only QSTAT shows (R287). -/
def execIndex (t : Time) (q : Fin 8) (s : State) (active : Bool := true) : Host.Outcome State Fault Refusal :=
  let s := s.tick t
  .next (if s.blockInReset 0x09 then s else if active then s.qeIndex q else s.setB (R.qe_QSTAT q) 2 (s.b (R.qe_QCFG q) 10))

/-- ARM_IDX (R257). -/
def execArmIdx (t : Time) (m : Master) (q : Fin 8) (s : State) : Host.Outcome State Fault Refusal :=
  .next (s.gated t m (R.qe_QCMD q) 1 fun s => s.setB (R.qe_QSTAT q) 10 true)

/-- The latches of a cycle start (R258). -/
def State.qeLatch (s : State) (q : Nat) : State :=
  if s.qeEn q then
    ((s.wr (R.qe_CYC_POS q) (s.rd (R.qe_POS q))).wr (R.qe_CYC_ANG q) (s.rd (R.qe_ANG q))).wr48 (R.qe_EDGE_T_LO q) (Tab.get s.lp.edge q 0)
  else s

/-- A commit that changes MOD_M1 (R254). -/
def State.qeModCommit (s : State) (q : Nat) : State :=
  s.wr (R.qe_ANG q) (BitVec.ofNat 32 ((s.rd (R.qe_ANG q)).toNat % ((s.rd (R.qe_MOD_M1 q)).toNat + 1)))

/-! ## Sources (R259 to R265) -/

/-- A position of 2^-16 count in units of 2^-32 count. -/
def wide (x : W48) : W64 := BitVec.ofNat 64 (x.toNat * 65536)

/-- The device time of the start of cycle k, when it is among the latest. -/
def State.cycleTime (s : State) (k : Nat) : W48 := s.lp.starts.getD ((s.cycle - k) % 65536) (s.tk - BitVec.ofNat 48 ((s.cycle - k) % 65536 * s.tNs))

/-- The sample of source l for the present cycle, without its offset (Table 8.1); none when there is none. -/
def State.lpSample (s : State) (l : Nat) : Option (W64 × W48) :=
  let c := s.rd (R.lpSrc_LPCFG l)
  let n := fld c 14 8
  match fld c 2 0 with
  | 1 =>
    let p := wide (BitVec.ofNat 48 ((s.rd (R.qe_CYC_POS n)).toNat * 65536))
    some (if bit c 3 then -p else p, s.rd48 (R.qe_EDGE_T_LO n))
  | 3 => (s.lpSrc l).cast.map fun x => (wide x.lam, x.tl)
  | 4 =>
    let tag := s.rd48 (R.axis_TAG_LAST_LO n)
    if (s.lpSrc l).tag = some tag then none
    else some (wide (s.rd48 (R.axis_POS_FB_LO n)), s.cycleTime (tag.toNat / 2 ^ 32))
  | _ => none

/-- The velocity step of R227. -/
def stepVel (v w acc dec : Int) : Int :=
  if (v = 0 || sgn v = sgn w) && w.natAbs > v.natAbs then v + sgn w * min acc (w - v).natAbs
  else v - sgn (v - w) * min dec (v - w).natAbs

/-- Note the sample used: the tag of an AXIS source and the use of a broadcast. -/
def State.lpUsed (s : State) (l : Nat) : State :=
  let n := s.f (R.lpSrc_LPCFG l) 14 8
  s.setLpSrc l { s.lpSrc l with miss := 0, cast := none, tag := if s.lpKind l = 4 then some (s.rd48 (R.axis_TAG_LAST_LO n)) else none }

/-- The estimate at the cycle start. -/
def State.lpNow (s : State) (l : Nat) : W48 := lpRound (s.lpSrc l).lam (s.lpVel l) (s.lpAcc l) (nsDiff s.tk (s.lpSrc l).tl) s.tNs

/-- Set LP(k) from the estimate at the cycle start. -/
def State.lpPlace (s : State) (l : Nat) : State := s.wr48 (R.lpSrc_LPPOS_LO l) (s.lpNow l)

/-- Set the offset so that the estimate at the cycle start is old, from a new source's sample (R260). -/
def State.lpAlign (s : State) (l : Nat) (old p : W64) (t : W48) : State :=
  let s := s.setLpSrc l { s.lpSrc l with lam := p, tl := t }
  let off : W64 := old - s.lpEst l (nsDiff s.tk t)
  s.setLpSrc l { s.lpSrc l with offset := off, lam := p + off, loose := false }

/-- The first sample of a new source; one that has none yet starts at old, and takes its offset with its first sample. -/
def State.lpFirst (s : State) (l : Nat) (old : W64) : State :=
  match s.lpSample l with
  | some (p, t) => (s.lpUsed l).lpAlign l old p t
  | none => s.setLpSrc l { s.lpSrc l with offset := 0, lam := old, tl := s.tk, loose := 3 ≤ s.lpKind l }

/-- A new source takes over without a jump (R260). -/
def State.lpTake (s : State) (l : Nat) : State :=
  let x := s.lpSrc l
  let c := s.rd (R.lpSrc_LPCFG l)
  let still : Bool := s.lpLost l || !s.b (R.lpSrc_LPSTAT l) 0
  let old := if still then wide (s.lpk l) else s.lpEst l (nsDiff s.tk x.tl)
  let p := if still then s.lpk l else s.lpNow l
  let s := s.setLpSrc l { x with take := false, miss := 0, tag := none, loose := false, cast := Tab.get s.lp.casts (fld c 14 8 * 4 + fld c 17 16) none }
  let s := (s.setB (R.lpSrc_LPSTAT l) 0 (s.lpKind l ≠ 0)).setB (R.lpSrc_LPSTAT l) 2 false
  let s := s.lpFirst l old
  let s := if s.lpKind l = 2 then s.setLpVel l (s.lpVel l) 0 else s
  s.wr48 (R.lpSrc_LPPOS_LO l) p

/-- The update of R264 from a sample with its offset. -/
def State.lpEstimate (s : State) (l : Nat) (lam : W64) (t : W48) : State :=
  let c := s.rd (R.lpSrc_LPCFG l)
  let x := s.lpSrc l
  let tn : Int := s.tNs
  let vb := s.lpVel l
  let dt := nsDiff t x.tl
  let age := nsDiff s.tk t
  -- the new velocity less the old, as a quotient
  let num : Int × Nat :=
    if dt ≠ 0 then (sgn dt * ((lam - x.lam).toInt * tn - vb * dt), dt.natAbs)
    else if age ≤ 0 then (0, 1)
    else (sgn vb * min (vb.natAbs * age) (tn * 2 ^ 32) - vb * age, age.natAbs)
  let stop := fld c 2 0 = 1 && age > s.f (R.lpSrc_STOP_T l) 15 0 * tn
  let den := num.2 * 2 ^ fld c 6 4
  let v := if stop then 0 else rndDiv (vb * den + num.1) den
  let a := if stop || !bit c 7 then 0 else rndDiv num.1 den
  ((s.setLpSrc l { x with lam := lam, tl := t }).setLpVel l v a).lpPlace l

/-- The update of a source at a cycle start (R264, R261, R262). A CASCADE or AXIS source without a new sample keeps its sample, so that tλ is as before. -/
def State.lpUpdate (s : State) (l : Nat) : State :=
  let x := s.lpSrc l
  if x.take then s.lpTake l
  else if !s.lpLive l then s
  else if s.lpKind l = 2 then
    let v := s.lpVel l
    let v' := stepVel v (s.rd48 (R.lpSrc_VM_VEL_LO l)).toInt (s.rd48 (R.lpSrc_VM_ACC_LO l)).toInt (s.rd48 (R.lpSrc_VM_ACC_LO l)).toInt
    ((s.setLpSrc l { x with lam := x.lam + BitVec.ofInt 64 v, tl := s.tk }).setLpVel l v' 0).lpPlace l
  else
    match s.lpSample l with
    | some (p, t) =>
      if x.loose then ((s.lpUsed l).lpAlign l (s.lpEst l (nsDiff s.tk x.tl)) p t).wr48 (R.lpSrc_LPPOS_LO l) (s.lpNow l) else (s.lpUsed l).lpEstimate l (p + x.offset) t
    | none => (s.setLpSrc l { x with miss := x.miss + 1 }).lpEstimate l x.lam x.tl

/-- The state of a source as it is broadcast or agreed (R263). -/
def State.lpState (s : State) (l : Nat) : LpState :=
  { lam := lp16 (s.lpSrc l).lam, tl := (s.lpSrc l).tl, vbar := s.rd48 (R.lpSrc_LPVEL_LO l), acc := s.rd48 (R.lpSrc_LPACC_LO l), lpk := s.lpk l }

/-- Sources with BCAST 1 send their state (R263). -/
def State.lpSend (s : State) (l : Nat) : State :=
  if s.b (R.lpSrc_LPCFG l) 24 && s.lpKind l ≠ 0 then s.emit (.lpBroadcast l (s.lpState l)) else s

/-- Keep the estimates of the present cycle. -/
def State.keepEsts (s : State) : State := s.setLp { s.lp with ests := (((List.range 4).map s.est) :: s.lp.ests).take 8 }

/-- The estimate of source l made at the start of cycle k, when it is among the latest. -/
def State.estOf (s : State) (k l : Nat) : LpEst := ((s.lp.ests.getD (s.cycle - k) []).getD l (s.est l))

/-- The line-position work of a cycle start: latches, updates, broadcasts, and the re-prediction of every pending event (R27, R258, R264, R270). -/
def State.lpCycle (s : State) : State :=
  let s := s.setLp { s.lp with starts := (s.tk :: s.lp.starts).take 8 }
  let s := (List.range 8).foldl State.qeLatch s
  let s := (List.range 4).foldl (fun s l => (s.lpUpdate l).lpSend l) s
  let s := s.keepEsts
  let s := (List.range 256).foldl (fun s u => s.aeJudge u (s.tau + nsT 320)) s
  (List.range 8).foldl (fun s c =>
    (s.cmpJudge c).cmpRearm c) s

/-- Keep the latest broadcast of a source of a device (R263). -/
def State.keepCast (s : State) (dev l : Nat) (st : LpState) : State := s.setLp { s.lp with casts := Tab.set s.lp.casts (dev * 4 + l) (some st) none }

/-- LP_BROADCAST_RECEIVE (R262, R456). -/
def execLpBroadcastReceive (t : Time) (dev : BitVec 6) (l : Fin 4) (st : LpState) (s : State) : Host.Outcome State Fault Refusal :=
  let s := s.tick t
  .next (if s.blockInReset 0x09 then s else (List.range 4).foldl (fun s n =>
    let c := s.rd (R.lpSrc_LPCFG n)
    if fld c 2 0 = 3 && fld c 14 8 = dev.toNat && fld c 17 16 = l then s.setLpSrc n { s.lpSrc n with cast := some st } else s) (s.keepCast dev.toNat l st))

/-- A source becomes LOST (R262). -/
def State.lpLose (s : State) (l : Nat) : State :=
  if s.lpLost l then s
  else
    let s := (s.setLpVel l 0 0).setB (R.lpSrc_LPSTAT l) 2 true
    let s := ((s.irqB P.lpSrc (8 + l)).failure 13)
    s.cmpStops fun c => s.cmpLp c && s.cmpSrc c = l

/-- A commit of the source page (R260, R262): a source whose KIND or SRC changed, or that was LOST, takes over at the boundary. -/
def State.lpCommit (s : State) (l : Nat) (old : W32) : State :=
  let c := s.rd (R.lpSrc_LPCFG l)
  if fld c 2 0 ≠ fld old 2 0 || fld c 14 8 ≠ fld old 14 8 || s.lpLost l then s.setLpSrc l { s.lpSrc l with take := true } else s

/-- The agreed state of a source replaces the standby's own (Table 13.4). -/
def State.lpAgree (s : State) (l : Nat) (x : LpState) : State :=
  let s := s.setLpSrc l { s.lpSrc l with lam := wide x.lam, tl := x.tl }
  let s := (s.setLpVel l x.vbar.toInt x.acc.toInt).wr48 (R.lpSrc_LPPOS_LO l) x.lpk
  s.setLp { s.lp with ests := match s.lp.ests with
    | [] => []
    | e :: r => e.set l (s.est l) :: r }

/-! ## Delay-list ticks (R157) -/

/-- Multiples of p after one device time up to another, in ns, over the wrap of the 48-bit field; none where time has stepped back (R157, R394). -/
def multiples (p last now : Nat) : Nat :=
  if last ≤ now then (if now - last < 2 ^ 47 then now / p - last / p else 0)
  else if last - now > 2 ^ 47 then (2 ^ 48 - 1) / p - last / p + now / p + 1 else 0

/-- Ticks a list has not yet counted at this instant. -/
def State.dlTicks (s : State) (l : Nat) : Nat :=
  let r := s.dlRec l
  let from' := Tab.get s.lahar.dlFrom l 0
  match r.mode with
  | 1 => s.cycle - from' - (s.rd48 (R.lahar_DL_TICK_LO l)).toNat
  | 2 => multiples (max r.period 1 * 1000) from' s.nsNow.toNat
  | 3 => ((s.lpAt r.lp s.nsNow - Tab.get s.lahar.dlP0 l 0).toInt / (max r.lpInc 1 * 65536)).toNat
  | _ => 0

/-- n ticks of a list have been counted. -/
def State.dlRoll (s : State) (l n : Nat) : State :=
  let r := s.dlRec l
  match r.mode with
  | 2 => s.setLahar { s.lahar with dlFrom := Tab.set s.lahar.dlFrom l s.nsNow.toNat 0 }
  | 3 => s.setLahar { s.lahar with dlP0 := Tab.set s.lahar.dlP0 l (Tab.get s.lahar.dlP0 l 0 + BitVec.ofNat 48 (n * max r.lpInc 1 * 65536)) 0 }
  | _ => s

/-- In pair mode the active keeps the ticks of period and line-position lists for the next boundary, and the standby counts none of its own (Table 13.4). -/
def State.dlTick (s : State) (l : Nat) : State :=
  let n := s.dlTicks l
  if s.pairMode && (s.dlRec l).mode ≠ 1 then
    if s.pair.claim then
      (s.dlRoll l n).setPair { s.pair with owedTicks := (List.range 4).map fun i => s.pair.owedTicks.getD i 0 + (if i = l then n else 0) }
    else s
  else (s.dlRoll l n).dlAdvance l n

/-- The ticks of the lists that count cycle boundaries (R157). -/
def State.cycleTicks (s : State) : State :=
  (List.range 4).foldl (fun s l => if (s.dlRec l).mode = 1 then s.dlAdvance l (s.dlTicks l) else s) s

/-- DELAY_LIST_TICK (R157). -/
def execDelayListTick (t : Time) (l : Fin 4) (s : State) : Host.Outcome State Fault Refusal :=
  let s := s.tick t
  .next (if s.blockInReset 0x0F then s else s.dlTick l)

end Sys2Proof.Machine
end

