-- ==== Sys2Proof/Machine/AxisPage.lean ====
section
/-! DEFINITION. Axis pages: mirror copies, latches, profile commands and the segment ring's counts (R189, R190, R213, R220 to R222, R233 to R237, R638). -/

namespace Sys2Proof.Machine

def State.axSt (s : State) (a : Nat) : AxSt := Tab.get s.ax a {}

def State.setAx (s : State) (a : Nat) (x : AxSt) : State := { s with ax := Tab.set s.ax a x {} }

/-- CFG.BOUND. -/
def State.axBound (s : State) (a : Nat) : Bool := s.b (R.axis_CFG a) 31

/-- The device addresses of the axis block and of the profile block. -/
def State.axBlock (s : State) (a : Nat) : Nat := cellMemAddr (s.f (R.axis_BLOCK a) 26 24) (s.f (R.axis_BLOCK a) 19 0)
def State.profBlock (s : State) (a : Nat) : Nat := cellMemAddr (s.f (R.axis_BLOCK a) 26 24) (s.f (R.axis_PBLOCK a) 19 0)

/-- A write of an axis page into cell memory; a failed one is recorded and has no effect (R189). -/
def State.axStore (s : State) (a : Nat) (v : Nat) : State :=
  match s.phys a with
  | some p => s.wr64 p v
  | none => s.failAccess .axisPage a true .retired

def State.axStores (s : State) (a : Nat) : List Nat → State
  | [] => s
  | v :: r => (s.axStore a v).axStores (a + 8) r

/-! ## Mirror copies (R189, R220, R225) -/

/-- The words of an axis's mirror copy for the present cycle. -/
def State.mirrorWords (s : State) (a : Nat) : List Nat :=
  [b2n (s.b (R.CTRL (P.axis a)) 8) + s.f (R.axis_COEF a) 0 0 * 2 + s.f (R.axis_CFG a) 1 0 * 4, s.cycle, 0, 0]

/-- PMODE as the mirror carries it: HOLD while Sinter's stop request is in force (R476). -/
def State.mirrorMode (s : State) (a : Nat) : W32 := if (s.sax a).stopReq then setFld (s.rd (R.axis_PMODE a)) 2 0 0 else s.rd (R.axis_PMODE a)

/-- The words of the profile mirror copy (Table 7.3); WR is the count at the boundary that began the cycle (R234). -/
def State.profMirrorWords (s : State) (a : Nat) : List Nat :=
  let x := s.axSt a
  [s.cycle, (s.mirrorMode a).toNat, x.cmdNow + x.cmdSeq * 256 + x.gearSeq * 2 ^ 16 + x.engSeq * 2 ^ 24,
   (s.rd48 (R.axis_JOG_VEL_LO a)).toNat, (s.rd48 (R.axis_GEAR_AT_LO a)).toNat,
   ((s.rd (R.axis_GEAR_NUM a)).signExtend 64).toNat, (s.rd (R.axis_GEAR_DEN a)).toNat, (s.rd (R.axis_GEAR_CFG a)).toNat,
   (s.rd (R.axis_GEAR_BLEND a)).toNat, (s.rd (R.axis_ENG_BLEND a)).toNat, (s.rd (R.axis_STILL_WIN a)).toNat,
   x.wr + s.f (R.axis_RING_LEN a) 10 0 * 2 ^ 16]

/-- The page writes its mirror copies and standstill word for the present cycle. -/
def State.axMirror (s : State) (a : Nat) : State :=
  let n := s.cycle % 2
  let s := s.axStores (s.axBlock a + 0x20 * n) (s.mirrorWords a)
  let s := s.axStores (s.profBlock a + 96 + 96 * n) (s.profMirrorWords a)
  let s := s.axStore (s.axBlock a + 0x160 + 8 * n) (s.f (R.axis_PSTAT a) 4 4 + s.f (R.axis_PMODE a) 9 9 * 2)
  s.setAx a { s.axSt a with mirrored := some s.cycle }

/-- AXIS_MIRROR_WRITE (R189, R220). -/
def execAxisMirrorWrite (t : Time) (a : Fin 128) (s : State) : Host.Outcome State Fault Refusal :=
  let s := s.tick t
  .next (if s.axBound a && s.cycling && (s.axSt a).mirrored ≠ some s.cycle then s.axMirror a else s)

/-! ## Latches (R190, R213, R221) -/

/-- A page reads a word of cell memory; what lies nowhere reads as it was left. -/
def State.axLoad (s : State) (a : Nat) : W48 := s.word48 (s.physD a)

/-- SET_DRAIN (R213): the latched set differs from the active one, and the branch of the page is enabled. -/
def State.setDrain (s : State) (a : Nat) : Bool :=
  s.brEn (s.f (R.axis_CFG a) 10 8) && s.f (R.axis_TAG_LAST_LO a) 0 0 ≠ s.f (R.axis_COEF a) 0 0

/-- Bring SET_DRAIN up to date; when it falls SET_DONE is set. -/
def State.drainUpdate (s : State) (a : Nat) : State :=
  let old := s.b (R.axis_STATE a) 8
  let new := s.setDrain a
  (s.setB (R.axis_STATE a) 8 new).irqIf (old && !new) (P.axis a) 8

/-- The latch of the status record; a record that meets a double-bit error is not latched (notes/assumptions/82.md). -/
def State.axLatchStatus (s : State) (a : Nat) : State :=
  let b := s.axBlock a + 0x40
  let r := s.meetAll ((List.range 4).map fun n => b + 8 * n)
  let s := r.1
  if r.2 then s.drainUpdate a
  else
  let st := s.axLoad (b + 8)
  let old := s.rd (R.axis_STATE a)
  let new := fld st 2 0 + fld st 11 9 * 512
  let s := ((s.wr48 (R.axis_TAG_LAST_LO a) (s.axLoad b)).wr48 (R.axis_POS_FB_LO a) (s.axLoad (b + 16))).wr48 (R.axis_POS_REF_LO a) (s.axLoad (b + 24))
  let s := s.wr (R.axis_STATE a) (BitVec.ofNat 32 (new + fld old 8 8 * 256))
  let s := (s.irqIf (bit st 9 && !bit old 9) (P.axis a) 9).irqIf (bit st 10 && !bit old 10) (P.axis a) 10
  s.drainUpdate a

/-- RING_CREDIT.CREDIT (R234). -/
def State.ringShow (s : State) (a : Nat) : State :=
  let used := (65536 + (s.axSt a).res - s.f (R.axis_RING_STAT a) 31 16) % 65536 - (s.axSt a).free.length
  s.setF (R.axis_RING_CREDIT a) 10 0 (s.f (R.axis_RING_LEN a) 10 0 - used)

/-- The latch of the profile status words. Word 60 carries the kernel's count of applied changes and the change of RING_LEN it has seen
(notes/assumptions/30.md); the first latch after a bind or a move of the blocks only takes the count. -/
def State.axLatchProfile (s : State) (a : Nat) : State :=
  let b := s.profBlock a + 288
  let r := s.meetAll [b, b + 8, b + 16, b + 24, b + 192]
  let s := r.1
  if r.2 then s
  else
  let w := s.axLoad b
  let w1 := s.axLoad (b + 8)
  let k := s.axLoad (b + 192)
  let cnt := fld k 31 24
  let app := (s.axSt a).applied.any (· ≠ cnt)
  let old := s.rd (R.axis_PSTAT a)
  let new : W32 := BitVec.ofNat 32 (fld w 16 0 + b2n app * 2 ^ 17)
  let s := s.setAx a { s.axSt a with applied := some cnt, wr := s.f (R.axis_RING_STAT a) 15 0 }
  let s := (s.wr (R.axis_PSTAT a) new).wr (R.axis_PTAG a) (BitVec.ofNat 32 (fld w1 47 16))
  let s := (s.wr48 (R.axis_HOME_POS_LO a) (s.axLoad (b + 16))).wr48 (R.axis_PVEL_LO a) (s.axLoad (b + 24))
  let s := s.setF (R.axis_RING_STAT a) 31 16 (if fld k 39 32 = (s.axSt a).ringSeq then fld w1 15 0 else 0)
  let rise (i : Nat) : Bool := bit new i && !bit old i
  let home (k : Nat) : Bool := fld new 14 12 = k && fld old 14 12 ≠ k
  let p := P.axis a
  let s := (((s.irqIf (home 5) p 11).irqIf (home 6) p 12).irqIf (rise 6) p 13).irqIf (rise 7) p 14
  ((s.irqIf app p 15).irqIf (rise 4) p 16).ringShow a

/-- The latches of a bound page at a cycle boundary, and the delivery of a command (R222). An unbound page keeps what it latched. -/
def State.axLatch (s : State) (a : Nat) : State :=
  if !s.axBound a then s.drainUpdate a
  else
    let s := (s.axLatchStatus a).axLatchProfile a
    match (s.axSt a).cmd with
    | some (c, at') =>
      if at' + 2048 ≤ s.tau then s.setAx a { s.axSt a with cmd := none, cmdNow := c, cmdSeq := ((s.axSt a).cmdSeq + 1) % 256 } else s
    | none => s

/-- The values of the axis pages that are not 0. -/
def nonZero (f : Nat → W48) : Tab W48 := (List.range 128).filterMap fun a => if f a = 0 then none else some (a, f a)

/-- The masters of the present cycle (R638). -/
def State.mastersNow (s : State) : Masters :=
  { cyc := s.cycle, lps := (List.range 4).map s.lpk, qes := (List.range 8).map fun q => s.rd (R.qe_CYC_POS q),
    refs := nonZero fun a => s.rd48 (R.axis_POS_REF_LO a), fbs := nonZero fun a => s.rd48 (R.axis_POS_FB_LO a) }

/-- Keep the masters of the present cycle, and drop those no fired operation can ask for. -/
def State.keepMasters (s : State) : State :=
  let first := s.firedOps.foldl (fun m k => min m (min (s.opSt k).fire.cyc (s.opSt k).pair.cyc)) s.cycle
  { s with masters := s.mastersNow :: s.masters.filter fun x => x.cyc + 2 ≥ first && x.cyc ≠ s.cycle }

/-- The masters of cycle k. -/
def State.mastersOf (s : State) (k : Nat) : Masters := (s.masters.find? (·.cyc = k)).getD { cyc := k, lps := [], qes := [], refs := [], fbs := [] }

/-! ## Commands (R222) -/

/-- A command waits for its boundary; it replaces one that waits. -/
def State.axSet (s : State) (a c : Nat) : State := s.setAx a { s.axSt a with cmd := some (c, s.now) }

/-- A write of PCMD. -/
def State.axCommand (s : State) (t : Time) (m : Master) (a c : Nat) : State :=
  s.gated t m (R.axis_PCMD a) (BitVec.ofNat 32 c) fun s => s.axSet a c

def execPcmdStart (t : Time) (m : Master) (a : Fin 128) (s : State) : Host.Outcome State Fault Refusal := .next (s.axCommand t m a 1)
def execPcmdStop (t : Time) (m : Master) (a : Fin 128) (s : State) : Host.Outcome State Fault Refusal := .next (s.axCommand t m a 2)
def execPcmdFlush (t : Time) (m : Master) (a : Fin 128) (s : State) : Host.Outcome State Fault Refusal := .next (s.axCommand t m a 3)
def execHomeGo (t : Time) (m : Master) (a : Fin 128) (s : State) : Host.Outcome State Fault Refusal := .next (s.axCommand t m a 4)
def execWake (t : Time) (m : Master) (a : Fin 128) (s : State) : Host.Outcome State Fault Refusal := .next (s.axCommand t m a 5)
def execPcmdClear (t : Time) (m : Master) (a : Fin 128) (s : State) : Host.Outcome State Fault Refusal := .next (s.axCommand t m a 6)

/-! ## The segment ring (R234 to R237) -/

def State.ringCredit (s : State) (a : Nat) : Nat := s.f (R.axis_RING_CREDIT a) 10 0

/-- Reserve n segments. -/
def State.ringReserve (s : State) (a n : Nat) : State := (s.setAx a { s.axSt a with res := ((s.axSt a).res + n) % 65536 }).ringShow a

/-- Publish n segments. -/
def State.ringPublish (s : State) (a n : Nat) : State := s.incMod (R.axis_RING_STAT a) 15 0 n

/-- A DMA element reserves a segment: the first of those taken back, or the next. -/
def State.ringTake (s : State) (a : Nat) : State × Nat :=
  let x := s.axSt a
  match x.free with
  | k :: r => ((s.setAx a { x with free := r }).ringShow a, k)
  | [] => (s.ringReserve a 1, x.res)

/-- A reservation of a segment that will not be written is taken back. -/
def State.ringFree (s : State) (a k : Nat) : State :=
  let x := s.axSt a
  if (k + 1) % 65536 = x.res then s.ringReserve a 65535 else (s.setAx a { x with free := (x.free ++ [k]).mergeSort }).ringShow a

/-- Publish the landed segments from WR on, at most n (R234). -/
def State.ringOpen (s : State) (a : Nat) : Nat → State
  | 0 => s
  | n + 1 =>
    let x := s.axSt a
    let w := s.f (R.axis_RING_STAT a) 15 0
    if x.landed.contains w then ((s.setAx a { x with landed := x.landed.filter (· ≠ w) }).ringPublish a 1).ringOpen a n else s

/-- A segment has landed: segments are published in the order of their indices (R234, R235). -/
def State.ringLand (s : State) (a k : Nat) : State :=
  let x := s.axSt a
  (s.setAx a { x with landed := k :: x.landed }).ringOpen a (x.landed.length + 1)

def State.ringPut (s : State) (a n : Nat) : State :=
  if n = 0 then s
  else if n > 256 || n > s.ringCredit a then s.hwSetBits (R.axis_RING_CREDIT a) 0x10000
  else (s.ringReserve a n).ringPublish a n

/-- RING_PUT (R236). -/
def execRingPut (t : Time) (m : Master) (a : Fin 128) (n : BitVec 9) (s : State) : Host.Outcome State Fault Refusal :=
  .next (s.gated t m (R.axis_RING_PUT a) (n.setWidth 32) fun s => s.ringPut a n.toNat)

/-! ## Commits of the page -/

/-- The registers whose change a commit counts (R243, R245). -/
def gearRegs (a : Nat) : List Nat := [R.axis_GEAR_AT_LO a, R.axis_GEAR_AT_HI a, R.axis_GEAR_NUM a, R.axis_GEAR_DEN a, R.axis_GEAR_BLEND a]

/-- A commit of the page has taken effect; old is the state before it (R237, R243, R245, R213). -/
def State.axCommit (s : State) (a : Nat) (old : State) : State :=
  let c := s.rd (R.axis_GEAR_CFG a)
  let c0 := old.rd (R.axis_GEAR_CFG a)
  let gear := (gearRegs a).any (fun r => s.rd r ≠ old.rd r) || bit c 12 ≠ bit c0 12
  let eng := fld c 6 0 ≠ fld c0 6 0 || fld c 9 8 ≠ fld c0 9 8
  let moved := s.axBound a ≠ old.axBound a || s.rd (R.axis_BLOCK a) ≠ old.rd (R.axis_BLOCK a) || s.rd (R.axis_PBLOCK a) ≠ old.rd (R.axis_PBLOCK a)
  let x := s.axSt a
  let s := s.setAx a { x with gearSeq := (x.gearSeq + b2n gear) % 256, engSeq := (x.engSeq + b2n eng) % 256, applied := if moved then none else x.applied }
  let s :=
    if s.rd (R.axis_RING_LEN a) = old.rd (R.axis_RING_LEN a) then s
    else ((s.setAx a { s.axSt a with res := 0, landed := [], free := [], ringSeq := ((s.axSt a).ringSeq + 1) % 256 }).wr (R.axis_RING_STAT a) 0).ringShow a
  s.drainUpdate a

end Sys2Proof.Machine
end

