-- ==== Sys2Proof/Machine/Flags.lean ====
section
/-! DEFINITION. Brass arithmetic and flags: lanes, narrowing, the ALU operations and the condition codes (sections 3.2 to 3.4, 4.2 and 4.4). -/

namespace Sys2Proof.Machine

/-! ## Views (R71, R72) -/

/-- The lanes of a 48-bit word, high lane first. -/
def hiLane (w : W48) : Int := (w.extractLsb' 24 24).toInt
def loLane (w : W48) : Int := (w.extractLsb' 0 24).toInt

/-- A lane pair; each lane keeps its low 24 bits. -/
def packLanes (h l : Int) : W48 := (BitVec.ofInt 24 h) ++ (BitVec.ofInt 24 l)

/-- The lanes of an accumulator. -/
def accHi (a : BitVec 112) : Int := (a.extractLsb' 56 56).toInt
def accLo (a : BitVec 112) : Int := (a.extractLsb' 0 56).toInt
def packAcc (h l : Int) : BitVec 112 := (BitVec.ofInt 56 h) ++ (BitVec.ofInt 56 l)

/-- Whether an integer fits n bits, signed. -/
def fitsS (n : Nat) (x : Int) : Bool := -(2 ^ (n - 1)) ≤ x && x < 2 ^ (n - 1)

/-- The end of an n-bit range nearest to x. -/
def satS (n : Nat) (x : Int) : Int := clampI x (-(2 ^ (n - 1))) (2 ^ (n - 1) - 1)

/-- The low n bits of an integer, signed. -/
def wrapS (n : Nat) (x : Int) : Int := (BitVec.ofInt n x).toInt

/-! ## Flags (Table 3.3) -/

/-- What an instruction does to FLG: none leaves a flag as it is; the sticky flags are only set. -/
structure FlagUpd where
  z : Option Bool := none
  n : Option Bool := none
  c : Option Bool := none
  v : Option Bool := none
  sat : Bool := false
  aov : Bool := false
  bfx : Bool := false
  deriving DecidableEq, Repr

/-- Apply an optional new value to bit i. -/
def optBit (w : BitVec 16) (i : Nat) : Option Bool → BitVec 16
  | none => w
  | some b => setFld w i i (b2n b)

/-- FLG after an update. -/
def FlagUpd.apply (u : FlagUpd) (w : BitVec 16) : BitVec 16 :=
  let w := optBit (optBit (optBit (optBit w 0 u.z) 1 u.n) 2 u.c) 3 u.v
  w ||| BitVec.ofNat 16 (b2n u.sat * 16 + b2n u.aov * 32 + b2n u.bfx * 64)

/-- Whether a condition holds (Table 4.3). Code 0xF is reserved and never issues. -/
def condHolds (flg : BitVec 16) (cond : Nat) : Bool :=
  let z := bit flg 0
  let n := bit flg 1
  let c := bit flg 2
  let v := bit flg 3
  match cond with
  | 0 => true
  | 1 => z
  | 2 => !z
  | 3 => n != v
  | 4 => !(n != v)
  | 5 => z || (n != v)
  | 6 => !z && !(n != v)
  | 7 => n
  | 8 => !n
  | 9 => c
  | 10 => !c
  | 11 => v
  | 12 => !v
  | 13 => bit flg 4
  | 14 => bit flg 5
  | _ => false

/-! ## Narrowing (R75, R76) -/

/-- A value scaled by 2^sh and divided by 2^frac, rounded once, half to even (R75, R133). -/
def scaleRound (x : Int) (frac : Nat) (sh : Int) : Int :=
  if sh ≥ 0 then rndDiv (x * 2 ^ sh.toNat) (2 ^ frac) else rndDiv x (2 ^ (frac + (-sh).toNat))

/-- A result in n bits: saturated or wrapped when it lies outside, with the V and SAT it asks for (R76). -/
structure Narrowed where
  val : Int
  v : Bool
  sat : Bool
  deriving DecidableEq, Repr

def narrow (n : Nat) (satMode : Bool) (x : Int) : Narrowed :=
  if fitsS n x then { val := x, v := false, sat := false }
  else if satMode then { val := satS n x, v := false, sat := true }
  else { val := wrapS n x, v := true, sat := false }

/-! ## EXP and NORM (R78, R79) -/

/-- Redundant sign bits of an n-bit value: how many bits, up to k, can go with the value unchanged. -/
def signBits (n : Nat) (x : Int) : Nat → Nat
  | 0 => 0
  | k + 1 => if fitsS (n - (k + 1)) x then k + 1 else signBits n x k

/-- EXP of an n-bit value with a guard offset (R78). -/
def expOf (n g : Nat) (x : Int) : Int := (signBits n x (n - 1) : Int) - g

/-- Shift left by k, or right with rounding half to even. -/
def shiftRound (x k : Int) : Int := if k ≥ 0 then x * 2 ^ k.toNat else rndDiv x (2 ^ (-k).toNat)

/-- NORM of an n-bit value with a guard offset: the normalised value and the shift applied (R79). -/
def normOf (n g : Nat) (x : Int) : Int × Int :=
  if x = 0 then (0, 0)
  else
    let e := expOf n g x
    let r := shiftRound x e
    if expOf n g r < 0 then (shiftRound x (e - 1), e - 1) else (r, e)

/-! ## The ALU (Table 4.8) -/

/-- ALU operations, with the codes of Table 4.8. -/
inductive AluOp where
  | add | sub | adds | subs | neg | abs | min | max | and | or | xor | not | asl | asr | lsl | lsr | cmp | tst | mov | movh | cmov
  deriving DecidableEq, Repr

/-- The operation of an AOP code. -/
def aluOp : Nat → Option AluOp
  | 0x00 => some .add
  | 0x01 => some .sub
  | 0x02 => some .adds
  | 0x03 => some .subs
  | 0x04 => some .neg
  | 0x05 => some .abs
  | 0x06 => some .min
  | 0x07 => some .max
  | 0x08 => some .and
  | 0x09 => some .or
  | 0x0A => some .xor
  | 0x0B => some .not
  | 0x0C => some .asl
  | 0x0D => some .asr
  | 0x0E => some .lsl
  | 0x0F => some .lsr
  | 0x10 => some .cmp
  | 0x11 => some .tst
  | 0x12 => some .mov
  | 0x13 => some .movh
  | 0x14 => some .cmov
  | _ => none

/-- Whether an operation has a lane view (Table 4.8). -/
def AluOp.lanes : AluOp → Bool
  | .and | .or | .xor | .not | .lsl | .lsr | .tst | .movh | .cmov => false
  | _ => true

/-- One lane's result: its value, and the carry, overflow and saturation it gives. -/
structure LaneR where
  val : Int
  c : Option Bool := none
  v : Option Bool := none
  sat : Bool := false
  deriving DecidableEq, Repr

/-- The unsigned reading of an n-bit value. -/
def unsig (n : Nat) (x : Int) : Nat := (BitVec.ofInt n x).toNat

def laneAdd (n : Nat) (s t : Int) : LaneR :=
  { val := wrapS n (s + t), c := some (unsig n s + unsig n t ≥ 2 ^ n), v := some !(fitsS n (s + t)) }

def laneSub (n : Nat) (s t : Int) : LaneR :=
  { val := wrapS n (s - t), c := some (unsig n s ≥ unsig n t), v := some !(fitsS n (s - t)) }

/-- A saturated result: V is cleared (Table 4.8). -/
def laneSat (n : Nat) (x : Int) : LaneR := { val := satS n x, v := some false, sat := !fitsS n x }

/-- ASL (R123). -/
def laneAsl (n : Nat) (satMode : Bool) (s : Int) (c : Nat) : LaneR :=
  let r := narrow n satMode (s * 2 ^ c)
  { val := r.val, v := some r.v, sat := r.sat }

/-- An operation on one lane of n bits. The shift count of R123 is the lane's own t[5:0] (DEDUCED, notes/assumptions/51.md). -/
def AluOp.lane (op : AluOp) (n : Nat) (satMode : Bool) (s t : Int) : LaneR :=
  let c := Nat.min (unsig n t % 64) (n - 1)
  match op with
  | .add => laneAdd n s t
  | .sub | .cmp => laneSub n s t
  | .adds => laneSat n (s + t)
  | .subs => laneSat n (s - t)
  | .neg => laneSub n 0 s
  | .abs => laneSat n (if s < 0 then -s else s)
  | .min => { val := if s ≤ t then s else t }
  | .max => { val := if s ≥ t then s else t }
  | .and | .tst => { val := ((BitVec.ofInt n s) &&& (BitVec.ofInt n t)).toInt }
  | .or => { val := ((BitVec.ofInt n s) ||| (BitVec.ofInt n t)).toInt }
  | .xor => { val := ((BitVec.ofInt n s) ^^^ (BitVec.ofInt n t)).toInt }
  | .not => { val := (~~~ (BitVec.ofInt n s)).toInt }
  | .asl => laneAsl n satMode s c
  | .asr => { val := rndDiv s (2 ^ c) }
  | .lsl => { val := wrapS n ((unsig n s : Int) * 2 ^ c) }
  | .lsr => { val := wrapS n ((unsig n s : Int) / 2 ^ c) }
  | .mov => { val := t }
  | .movh | .cmov => { val := s }

/-- An ALU result: the word, and what it does to the flags. -/
structure AluR where
  val : W48
  upd : FlagUpd
  deriving DecidableEq, Repr

/-- A single-view operation. -/
def aluSingle (op : AluOp) (satMode : Bool) (s t : W48) : AluR :=
  let r := op.lane 48 satMode s.toInt t.toInt
  { val := w48 r.val, upd := { z := some (r.val = 0), n := some (r.val < 0), c := r.c, v := r.v, sat := r.sat } }

/-- Either of two optional overflows. -/
def orOpt : Option Bool → Option Bool → Option Bool
  | some a, some b => some (a || b)
  | a, none => a
  | none, b => b

/-- A lane-view operation: Z of both lanes, N and C of the high lane, V and SAT of either (R122). -/
def aluLanes (op : AluOp) (satMode : Bool) (s t : W48) : AluR :=
  let h := op.lane 24 satMode (hiLane s) (hiLane t)
  let l := op.lane 24 satMode (loLane s) (loLane t)
  { val := packLanes h.val l.val,
    upd := { z := some (h.val = 0 && l.val = 0), n := some (h.val < 0), c := h.c, v := orOpt h.v l.v, sat := h.sat || l.sat } }

/-! ## Multiply-accumulate (R73, R74, R117) -/

/-- Multiply operations (Table 4.6). -/
inductive MacOp where
  | none | mpy | mac | msu | macx | msux | adda
  deriving DecidableEq, Repr

def macOp : Nat → Option MacOp
  | 0 => some .none
  | 1 => some .mpy
  | 2 => some .mac
  | 3 => some .msu
  | 4 => some .macx
  | 5 => some .msux
  | 6 => some .adda
  | _ => Option.none

/-- An accumulation in n bits: it wraps, or saturates with SATACC, and says whether it left the range (R74). -/
def accum (n : Nat) (satAcc : Bool) (x : Int) : Int × Bool :=
  if fitsS n x then (x, false) else (if satAcc then satS n x else wrapS n x, true)

/-- A multiply operation in dual view: the accumulator and whether FLG.AOV is set. -/
def macDual (op : MacOp) (satAcc : Bool) (a : BitVec 112) (s t : W48) : BitVec 112 × Bool :=
  let ah := accHi a
  let al := accLo a
  let two (h l : Int) : BitVec 112 × Bool :=
    let h := accum 56 satAcc h
    let l := accum 56 satAcc l
    (packAcc h.1 l.1, h.2 || l.2)
  match op with
  | .none => (a, false)
  | .mpy => (packAcc (hiLane s * hiLane t) (loLane s * loLane t), false)
  | .mac => two (ah + hiLane s * hiLane t) (al + loLane s * loLane t)
  | .msu => two (ah - hiLane s * hiLane t) (al - loLane s * loLane t)
  | .macx => two (ah + hiLane s * loLane t) (al + loLane s * hiLane t)
  | .msux => two (ah - hiLane s * loLane t) (al - loLane s * hiLane t)
  | .adda => two (ah + hiLane s * 2 ^ 23) (al + loLane s * 2 ^ 23)

/-- A multiply operation in single view. -/
def macSingle (op : MacOp) (satAcc : Bool) (a : BitVec 112) (s t : W48) : BitVec 112 × Bool :=
  let one (x : Int) : BitVec 112 × Bool :=
    let r := accum 112 satAcc x
    (BitVec.ofInt 112 r.1, r.2)
  match op with
  | .mpy => (BitVec.ofInt 112 (s.toInt * t.toInt), false)
  | .mac => one (a.toInt + s.toInt * t.toInt)
  | .msu => one (a.toInt - s.toInt * t.toInt)
  | .adda => one (a.toInt + s.toInt * 2 ^ 47)
  | _ => (a, false)

/-- A widening move (R73). -/
def widen (single : Bool) (s : W48) : BitVec 112 :=
  if single then BitVec.ofInt 112 (s.toInt * 2 ^ 47) else packAcc (hiLane s * 2 ^ 23) (loLane s * 2 ^ 23)

/-! ## RND, EXP, NORM and BFSC (R133 to R137) -/

/-- RND: the narrowed word and its flags. V says that a result overflowed and was not saturated (Table 3.3). -/
def rndAcc (single satMode : Bool) (a : BitVec 112) (sh : Int) : AluR :=
  if single then
    let r := narrow 48 satMode (scaleRound a.toInt 47 sh)
    { val := w48 r.val, upd := { z := some (r.val = 0), n := some (r.val < 0), v := some r.v, sat := r.sat } }
  else
    let h := narrow 24 satMode (scaleRound (accHi a) 23 sh)
    let l := narrow 24 satMode (scaleRound (accLo a) 23 sh)
    { val := packLanes h.val l.val,
      upd := { z := some (h.val = 0 && l.val = 0), n := some (h.val < 0),
               v := some (h.v || l.v), sat := h.sat || l.sat } }

/-- The word EXP writes for view k (R135). -/
def expWord (k : Nat) (d : W48) (a : BitVec 112) : W48 :=
  match k with
  | 0 => w48 (expOf 48 0 d.toInt)
  | 1 => packLanes (expOf 24 0 (hiLane d)) (expOf 24 0 (loLane d))
  | 2 => packLanes (expOf 56 9 (accHi a)) (expOf 56 9 (accLo a))
  | _ => w48 (expOf 112 17 a.toInt)

/-- One lane of BFSC: shifted left by k, or right with rounding. -/
def bfscLane (satMode : Bool) (x k : Int) : Narrowed := narrow 24 satMode (shiftRound x k)

/-- The count BFSC applies, and whether an exponent limit reduced it (R80). -/
def bfscCount (e k : Int) : Int × Bool :=
  if e - k > 127 then (e - 127, true) else if e - k < -128 then (e + 128, true) else (k, false)

/-- BFSC: the word, the new exponent and the flags. -/
def bfsc (satMode : Bool) (d : W48) (e k : Int) : W48 × Int × FlagUpd :=
  let c := bfscCount e k
  let h := bfscLane satMode (hiLane d) c.1
  let l := bfscLane satMode (loLane d) c.1
  (packLanes h.val l.val, e - c.1, { v := some (h.v || l.v), sat := h.sat || l.sat, bfx := c.2 })

end Sys2Proof.Machine
end

