-- ==== Sys2Proof/Machine/KernelMath.lean ====
section
/-! DEFINITION. The exact arithmetic of the axis-control kernels (sections 6.5 to 6.9): values are integers, lanes in units of 2^-23. -/

namespace Sys2Proof.Machine

/-! ## Rounding and limits (R198) -/

/-- A value limited to a lane, and 1 when the limit acted. -/
structure LaneVal where
  val : Int
  hit : Nat
  deriving DecidableEq, Repr

/-- sat24 of R198. -/
def lane24 (x : Int) : LaneVal := { val := satS 24 x, hit := b2n (!fitsS 24 x) }

/-- min(max(x, lo), hi). -/
def limit (x lo hi : Int) : Int := min (max x lo) hi

/-- The magnitude of an integer. -/
def mag (x : Int) : Int := if x < 0 then -x else x

/-- The square root, rounded down: bits below 2^k are still to try. -/
def isqrtBits (n : Nat) : Nat → Nat → Nat
  | 0, r => r
  | k + 1, r => if (r + 2 ^ k) * (r + 2 ^ k) ≤ n then isqrtBits n k (r + 2 ^ k) else isqrtBits n k r

/-- The square root of a number below 2^64, rounded down. -/
def isqrt (n : Nat) : Nat := isqrtBits n 32 0

/-! ## Second-order sections (R198 to R202) -/

/-- One lane's coefficients of a section, as words. -/
structure Coef where
  b0 : Int
  b1 : Int
  b2 : Int
  a1 : Int
  a2 : Int
  deriving DecidableEq, Repr

/-- What one lane of a section computes: its output, its states, and how often a result saturated. -/
structure LaneOut where
  y : Int
  s1 : Int
  s2 : Int
  sats : Nat
  deriving DecidableEq, Repr

/-- One lane in fixed mode (R198). -/
def fixedLane (c : Coef) (csh : Nat) (x s1 s2 : Int) : LaneOut :=
  let y := lane24 (rndDiv (c.b0 * x * 2 ^ csh + s1 * 2 ^ 23) (2 ^ 23))
  let n1 := lane24 (rndDiv ((c.b1 * x - c.a1 * y.val) * 2 ^ csh + s2 * 2 ^ 23) (2 ^ 23))
  let n2 := lane24 (rndDiv ((c.b2 * x - c.a2 * y.val) * 2 ^ csh) (2 ^ 23))
  { y := y.val, s1 := n1.val, s2 := n2.val, sats := y.hit + n1.hit + n2.hit }

/-- The output and the sums u1 and u2 of one lane in block-floating mode, the sums in units of 2^-46 (R201). -/
def floatLane (c : Coef) (csh : Nat) (x m1 m2 e : Int) : LaneOut :=
  let k := (23 + e).toNat
  let y := lane24 (rndDiv (c.b0 * x * 2 ^ csh + m1 * 2 ^ k) (2 ^ 23))
  { y := y.val, s1 := (c.b1 * x - c.a1 * y.val) * 2 ^ csh + m2 * 2 ^ k, s2 := (c.b2 * x - c.a2 * y.val) * 2 ^ csh, sats := y.hit }

/-- The smallest EXP among the sums (R78, R201). -/
def minExp (l : List Int) : Int := l.foldl (fun m x => min m (expOf 56 9 x)) 46

/-- The mantissas of a lane's sums under exponent e. -/
def renorm (e : Int) (o : LaneOut) : LaneOut :=
  let m1 := lane24 (rndDiv o.s1 (2 ^ (23 + e).toNat))
  let m2 := lane24 (rndDiv o.s2 (2 ^ (23 + e).toNat))
  { o with s1 := m1.val, s2 := m2.val, sats := o.sats + m1.hit + m2.hit }

/-- A section as its words describe it. -/
structure Section where
  hi : Coef
  lo : Coef
  csh : Nat
  bf : Bool
  e : Int
  emin : Int
  emax : Int
  head : Int
  s1 : W48
  s2 : W48
  deriving DecidableEq, Repr

/-- What a section gives: the output and state words, the exponent, and what STAT notes. -/
structure SecOut where
  y : W48
  s1 : W48
  s2 : W48
  e : Int
  sats : Nat
  bfx : Bool
  deriving DecidableEq, Repr

/-- The words of two lanes; without pair mode the low lane is written as 0 (R199). -/
def secWords (h l : LaneOut) (e : Int) (bfx : Bool) : SecOut :=
  { y := packLanes h.y l.y, s1 := packLanes h.s1 l.s1, s2 := packLanes h.s2 l.s2, e := e, sats := h.sats + l.sats, bfx := bfx }

def zeroLane : LaneOut := { y := 0, s1 := 0, s2 := 0, sats := 0 }

/-- One section on one input word. -/
def runSection (c : Section) (pair : Bool) (x : W48) : SecOut :=
  if c.bf then
    let h := floatLane c.hi c.csh (hiLane x) (hiLane c.s1) (hiLane c.s2) c.e
    let l := if pair then floatLane c.lo c.csh (loLane x) (loLane c.s1) (loLane c.s2) c.e else zeroLane
    let p := minExp (if pair then [h.s1, h.s2, l.s1, l.s2] else [h.s1, h.s2])
    let e := limit (c.head - p) c.emin c.emax
    secWords (renorm e h) (if pair then renorm e l else zeroLane) e (c.head - p > c.emax)
  else
    secWords (fixedLane c.hi c.csh (hiLane x) (hiLane c.s1) (hiLane c.s2))
      (if pair then fixedLane c.lo c.csh (loLane x) (loLane c.s1) (loLane c.s2) else zeroLane) c.e false

/-! ## PI stages (R203) -/

/-- A PI stage's gains as integers with their shifts, its limits as lanes, its error, its integrator (Q0.47) and its feedforward in units of 2^-47. -/
structure PiIn where
  kp : Int
  ki : Int
  gp : Nat
  gi : Int
  lo : Int
  hi : Int
  ilo : Int
  ihi : Int
  err : Int
  integ : Int
  ff : Int
  deriving DecidableEq, Repr

structure PiOut where
  y : Int
  integ : Int
  sats : Nat
  olim : Bool
  ilim : Bool
  deriving DecidableEq, Repr

/-- One PI stage (R203). -/
def piStage (c : PiIn) : PiOut :=
  let v := lane24 (rndDiv (c.kp * c.err * 2 ^ (c.gp + 1) + c.integ + c.ff) (2 ^ 24))
  let y := limit v.val c.lo c.hi
  let d := c.ki * c.err * 2 ^ (c.gi + 25).toNat
  let d := if (v.val ≥ c.hi && d > 0) || (v.val ≤ c.lo && d < 0) then 0 else d
  let i := rndDiv (c.integ * 2 ^ 24 + d) (2 ^ 24)
  let j := limit i (c.ilo * 2 ^ 24) (c.ihi * 2 ^ 24)
  { y := y, integ := j, sats := v.hit, olim := y ≠ v.val, ilim := j ≠ i }

/-! ## Current-loop transforms (R207 to R211) -/

/-- 1/√3, 1/3 and √3/2 in Q0.23 (R207, R211). -/
def k3 : Int := 0x49E69D
def k1 : Int := 0x2AAAAB
def k2 : Int := 0x6ED9EC

/-- CLARKE (R207). -/
def clarke (three : Bool) (ab c : W48) : W48 :=
  let ia := hiLane ab
  let ib := loLane ab
  let ic := hiLane c
  if three then packLanes (lane24 (rndDiv (k1 * (2 * ia - ib - ic)) (2 ^ 23))).val (lane24 (rndDiv (k3 * (ib - ic)) (2 ^ 23))).val
  else packLanes ia (lane24 (rndDiv (k3 * (ia + 2 * ib)) (2 ^ 23))).val

/-- π in units of 2^-96, rounded down. -/
def pi96 : Nat := 248902613312231085230521944622

/-- Terms of the sine series of x from term k: t is the last term, all in units of 2^-96. -/
def sinTerms (x : Nat) : Nat → Nat → Nat → Int
  | 0, _, _ => 0
  | n + 1, k, t =>
    let t' : Nat := t * x / 2 ^ 96 * x / 2 ^ 96 / ((2 * k) * (2 * k + 1))
    (if k % 2 = 1 then -(t' : Int) else (t' : Int)) + sinTerms x n (k + 1) t'

/-- T[i] of R208. -/
def sinT (i : Nat) : Int :=
  let x := pi96 * i / 2048
  min (rndDiv ((x : Int) + sinTerms x 16 1 x) (2 ^ 73)) (2 ^ 23 - 1)

/-- The sine of an angle of 24 bits (R208). -/
def sin24 (theta : Nat) : Int :=
  let q := theta / 2 ^ 22 % 4
  let x := theta % 2 ^ 22
  let x := if q = 1 || q = 3 then 4194304 - x else x
  let i : Nat := x / 4096
  let f : Nat := x % 4096
  let s := if f = 0 then sinT i else sinT i + rndDiv ((sinT (i + 1) - sinT i) * f) 4096
  if q = 0 || q = 1 then s else -s

def cos24 (theta : Nat) : Int := sin24 ((theta + 4194304) % 2 ^ 24)

/-- An angle word (R191). -/
def angleOf (w : W48) : Nat := fld w 47 24

/-- PARK (R209). -/
def park (x ang : W48) : W48 :=
  let a := hiLane x
  let b := loLane x
  let s := sin24 (angleOf ang)
  let c := cos24 (angleOf ang)
  packLanes (lane24 (rndDiv (a * c + b * s) (2 ^ 23))).val (lane24 (rndDiv (-a * s + b * c) (2 ^ 23))).val

/-- IPARK, after its angle has been advanced (R209). -/
def ipark (adv : Nat) (x ang om : W48) : W48 :=
  let th : Nat := ((((angleOf ang : Nat) : Int) + rndDiv (hiLane om * adv) 4) % (2 ^ 24 : Int)).toNat
  let d := hiLane x
  let q := loLane x
  let s := sin24 th
  let c := cos24 th
  packLanes (lane24 (rndDiv (d * c - q * s) (2 ^ 23))).val (lane24 (rndDiv (d * s + q * c) (2 ^ 23))).val

/-- x divided by the square root of n, both in units of 2^-23 and 2^-46, rounded half to even; n exceeds x². -/
def unitOf (x : Int) (n : Nat) : Int :=
  let m := x.natAbs
  let f := isqrt (m * m * 2 ^ 46 / n)
  let c := (2 * f + 1) * (2 * f + 1) * n
  let t := 4 * m * m * 2 ^ 46
  sgn x * (if t < c then f else if t > c then f + 1 else if f % 2 = 0 then f else f + 1 : Nat)

/-- The vector SVM modulates: scaled by the bus ratio and limited to the circle (R211). -/
def svmVector (ovm : Bool) (x : W48) (bus : Option W48) : Int × Int :=
  let a := match bus with
    | some b => (lane24 (rndDiv (2 * hiLane b * hiLane x) (2 ^ 23))).val
    | none => hiLane x
  let b := match bus with
    | some b => (lane24 (rndDiv (2 * hiLane b * loLane x) (2 ^ 23))).val
    | none => loLane x
  let n := (a * a + b * b).toNat
  if !ovm && n > 2 ^ 46 then (unitOf a n, unitOf b n) else (a, b)

/-- SVM's duties a, b and c (R211). -/
def svmDuties (a b dmin dmax : Int) : Int × Int × Int :=
  let xb := rndDiv (-a * 2 ^ 22 + k2 * b) (2 ^ 23)
  let xc := rndDiv (-a * 2 ^ 22 - k2 * b) (2 ^ 23)
  let c2 := max (max a xb) xc + min (min a xb) xc
  let d (x : Int) : Int := limit (lane24 (rndDiv (2 ^ 46 + k3 * (2 * x - c2)) (2 ^ 24))).val dmin dmax
  (d a, d xb, d xc)

/-! ## The d/q stage (R210) -/

/-- The decoupling terms in units of 2^-46: d and q. -/
def decouple (w id iq : Int) (ld lq psi : Int) (lsh : Nat) : Int × Int :=
  let wi := rndDiv (w * iq) (2 ^ 23)
  let wd := rndDiv (w * id) (2 ^ 23)
  let pw := rndDiv (w * psi) (2 ^ 23)
  (-(lq * wi) * 2 ^ lsh, (ld * wd + pw * 2 ^ 23) * 2 ^ lsh)

/-- The q limit that the voltage circle leaves. -/
def qLimit (vmax vd : Int) : Int := isqrt (vmax * vmax - vd * vd).toNat

/-! ## The soft-start ramp (R205) -/

/-- The ramp: position r, state (0 IDLE, 1 RAMP, 2 TRACK) and step count n. -/
structure Ramp where
  r : W48
  rs : Nat
  n : Nat
  deriving DecidableEq, Repr

/-- One sample of the ramp toward p from feedback f. -/
def rampStep (x : Ramp) (p f : W48) (rate : Nat) : Ramp :=
  let x := if x.rs = 0 then { r := f, rs := 1, n := 0 } else x
  if x.rs = 1 then
    let dd := (p - x.r).toInt
    if rate = 0 || mag dd ≤ rate then { x with r := p, rs := 2 }
    else { x with r := x.r + w48 (sgn dd * rate), n := min (x.n + 1) 65535 }
  else { x with r := p }

end Sys2Proof.Machine
end

