-- ==== Sys2Proof/Machine/Xlate.lean ====
section
/-! DEFINITION. Address translation: page tables, faults, TLBs and invalidation (section 16.4). -/

namespace Sys2Proof.Machine

def State.setXl (s : State) (x : XlSt) : State := { s with xl := x }

/-- What a translation gives: an address, a fault with its code and level (Table 16.5), a page-table read that met a double-bit error, or no TLB entry. -/
inductive XRes where
  | ok (p : Phys)
  | fault (code level : Nat)
  | error (a : Nat)
  | miss
  deriving DecidableEq, Repr

/-- What a table walk gives: the leaf and whether it is a 2 MiB one. -/
inductive WRes where
  | leaf (pte : W64) (big : Bool)
  | fault (code level : Nat)
  | error (a : Nat)
  deriving DecidableEq, Repr

/-- The address in the FRAME of an entry. -/
def pteFrame (pte : W64) : Nat := fld pte 51 12 * 4096

/-- Whether an address is a place for a page table: a 4 KiB-aligned offset within device shared memory (R549). -/
def tableOk (a : Nat) : Bool := a % 4096 = 0 && 0x01000000 ≤ a && a ≤ 0x017FF000

/-- Whether an entry of level l breaks Table 16.4. -/
def pteBad (l : Nat) (pte : W64) : Bool :=
  let big := bit pte 4
  let leaf := l = 4 || (l = 3 && big)
  fld pte 11 6 ≠ 0 || fld pte 63 52 ≠ 0 || (big && l ≠ 3) ||
  (if leaf then (!bit pte 5 && fld pte 51 25 ≠ 0) || (big && fld pte 20 12 ≠ 0) else bit pte 5 || !tableOk (pteFrame pte))

/-- Walk the tables from level l with the table at a; n levels are left (R549, R550). -/
def State.walk (s : State) (va : W48) (l a : Nat) : Nat → WRes
  | 0 => .fault 2 4
  | n + 1 =>
    let e := a + fld va (39 - 9 * (l - 1) + 8) (39 - 9 * (l - 1)) * 8
    if s.eccAt e ≠ .good then .error e
    else
      let pte := BitVec.ofNat 64 (s.le e 8)
      if !bit pte 0 then .fault 1 l
      else if pteBad l pte then .fault 2 l
      else if l = 4 then .leaf pte false
      else if l = 3 && bit pte 4 then .leaf pte true
      else s.walk va (l + 1) (pteFrame pte) n

/-- The level of a leaf. -/
def leafLevel (big : Bool) : Nat := if big then 3 else 4

/-- The permission checks of a leaf (R550), and the address it gives. -/
def leafCheck (pte : W64) (big : Bool) (va : W48) (write user : Bool) : XRes :=
  let lv := leafLevel big
  let host := bit pte 5
  if !write && !bit pte 1 then .fault 3 lv
  else if write && !bit pte 2 then .fault 4 lv
  else if user && (!bit pte 3 || (!host && pteFrame pte < 0x00800000)) then .fault 5 lv
  else .ok { host := host, addr := pteFrame pte + (if big then va.toNat % 0x200000 else va.toNat % 4096) }

/-- The TLB of a cell, or with 8 the device TLB. -/
def State.tlb (s : State) (u : Nat) : List TlbEnt := Tab.get s.xl.tlb u []

def State.setTlb (s : State) (u : Nat) (l : List TlbEnt) : State := s.setXl { s.xl with tlb := Tab.set s.xl.tlb u l [] }

def TlbEnt.hits (x : TlbEnt) (bank ctx : Nat) (va : W48) : Bool :=
  x.bank = bank && x.ctx = ctx && x.vpn = (if x.big then va.toNat / 0x200000 else va.toNat / 4096)

/-- The translation a TLB holds. -/
def State.tlbLook (s : State) (u bank ctx : Nat) (va : W48) (write user : Bool) : XRes :=
  match (s.tlb u).find? fun x => x.hits bank ctx va with
  | some x => leafCheck x.pte x.big va write user
  | none => .miss

/-- How many entries a TLB holds (R552). -/
def tlbSize (u : Nat) : Nat := if u = 8 then 128 else 64

/-- Install a leaf. A full TLB replaces an entry that pseudo-LRU picks, which the spec does not define: a free value. -/
def State.tlbInstall (s : State) (u bank ctx : Nat) (va : W48) (pte : W64) (big : Bool) : State :=
  let x : TlbEnt := { bank := bank, ctx := ctx, big := big, vpn := if big then va.toNat / 0x200000 else va.toNat / 4096, pte := pte }
  let l := s.tlb u
  if l.length < tlbSize u then s.setTlb u (l ++ [x])
  else (s.setTlb u (l.set ((Config.freeW32 s.freeCtr).toNat % tlbSize u) x)).useFree

/-- The register that counts the misses and faults of a TLB (R552). -/
def tlbCnt (u : Nat) : Nat := if u = 8 then R.xlCommon_DTLB_CNT else R.xlCell_TLB_CNT u

/-- The root of a context's tables. -/
def State.ptRoot (s : State) (bank ctx : Nat) : Nat :=
  match s.ctxRec bank ctx with
  | some c => c.root.toNat
  | none => 0

/-- A table walk to its end: a leaf is installed, a fault is counted (R550, R552). -/
def State.walkFor (s : State) (u bank ctx : Nat) (va : W48) (write user install : Bool) : State × XRes :=
  match s.walk va 1 (s.ptRoot bank ctx) 4 with
  | .leaf pte big =>
    match leafCheck pte big va write user with
    | .fault c l => (s.inc (tlbCnt u) 31 16, .fault c l)
    | r => (if install then s.tlbInstall u bank ctx va pte big else s, r)
  | .fault c l => (s.inc (tlbCnt u) 31 16, .fault c l)
  | .error a => (s.doubleError a, .error a)

/-- A translation that waits for its walk, as DMA and kernels make it (notes/assumptions/20.md). -/
def State.translate (s : State) (u bank ctx : Nat) (va : W48) (write user : Bool) : State × XRes :=
  match s.tlbLook u bank ctx va write user with
  | .miss => (s.inc (tlbCnt u) 15 0).walkFor u bank ctx va write user true
  | r => (s, r)

/-- Drop the entries of a table bank when it is loaded or cleared (R552). -/
def State.tlbDropBank (s : State) (b : Nat) : State :=
  (List.range 9).foldl (fun s u => s.setTlb u ((s.tlb u).filter fun x => x.bank ≠ b)) s

/-- Whether an invalidation names an entry (R553, Table 16.9). -/
def invMatches (w vpn : W32) (x : TlbEnt) : Bool :=
  match fld w 1 0 with
  | 0 => true
  | 1 => x.ctx = fld w 13 8
  | 2 =>
    let page := fld w 19 16 * 2 ^ 32 + vpn.toNat
    x.ctx = fld w 13 8 && x.vpn = (if x.big then page / 512 else page)
  | _ => false

/-- Walks in progress become stale: they end without installing their result. -/
def Eng.staleWalks (g : Eng) : Eng :=
  { g with servs := g.servs.map fun v => { v with walks := v.walks.map fun w => { w with stale := true } } }

/-- Whether an engine still runs a walk begun before the invalidation. -/
def Eng.hasStale (g : Eng) : Bool := g.servs.any fun v => v.walks.any (·.stale)

/-- TLB_INV (R553): refused while BUSY or for SCOPE 3. -/
def State.tlbInvWrite (s : State) (w : W32) : State :=
  if s.xl.inv.isSome || fld w 1 0 = 3 then s.hwSetBits R.xlCommon_INV_STAT 2
  else
    let s := { s with engs := s.engs.map fun (x : Nat × Eng) => (x.1, x.2.staleWalks) }
    (s.setXl { s.xl with inv := some (w, s.rd R.xlCommon_INV_VPN) }).setB R.xlCommon_INV_STAT 0 true

def execTlbInv (t : Time) (m : Master) (val : W32) (s : State) : Host.Outcome State Fault Refusal :=
  .next (s.gated t m R.xlCommon_TLB_INV val fun s => s.tlbInvWrite val)

/-- INVALIDATION_DONE (R553): the matching entries are dropped and every walk begun before has ended. -/
def execInvalidationDone (t : Time) (s : State) : Host.Outcome State Fault Refusal :=
  let s := s.tick t
  .next (match s.xl.inv with
  | none => s
  | some (w, vpn) =>
    if s.engs.any fun (x : Nat × Eng) => x.2.hasStale then s else
    let s := (List.range 9).foldl (fun s u => s.setTlb u ((s.tlb u).filter fun x => !invMatches w vpn x)) s
    ((s.setXl { s.xl with inv := none }).setB R.xlCommon_INV_STAT 0 false).inc R.xlCommon_INV_STAT 31 16)

end Sys2Proof.Machine
end

