-- ==== Sys2Proof/Machine/Operands.lean ====
section
/-! DEFINITION. Brass operands: the register bank with the distances of Table 3.9, local addressing, and the instruction word (sections 3.5, 3.6, 3.8, 4.1 to
4.9). -/

namespace Sys2Proof.Machine

/-! ## Registers by code -/

def regA (i : Nat) : Nat := 32 + i
def regP (i : Nat) : Nat := 40 + i
def regB (i : Nat) : Nat := 48 + i
def regL (i : Nat) : Nat := 56 + i
def regM (i : Nat) : Nat := 64 + i
def regFLG : Nat := 72
def regCTL : Nat := 73
def regLC (n : Nat) : Nat := 74 + n

/-- Kinds of write: 0 in WB, 1 a multiply operation into an accumulator, 2 a pointer update in AD, 3 a loop counter in AD. -/
def kWB : Nat := 0
def kMac : Nat := 1
def kPtr : Nat := 2
def kLoop : Nat := 3

/-- Where a register is read: OP, AD, or as the accumulator of a multiply operation. -/
inductive Use where
  | op | ad | acc
  deriving DecidableEq, Repr

/-- The minimum distance from a producer of a kind to a use (Table 3.9, R91, R141). -/
def minDist (kind : Nat) (u : Use) : Nat :=
  if kind = 2 || kind = 3 then 1
  else match u with
    | .acc => if kind = 1 then 1 else 2
    | .op => 2
    | .ad => 3

/-- Whether a read at issue number idx sees a write (R92, R93). -/
def WriteH.seen (e : WriteH) (seed idx : Nat) (u : Use) : Bool :=
  idx - e.idx ≥ minDist e.kind u || (e.broken && Config.freeChoice seed (e.idx * 128 + e.reg))

/-- Of two writes of one register the one that lands later. -/
def WriteH.over (x : WriteH) : Option WriteH → WriteH
  | none => x
  | some y => if y.lands ≥ x.lands then y else x

/-- The write of a list, newest first, that lands last. -/
def lastWrite (l : List WriteH) : Option WriteH := l.foldl (fun b x => some (x.over b)) none

/-- The value a read sees among the latest writes, newest first (R92, R93). -/
def histRead (seed idx reg : Nat) (u : Use) (base : BitVec 112) (l : List WriteH) : BitVec 112 :=
  match lastWrite (l.filter fun e => e.reg = reg && e.seen seed idx u) with
  | some e => e.val
  | none => base

def Bank.read (b : Bank) (seed reg : Nat) (u : Use) : BitVec 112 := histRead seed b.idx reg u (Tab.get b.regs reg 0) b.hist

/-- The value the latest instruction that wrote a register left, whatever its distance: what a write of some bits of FLG keeps of the others. -/
def Bank.latest (b : Bank) (reg : Nat) : BitVec 112 :=
  match b.hist.find? (·.reg = reg) with
  | some e => e.val
  | none => Tab.get b.regs reg 0

/-- A write in stage WB, three stages after AD (Table 3.8). -/
def Bank.write (b : Bank) (reg : Nat) (v : BitVec 112) (kind : Nat) : Bank :=
  { b with hist := { reg := reg, val := v, idx := b.idx, kind := kind, broken := false, lands := 2 * (b.idx + 3) } :: b.hist }

/-- A write in stage AD. It stands over what it was formed from: writes in WB that it has seen; a move or load that reaches WB after it stands over it (R91). -/
def Bank.writeAd (b : Bank) (seed reg : Nat) (v : BitVec 112) (kind : Nat) : Bank :=
  let t := (b.hist.filter fun e => e.reg = reg && e.seen seed b.idx .ad).foldl (fun t e => max t (e.lands + 1)) (2 * b.idx + 1)
  { b with hist := { reg := reg, val := v, idx := b.idx, kind := kind, broken := false, lands := t } :: b.hist }

/-- Writes at distance 3 or more are seen by everything: of each register the one that lands last moves into the bank, and what landed before it is gone. -/
def Bank.settle (b : Bank) : Bank :=
  let old := b.hist.filter fun e => b.idx - e.idx ≥ 3
  let new := b.hist.filter fun e => b.idx - e.idx < 3
  { b with regs := old.foldr (fun e t => if old.any fun x => x.reg = e.reg && x.lands > e.lands then t else Tab.set t e.reg e.val 0) b.regs,
           hist := new.filter fun e => !old.any fun x => x.reg = e.reg && x.lands > e.lands }

/-- The next instruction issues. -/
def Bank.advance (b : Bank) : Bank := { b with idx := b.idx + 1 }.settle

/-- A stall, pre-emption or trap of another operation falls here (R93). -/
def Bank.breakHist (b : Bank) : Bank := { b with hist := b.hist.map fun e => { e with broken := true } }

/-- Every write has completed: the bank as a far load finds it when it lands in register reg. -/
def Bank.land (b : Bank) (reg : Nat) (v : W48) : Bank :=
  { b with regs := Tab.set b.regs reg (v.setWidth 112) 0, hist := b.hist.filter fun e => e.reg ≠ reg }

def Bank.d (b : Bank) (seed i : Nat) : W48 := (b.read seed i .op).setWidth 48
def Bank.a (b : Bank) (seed i : Nat) (u : Use) : BitVec 112 := b.read seed (regA i) u
def Bank.r16 (b : Bank) (seed reg : Nat) (u : Use) : BitVec 16 := (b.read seed reg u).setWidth 16
def Bank.setD (b : Bank) (i : Nat) (v : W48) : Bank := b.write i (v.setWidth 112) kWB
def Bank.setA (b : Bank) (i : Nat) (v : BitVec 112) (kind : Nat) : Bank := b.write (regA i) v kind
def Bank.set16 (b : Bank) (reg : Nat) (v : BitVec 16) (kind : Nat) : Bank := b.write reg (v.setWidth 112) kind
def Bank.setAd (b : Bank) (seed reg : Nat) (v : BitVec 16) (kind : Nat) : Bank := b.writeAd seed reg (v.setWidth 112) kind

/-- Two D registers written by one instruction. Where both are the same register the spec does not say which value stands: a free choice
(notes/assumptions/79.md). -/
def Bank.setD2 (b : Bank) (seed i j : Nat) (x y : W48) : Bank :=
  if i = j then b.setD i (if Config.freeBit seed then x else y) else (b.setD i x).setD j y

/-- CTL.SAT and CTL.SATACC as an instruction sees them. -/
def Bank.satMode (b : Bank) (seed : Nat) : Bool := bit (b.r16 seed regCTL .op) 0
def Bank.satAcc (b : Bank) (seed : Nat) : Bool := bit (b.r16 seed regCTL .op) 1

/-- Apply a flag update. -/
def Bank.flags (b : Bank) (u : FlagUpd) : Bank :=
  if u = {} then b else b.set16 regFLG (u.apply ((b.latest regFLG).setWidth 16)) kWB

/-! ## Local addresses (R83 to R87) -/

/-- wrap of R85. -/
def wrapPtr (b l : Nat) (x : Int) : Nat :=
  if l = 0 then (x % 65536).toNat else b + ((x - b) % (l : Int)).toNat

/-- The physical data word of a local address, and whether it is resident (Table 3.6); none outside every region. -/
def State.localWord (s : State) (e depth addr : Nat) : Option (Nat × Bool) :=
  let res := s.f (R.cell_LMAP (e / 4)) 6 0 * 256
  let fr := s.frame e depth
  if addr < res then some (addr, true)
  else if 0x4000 ≤ addr ∧ addr < 0x4000 + fr.2 then some (fr.1 + (addr - 0x4000), false)
  else none

/-- An access formed through a pointer: its address, and the bank with the pointer updated (Table 3.7). m: 0 indirect, 1 post-increment, 2
post-decrement, 3 post-modify. -/
def Bank.ptr (b : Bank) (seed p m : Nat) : Nat × Bank :=
  let pv : Int := (b.r16 seed (regP p) .ad).toNat
  let bv := (b.r16 seed (regB p) .ad).toNat
  let lv := (b.r16 seed (regL p) .ad).toNat
  let step : Int := match m with
    | 1 => 1
    | 2 => -1
    | 3 => (b.r16 seed (regM p) .ad).toInt
    | _ => 0
  (wrapPtr bv lv pv, if m = 0 then b else b.setAd seed (regP p) (BitVec.ofNat 16 (wrapPtr bv lv (pv + step))) kPtr)

/-- An indexed access (Table 3.7). -/
def Bank.indexed (b : Bank) (seed p : Nat) (off : Int) : Nat :=
  wrapPtr (b.r16 seed (regB p) .ad).toNat (b.r16 seed (regL p) .ad).toNat ((b.r16 seed (regP p) .ad).toNat + off)

/-! ## The instruction word (R109, R113, R116, R121, R124, R127, R142) -/

/-- The row of the instruction table a word belongs to. A word of no operation belongs to NOP's row and is invalid. -/
inductive BRow where
  | mac (op : MacOp)
  | alu (op : AluOp)
  | mem (opm : Nat)
  | ctl (code : Nat)
  deriving DecidableEq, Repr

/-- The control-class codes of Table 4.11. -/
def ctlCodes : List Nat :=
  [0x00, 0x01, 0x02, 0x03, 0x04, 0x05, 0x08, 0x09, 0x0A, 0x10, 0x11, 0x12, 0x13, 0x14, 0x15, 0x18, 0x19]

/-- The row of a word, and whether its operation exists. -/
def rowOfWord (w : W48) : BRow × Bool :=
  match fld w 47 46 with
  | 3 => match macOp (fld w 45 42) with
    | some op => (.mac op, true)
    | none => (.ctl 0, false)
  | 1 => match aluOp (fld w 45 41) with
    | some op => (.alu op, true)
    | none => (.ctl 0, false)
  | 2 => if fld w 45 43 < 6 then (.mem (fld w 45 43), true) else (.ctl 0, false)
  | _ => if ctlCodes.contains (fld w 45 40) then (.ctl (fld w 45 40), true) else (.ctl 0, false)

/-- Validity of a parallel word (R117, R119, R120). -/
def parValid (op : MacOp) (w : W48) : Bool :=
  let eae := bit w 28
  let lae := bit w 17
  fld w 5 0 = 0 &&
  (match op with
   | .none => fld w 41 29 = 0
   | .macx | .msux => !bit w 41
   | .adda => fld w 33 29 = 0
   | _ => true) &&
  (eae || fld w 27 18 = 0) && (lae || fld w 16 6 = 0) &&
  !(eae && lae && fld w 22 20 = fld w 10 8 && !(fld w 19 18 = 0 || fld w 19 18 = fld w 7 6)) &&
  !(eae && lae && !bit w 16 && fld w 27 23 = fld w 15 11)

/-- Validity of an ALU word (Table 4.7, R122, R123). -/
def aluValid (op : AluOp) (w : W48) : Bool :=
  let i := bit w 40
  (op.lanes || !bit w 39) &&
  (if i then fld w 28 24 = 0 else fld w 23 0 = 0) &&
  (match op with
   | .neg | .abs | .not => !i && fld w 28 24 = 0
   | .mov => if i then fld w 33 29 = 0 && true else fld w 28 24 = 0
   | .movh => i
   | .cmov => !i && !bit w 28 && fld w 27 24 ≠ 15
   | .cmp | .tst => fld w 38 34 = 0
   | .asl | .asr | .lsl | .lsr => !i || fld w 23 6 = 0
   | _ => true)

/-- Validity of a memory word (Table 4.9, R125). -/
def memValid (w : W48) : Bool :=
  if fld w 45 43 ≥ 4 then fld w 42 37 = 0 && fld w 10 0 = 0
  else
    fld w 15 0 = 0 &&
    (match fld w 42 40 with
     | 0 => fld w 39 37 = 0
     | 5 => fld w 31 23 = 0
     | 1 | 2 | 3 | 4 => fld w 31 16 = 0
     | _ => false) &&
    !(fld w 45 43 = 2 && (fld w 42 40 = 2 || fld w 42 40 = 3 || fld w 42 40 = 4) && fld w 36 35 = 0 && fld w 34 32 = fld w 39 37)

/-- The bits a control word may set below its operation (Table 4.11). -/
def ctlFields (w : W48) : List (Nat × Nat) :=
  let i38 := bit w 38
  let k := fld w 39 38
  match fld w 45 40 with
  | 0x01 => [(39, 36), (12, 0)]
  | 0x02 => [(39, 36), (33, 29)]
  | 0x03 => [(39, 36), (33, 29), (12, 0)]
  | 0x04 => [(39, 38), if i38 then (28, 13) else (33, 29), (12, 0)]
  | 0x08 => [(39, 34), (33, 29)]
  | 0x09 => [(39, 34), (33, 29)]
  | 0x0A => [(39, 34), (15, 0)]
  | 0x10 => [(39, 39), (37, 36), (33, 29), (27, 22)]
  | 0x11 => [(39, 39), (37, 36), (33, 29)]
  | 0x12 => [(37, 36)]
  | 0x13 => if k < 2 then [(39, 38), (33, 29), (28, 24)] else [(39, 38), (37, 36), (33, 29)]
  | 0x14 => if k < 2 then [(39, 38), (33, 29), (28, 24), (23, 19)] else [(39, 38), (37, 36), (23, 19)]
  | 0x15 => if bit w 39 then [(39, 39), (33, 29), (28, 24), (23, 19), (5, 0)] else [(39, 39), (33, 29), (28, 24), (23, 19), (18, 14)]
  | 0x18 => [(39, 34), (33, 29)]
  | 0x19 => [(39, 38), (33, 29)]
  | _ => []

/-- Validity of a control word (R127, R132, R137, R142, Table 4.12). -/
def ctlValid (w : W48) : Bool :=
  (ctlFields w).foldl (fun x f => setFld x f.1 f.2 0) (setFld w 47 40 0) = 0 &&
  (match fld w 45 40 with
   | 0x01 | 0x02 | 0x03 => fld w 39 36 ≠ 15
   | 0x08 | 0x0A => fld w 39 34 ≤ 0x23
   | 0x09 => fld w 39 34 ≤ 0x24
   | 0x15 => !bit w 39 || (-24 ≤ sfld w 5 0 && sfld w 5 0 ≤ 23)
   | 0x18 => fld w 39 34 ≤ 0x0F
   | _ => true)

/-- Whether a word's encoding is valid (R113, R142). -/
def wordValid (w : W48) : Bool :=
  let r := rowOfWord w
  r.2 && (match r.1 with
    | .mac op => parValid op w
    | .alu op => aluValid op w
    | .mem _ => memValid w
    | .ctl _ => ctlValid w)

/-- The D registers a word reads or writes, for the far-load interlock (R89). -/
def wordD (w : W48) : List Nat :=
  match rowOfWord w with
  | (.mac op, _) =>
    (match op with
     | .none => []
     | .adda => [fld w 38 34]
     | _ => [fld w 38 34, fld w 33 29]) ++
    (if bit w 28 then [fld w 27 23] else []) ++ (if bit w 17 then [fld w 15 11] else [])
  | (.alu op, _) =>
    (match op with
     | .cmp | .tst => []
     | _ => [fld w 38 34]) ++
    (if op = .mov && bit w 40 then [] else [fld w 33 29]) ++
    (if bit w 40 || op = .cmov || op = .neg || op = .abs || op = .not || op = .mov then [] else [fld w 28 24])
  | (.mem o, _) =>
    if o = 0 || o = 1 then [fld w 36 32] else if o ≥ 4 then [fld w 36 32, fld w 31 27] else []
  | (.ctl c, _) =>
    match c with
    | 0x02 | 0x03 | 0x08 | 0x09 | 0x10 | 0x11 | 0x18 | 0x19 => [fld w 33 29]
    | 0x04 => if bit w 38 then [] else [fld w 33 29]
    | 0x13 => if fld w 39 38 < 2 then [fld w 33 29, fld w 28 24] else [fld w 33 29]
    | 0x14 => if fld w 39 38 < 2 then [fld w 33 29, fld w 28 24, fld w 23 19] else [fld w 23 19]
    | 0x15 => [fld w 33 29, fld w 28 24, fld w 23 19] ++ (if bit w 39 then [] else [fld w 18 14])
    | _ => []

end Sys2Proof.Machine
end

