-- ==== Sys2Proof/Machine/BrassBase.lean ====
section
/-! DEFINITION. Traps, far accesses, local accesses and the issue of an instruction (sections 3.5 to 3.10, 4.1, 4.6). -/

namespace Sys2Proof.Machine

/-! ## Traps (R101, R107) -/

/-- Record a trap in the engine page (R106, R107). -/
def State.recordTrap (s : State) (e depth key code pc addr : Nat) : State :=
  let p := enginePage e
  let s :=
    if s.b (R.engine_TRAP_STAT e) 0 then s.inc (R.engine_TRAP_STAT e) 31 16
    else
      let s := (s.wr (R.engine_TRAP_STAT e) (BitVec.ofNat 32 (code * 16 + depth * 256 + 65536))).hwSetBits (R.engine_TRAP_STAT e) 1
      let s := s.wr (R.engine_TRAP_PC e) (BitVec.ofNat 32 pc)
      let s := s.wr (R.engine_TRAP_OP e) (BitVec.ofNat 32 (key % 4096 + (s.opRec key).ctx * 65536))
      (s.wr48 (R.engine_TRAP_ADDR_LO e) (BitVec.ofNat 48 addr)).irqB p 8
  s

/-- A trap of the operation at a depth (R101, R165): it is recorded and the operation aborted. Codes 6 and 7 count against the engine (Table 3.11);
LOCKSTEP is also Sinter's class ENGINE (Table 14.5). -/
def State.trap (s : State) (e depth code pc addr : Nat) : State :=
  let g := s.eng e
  match g.servs[g.servs.length - 1 - depth]? with
  | none => s
  | some v =>
    let s := s.recordTrap e depth v.key code pc addr
    let s := s.abortAt e depth (trapDisposition code) code
    let s := s.setEng e { s.eng e with servs := (s.eng e).servs.map fun x => { x with bank := x.bank.breakHist } }
    if code = 7 then (s.failure 4).engineFault e else s

/-- The depth of the operation at the top. -/
def State.topDepth (s : State) (e : Nat) : Nat := (s.eng e).servs.length - 1

/-! ## Translation for an engine (R552, R554) -/

/-- The context of an operation: table bank, context number, and whether it runs at user privilege. -/
def State.opCtx (s : State) (key : Nat) : Nat × Nat × Bool :=
  let c := (s.opRec key).ctx
  (key / 4096, c, match s.ctxRec (key / 4096) c with
    | some x => x.priv = 0
    | none => true)

/-- Record a translation fault in the cell's translation page (R554). -/
def State.recordFlt (s : State) (e key : Nat) (va : W48) (code level : Nat) (write user : Bool) : State :=
  let c := e / 4
  if s.b (R.xlCell_FLT_INFO c) 0 then s.inc (R.xlCell_FLT_OP c) 31 24
  else
    let s := s.wr48 (R.xlCell_FLT_VA_LO c) va
    let s := s.wr (R.xlCell_FLT_INFO c)
      (BitVec.ofNat 32 (code * 16 + (level - 1) * 256 + b2n write * 1024 + b2n user * 2048 + (s.opRec key).ctx * 65536))
    let s := s.wr (R.xlCell_FLT_OP c) (BitVec.ofNat 32 (key % 4096 + e % 4 * 65536 + 2 ^ 24))
    (s.hwSetBits (R.xlCell_FLT_INFO c) 1).irqB (P.xlCell c) 8

/-- An access that reaches its place fails where it is not aligned to 64 bits (Table 2.1, R126). -/
def farAlign (p : Phys) : Option FailKind := if p.addr % 8 = 0 then none else some .size

/-- Conditions of R40 that depend only on the address of a 64-bit access (R90, R126), R522, R551 and, for host memory, R532. -/
def State.farFail (s : State) (p : Phys) : Option FailKind :=
  if p.host then (if s.pairMode || !s.pcie.busMaster || s.pcie.d3hot then some .unmapped else farAlign p)
  else if s.isolated p.addr then some .unmapped
  else if p.addr < 0x00800000 then (if (pageKind (p.addr / 0x1000)).isSome then farAlign p else some .unmapped)
  else if p.addr < 0x01000000 then (if p.addr % 0x40000 < 0x30000 then farAlign p else some .unmapped)
  else if (s.phys p.addr).isSome then farAlign p
  else some .retired

/-- Trap for a failed far access (R90): recorded under R40 where it is a failed access of R40. -/
def State.farTrap (s : State) (e depth pc : Nat) (va : W48) (p : Phys) (write : Bool) (k : FailKind) : State :=
  (if p.host then s else if s.isolated p.addr then s.isolate .engine p.addr write else s.failAccess .engine p.addr write k).trap e depth 5 pc va.toNat

/-! ## Far accesses in service (R88, R89, R162) -/

/-- Enter a store into a commit buffer, where the latest store to a location stands; none when it would be the 65th location (R162). -/
def cbufPut (l : List CEnt) (x : CEnt) : Option (List CEnt) :=
  if l.any fun y => y.at' = x.at' then some (l.map fun y => if y.at' = x.at' && y.seq ≤ x.seq then x else y)
  else if l.length ≥ 64 then none
  else some (l ++ [x])

/-- Far loads an operation has pending, walks included (R89). -/
def Serv.pendingD (v : Serv) : List Nat := v.loads.map (·.d) ++ (v.walks.filter fun w => !w.store).map (·.d)

/-- Replace the operation at a depth. -/
def State.setServ (s : State) (e depth : Nat) (v : Serv) : State :=
  let g := s.eng e
  s.setEng e { g with servs := g.servs.set (g.servs.length - 1 - depth) v }

def State.servAt (s : State) (e depth : Nat) : Option Serv :=
  let g := s.eng e
  if depth < g.servs.length then g.servs[g.servs.length - 1 - depth]? else none

/-- A load's own-store value after store x of the operation has entered the commit buffer (R88). -/
def FLoad.note (l : FLoad) (x : CEnt) : FLoad :=
  if l.at' = x.at' && x.seq < l.seq && (match l.own with
    | some y => y.1 ≤ x.seq
    | none => true) then { l with own := some (x.seq, x.val) } else l

/-- A translated far access takes its place: a load becomes pending, a store enters the commit buffer (R88, R90). -/
def State.farGo (s : State) (e depth : Nat) (v : Serv) (w : FWalk) (p : Phys) : State :=
  match s.farFail p with
  | some k => (s.setServ e depth v).farTrap e depth w.pc w.va p w.store k
  | none =>
    if w.store then
      let x : CEnt := { at' := p, va := w.va, val := w.val, seq := w.seq }
      match cbufPut v.cbuf x with
      | some l => (s.setServ e depth { v with cbuf := l, loads := v.loads.map (·.note x) }).perfEv e 0x21 1 p.off
      | none => (s.setServ e depth v).trap e depth 5 w.pc w.va.toNat
    else
      let l : FLoad := { d := w.d, at' := p, va := w.va, seq := w.seq, pc := w.pc }
      let s := s.setServ e depth { v with loads := v.loads ++ [v.cbuf.foldl FLoad.note l] }
      ((s.perfEv e 0x20 1 p.off).bwEngine e 0 1 p)

/-- A far access is issued (R126): the TLB answers, or a walk begins (R552); what the address is checked for follows its translation. -/
def State.farIssue (s : State) (e depth : Nat) (v : Serv) (store : Bool) (d : Nat) (val va : W48) (pc : Nat) : State :=
  let c := s.opCtx v.key
  let w : FWalk := { store := store, d := d, val := val, va := va, seq := v.seq, pc := pc, stale := false }
  let v := { v with seq := v.seq + 1 }
  match s.tlbLook (e / 4) c.1 c.2.1 va store c.2.2 with
  | .ok p => s.farGo e depth v w p
  | .fault code lv => ((s.setServ e depth v).recordFlt e v.key va code lv store c.2.2).trap e depth 4 pc va.toNat
  | _ =>
    let s := s.setServ e depth { v with walks := v.walks ++ [w] }
    (s.inc (tlbCnt (e / 4)) 15 0).perfEv e 0x23 1 none

/-! ## Local accesses (R83, R84) -/

/-- The result of a local read: a word, or the trap it meets with its address. -/
inductive LRes where
  | word (v : W48)
  | trap (code addr : Nat)
  deriving DecidableEq, Repr

/-- A read of local data. Frame words that nothing has written since entry are undefined (R84). -/
def State.localRead (s : State) (e depth seed addr : Nat) : LRes :=
  match s.localWord e depth addr with
  | none => .trap 2 addr
  | some (w, res) =>
    if s.eccAt (engDataAddr e w) ≠ .good then .trap 6 addr
    else if res || (s.eng e).written.contains w then .word (s.word48 (engDataAddr e w))
    else .word (Config.freeFrame seed w)

/-- Why a local write traps, if it does. -/
def State.localWriteTrap (s : State) (e depth addr : Nat) : Option Nat :=
  match s.localWord e depth addr with
  | none => some 2
  | some (_, true) => some 3
  | some (_, false) => none

/-- A frame word has been written (R84). -/
def State.noteWord (s : State) (e w : Nat) : State :=
  if (s.eng e).written.contains w then s else s.setEng e { s.eng e with written := w :: (s.eng e).written }

def State.localWrite (s : State) (e depth addr : Nat) (v : W48) : State :=
  match s.localWord e depth addr with
  | some (w, false) => (s.setWord48 (engDataAddr e w) v).noteWord e w
  | _ => s

/-- A trap of the instruction at the top, with a 16-bit local address (R107): for a double-bit error in the engine's memory the error is also reported under R17. -/
def State.localTrap (s : State) (e depth code pc addr : Nat) (dev : Nat) : State :=
  let s := s.trap e depth code pc (addr % 65536)
  if code = 6 then s.doubleError dev else s

/-- The device address of a local address, for reporting an error. -/
def State.localDev (s : State) (e depth addr : Nat) : Nat :=
  match s.localWord e depth addr with
  | some (w, _) => engDataAddr e w
  | none => 0

/-! ## Issue (R91, R110 to R113, R129, R130) -/

/-- What an instruction does once it issues: the operation's new bank and other state; the same with a far access that goes to translation; or a trap with
its code and address. -/
inductive IRes where
  | ok (s : State) (v : Serv)
  | far (v : Serv) (store : Bool) (d : Nat) (val va : W48)
  | trap (s : State) (code addr : Nat)

/-- A branch or a DONE has delay slots still to issue. -/
def Bank.inSlot (b : Bank) : Bool := b.br.isSome || b.slots > 0 || b.fin.any (· > 0)

/-- Loop n is active, as a loop-end test sees it. -/
def Bank.loopOn (b : Bank) (seed n : Nat) : Bool := b.r16 seed (regLC n) .ad ≠ 0

/-- Whether an address lies at the end of an active loop or up to k addresses before it, as addresses follow each other (R112; notes/assumptions/80.md). -/
def Bank.nearEnd (b : Bank) (seed a k : Nat) : Bool :=
  let near (x : Nat) : Bool := (x + 8192 - a) % 8192 ≤ k
  (b.loopOn seed 0 && near b.le0) || (b.loopOn seed 1 && near b.le1)

/-- The forms that are invalid when they issue (Table 4.13). -/
def issueBad (b : Bank) (seed : Nat) (w : W48) : Bool :=
  match rowOfWord w with
  | (.ctl c, _) =>
    if 1 ≤ c && c ≤ 5 then
      b.inSlot || (if c = 4 then b.nearEnd seed b.pc 0 || fld w 12 0 ≤ b.pc else b.nearEnd seed b.pc 2)
    else false
  | _ => false

/-- The loop-end test of loop n: the bank after it, and the address it loops back to (R129). -/
def Bank.loopTest (b : Bank) (seed n : Nat) : Bank × Option Nat :=
  let lc := (b.r16 seed (regLC n) .ad).toNat
  if lc > 1 then (b.setAd seed (regLC n) (BitVec.ofNat 16 (lc - 1)) kLoop, some (if n = 0 then b.ls0 else b.ls1))
  else (b.setAd seed (regLC n) 0 kLoop, none)

/-- The loop-end tests at address a: loop 1 first, loop 0 only when loop 1 falls through (R130). -/
def Bank.loopEnd (b : Bank) (seed a : Nat) : Bank × Option Nat :=
  let r := if b.loopOn seed 1 && b.le1 = a then b.loopTest seed 1 else (b, none)
  match r.2 with
  | some t => (r.1, some t)
  | none => if b.loopOn seed 0 && b.le0 = a then r.1.loopTest seed 0 else r

/-- The address after the present one (R112), with the delay slots counted: a taken branch's target after its second slot. -/
def Bank.next (b : Bank) (dflt : Nat) : Bank :=
  let b := { b with slots := b.slots - 1, fin := b.fin.map (· - 1) }
  match b.br with
  | some (1, t) => { b with br := none, pc := t }
  | some (n, t) => { b with br := some (n - 1, t), pc := dflt }
  | none => { b with pc := dflt }

/-- Whether the engine can issue an instruction of its top operation now. -/
def State.canIssue (s : State) (e : Nat) (v : Serv) : Bool :=
  s.engUp e && !s.cellInReset (e / 4) && (s.eng e).mode = 0 && v.key ≠ runtimeKey && (s.opRec v.key).program && !v.ended && !v.draining &&
  !(v.bank.fin = some 0)

/-- How many far loads the operations of an engine have pending (R89). -/
def State.pendingLoads (s : State) (e : Nat) : Nat := ((s.eng e).servs.flatMap Serv.pendingD).length

/-- Issue the instruction at PC when it belongs to row r, with meaning f given the bank as it stands when the instruction reads its operands. Where the
far-load interlock holds it back nothing issues (R89). Where ok is false the engine's self-check fails while it runs: LOCKSTEP (Table 3.11). -/
def State.issue (s : State) (t : Time) (e : Nat) (r : BRow) (f : State → Nat → Serv → W48 → IRes) (ok : Bool := true) : State :=
  let s := s.tick t
  match s.top e with
  | none => s
  | some v =>
    let a := engInstrAddr e v.bank.pc
    let w := s.word48 a
    if !s.canIssue e v || (rowOfWord w).1 ≠ r then s
    else
      let depth := s.topDepth e
      let pc := v.bank.pc
      let isLoad := r = .mem 4
      if wordValid w && ((wordD w).any fun d => v.pendingD.contains d) || (isLoad && s.pendingLoads e ≥ 4) then
        (s.setTop e { v with bank := v.bank.breakHist }).slots e 2
      else if s.eccAt a ≠ .good then ((s.slotIssue e false 1 pc).localTrap e depth 6 pc pc a)
      else
        let b := v.bank.advance
        if !wordValid w || issueBad b s.freeCtr w then (s.slotIssue e false 1 pc).trap e depth 1 pc 0
        else if !ok then (s.slotIssue e false 1 pc).trap e depth 7 pc 0
        else
          let lp := b.loopEnd s.freeCtr pc
          let dflt := match lp.2 with
            | some x => x
            | none => (pc + 1) % 8192
          let after (s' : State) (v' : Serv) (wait : Bool) : State × Serv :=
            let b' := if r = .ctl 4 then v'.bank else v'.bank.next dflt
            let v' := { v' with bank := b', ended := b'.fin = some 0 }
            let s' := if b.hist.any (·.broken) then s'.useFree else s'
            (s'.slotIssue e true (if v'.ended then 3 else if r = .ctl 4 && b'.pc ≠ (pc + 1) % 8192 then 1 else if wait then 2 else 5) pc, v')
          match f s depth { v with bank := lp.1 } w with
          | .trap s code addr => (s.slotIssue e false 1 pc).localTrap e depth code pc addr (s.localDev e depth addr)
          | .ok s' v' =>
            let x := after s' v' !v'.pendingD.isEmpty
            x.1.setTop e x.2
          | .far v' store d val va =>
            let x := after s v' (!store || !v'.pendingD.isEmpty)
            x.1.farIssue e depth x.2 store d val va pc

/-- Instructions in flight complete, and the operation's writes are seen whatever their distance. -/
def Bank.complete (b : Bank) : Bank := { b with idx := b.idx + 3 }.settle

end Sys2Proof.Machine
end

