-- ==== Sys2Proof/Machine/Image.lean ====
section
/-! DEFINITION. The graph image: its layout, the checks of Table 5.10 in order, and the graph it gives (sections 5.9 and 5.10). -/

namespace Sys2Proof.Machine

/-- An image as Lahar read it: its bytes from the first, and what a byte table gives. -/
abbrev Img := List Byte

def Img.le (i : Img) (off n : Nat) : Nat := leNat ((i.drop off).take n)

/-- A reason of rejection: CODE and INDEX (Table 5.10). -/
abbrev Rej := Option (Nat × Nat)

/-- The first rejection of a list of checks. -/
def firstRej : List Rej → Rej
  | [] => none
  | some r :: _ => some r
  | none :: l => firstRej l

def rejIf (c : Bool) (code idx : Nat) : Rej := if c then some (code, idx) else none

/-- Bits [hi:lo] of a number. -/
def nbits (x hi lo : Nat) : Nat := x / 2 ^ lo % 2 ^ (hi + 1 - lo)

/-! ## Header (Table 5.6) -/

def Img.opCount (i : Img) : Nat := i.le 0x0C 2
def Img.flowCount (i : Img) : Nat := i.le 0x0E 2
def Img.arcCount (i : Img) : Nat := i.le 0x10 4
def Img.ctxCount (i : Img) : Nat := i.le 0x14 2
def Img.total (i : Img) : Nat := i.le 0x08 4

/-- The five tables: offset and size. -/
def Img.tables (i : Img) : List (Nat × Nat) :=
  [(i.le 0x18 4, 32 * i.opCount), (i.le 0x1C 4, 8 * i.arcCount), (i.le 0x20 4, 16 * i.flowCount), (i.le 0x24 4, 16 * i.ctxCount), (i.le 0x28 4, 128)]

/-- No two ranges overlap. -/
def disjoint : List (Nat × Nat) → Bool
  | [] => true
  | x :: r => r.all (fun y => x.1 + x.2 ≤ y.1 || y.1 + y.2 ≤ x.1 || x.2 = 0 || y.2 = 0) && disjoint r

/-- The bytes of an image with its CRC field read as 0. -/
def Img.crcBytes (i : Img) : List Byte := i.take 0x2C ++ [0, 0, 0, 0] ++ i.drop 0x30

/-- Row FORMAT, for an image read from offset off of shared memory; bad says that a double-bit error was met. -/
def Img.formatBad (i : Img) (off : Nat) (bad : Bool) : Bool :=
  bad || i.le 0 4 ≠ 0x3152484C || i.le 4 2 ≠ 1 || i.total < 128 || i.total > 2097152 || off + i.total > 0x800000 ||
  i.le 0x16 2 ≠ 0 || (i.drop 0x50).take 48 ≠ List.replicate 48 0 ||
  i.tables.any (fun t => t.1 % 8 ≠ 0 || t.1 < 0x80 || t.1 + t.2 > i.total) || !disjoint i.tables ||
  crc32 i.crcBytes ≠ BitVec.ofNat 32 (i.le 0x2C 4)

/-! ## Records -/

def Img.opAt (i : Img) (k : Nat) : Nat := i.le 0x18 4 + 32 * k
def Img.arcAt (i : Img) (k : Nat) : Nat := i.le (i.le 0x1C 4 + 8 * k) 8
def Img.flowAt (i : Img) (k : Nat) : Nat := i.le 0x20 4 + 16 * k
def Img.ctxAt (i : Img) (k : Nat) : Nat := i.le 0x24 4 + 16 * k
def Img.cellAt (i : Img) (k : Nat) : Nat := i.le 0x28 4 + 16 * k
def Img.dlAt (i : Img) (k : Nat) : Nat := i.le (0x30 + 8 * k) 8

/-- An operation record (Table 5.7). -/
def Img.op (i : Img) (k : Nat) : OpRec :=
  let a := i.opAt k
  let w := i.le a 2
  let f := i.le (a + 2) 2
  { program := nbits w 1 0 = 1, prio := nbits w 4 2, cell := nbits w 7 5, ctx := nbits w 13 8,
    flow := if nbits f 15 15 = 1 then none else some (nbits f 8 0),
    nIn := nbits (i.le (a + 4) 2) 3 0, nOut := nbits (i.le (a + 4) 2) 7 4, code := nbits (i.le (a + 6) 2) 12 0, param := BitVec.ofNat 48 (i.le (a + 8) 6) }

/-- An arc record (Table 5.8). -/
def Img.arc (i : Img) (k : Nat) : ArcRec :=
  let w := i.arcAt k
  { dstOp := nbits w 11 0, dstPort := nbits w 14 12, src := nbits w 27 16, srcPort := nbits w 30 28, kind := nbits w 34 32, keep := nbits w 35 35 = 1,
    init := nbits w 36 36 = 1, viaDl := nbits w 40 40 = 1, dl := nbits w 42 41, delay := nbits w 63 48 }

def Img.ctx (i : Img) (k : Nat) : CtxRec :=
  let a := i.ctxAt k
  { id := i.le a 1, priv := i.le (a + 1) 1, root := BitVec.ofNat 48 (i.le (a + 8) 6) }

def Img.cell (i : Img) (k : Nat) : CellRec :=
  let a := i.cellAt k
  { lmap := BitVec.ofNat 32 (i.le a 4), ctlInit := BitVec.ofNat 32 (i.le (a + 4) 4), spill := BitVec.ofNat 32 (i.le (a + 8) 4),
    cfg := BitVec.ofNat 32 (i.le (a + 12) 4) }

def Img.dl (i : Img) (k : Nat) : DlRec :=
  let w := i.dlAt k
  { mode := nbits w 1 0, lp := nbits w 3 2, period := nbits w 25 16, lpInc := nbits w 63 32 }

/-- The graph of an image. -/
def Img.graph (i : Img) : Graph :=
  { imageId := i.le 6 2, ops := (List.range i.opCount).map i.op, arcs := (List.range i.arcCount).map i.arc,
    flows := (List.range i.flowCount).map fun k => (nbits (i.le (i.flowAt k) 1) 0 0 = 1, nbits (i.le (i.flowAt k) 1) 1 1 = 1),
    ctxs := (List.range i.ctxCount).map i.ctx, cells := (List.range 8).map i.cell, dls := (List.range 4).map i.dl }

/-! ## Row RANGE -/

def Img.dlBad (i : Img) (k : Nat) : Bool :=
  let w := i.dlAt k
  let d := i.dl k
  nbits w 15 4 ≠ 0 || nbits w 31 26 ≠ 0 || (d.mode = 2 && (d.period = 0 || d.period > 1000)) || (d.mode = 3 && (d.lpInc = 0 || d.lpInc ≥ 2 ^ 31))

def Img.opRange (i : Img) (k : Nat) : Bool :=
  let a := i.opAt k
  let o := i.op k
  let w := i.le a 2
  let f := i.le (a + 2) 2
  nbits w 1 0 > 1 || o.prio > 6 || nbits w 15 14 ≠ 0 || nbits f 14 9 ≠ 0 || (nbits f 15 15 = 1 && nbits f 8 0 ≠ 0) ||
  (nbits f 15 15 = 0 && nbits f 8 0 ≥ i.flowCount) || nbits (i.le (a + 4) 2) 15 8 ≠ 0 || o.nIn = 0 || o.nIn > 8 || o.nOut > 8 ||
  nbits (i.le (a + 6) 2) 15 13 ≠ 0 || (!o.program && (o.code = 0 || o.code > 10)) || o.param.toNat % 8 ≠ 0 || i.le (a + 14) 2 ≠ 0 ||
  i.le (a + 0x14) 12 ≠ 0

def Img.arcRange (i : Img) (k : Nat) : Bool :=
  let w := i.arcAt k
  let a := i.arc k
  nbits w 15 15 ≠ 0 || nbits w 31 31 ≠ 0 || nbits w 39 37 ≠ 0 || nbits w 47 43 ≠ 0 || a.kind = 7 || (a.kind ≠ 0 && (a.srcPort ≠ 0 || a.viaDl)) ||
  (!a.viaDl && (a.dl ≠ 0 || a.delay ≠ 0)) ||
  (a.kind = 1 && (a.src ≥ 256 || a.src % 32 > 23)) || (a.kind = 2 && a.src > 63) || (3 ≤ a.kind && a.kind ≤ 5 && a.src > 255)

def Img.flowRange (i : Img) (k : Nat) : Bool :=
  let a := i.flowAt k
  i.le a 4 > 3 || i.le (a + 8) 8 ≠ 0

def Img.ctxRange (i : Img) (k : Nat) : Bool :=
  let a := i.ctxAt k
  let c := i.ctx k
  c.id > 63 || c.priv > 1 || i.le (a + 2) 6 ≠ 0 || i.le (a + 14) 2 ≠ 0 || !(c.root.toNat % 4096 = 0 && 0x01000000 ≤ c.root.toNat && c.root.toNat ≤ 0x017FF000)

/-- The fields of LMAP, CTL_INIT and SPILL_BASE within their ranges (Table 5.9, R104). -/
def cellFieldsBad (c : CellRec) : Bool :=
  fld c.lmap 6 0 > 63 || fld c.lmap 14 8 = 0 || fld c.lmap 14 8 > 62 || fld c.lmap 22 16 = 0 || fld c.lmap 22 16 > 62 ||
  bit c.lmap 7 || bit c.lmap 15 || fld c.lmap 31 23 ≠ 0 || fld c.ctlInit 31 2 ≠ 0 || fld c.spill 10 0 ≠ 0 || fld c.spill 31 20 ≠ 0

def Img.cellRange (i : Img) (k : Nat) : Bool :=
  let c := i.cell k
  cellFieldsBad c || fld c.cfg 31 15 ≠ 0 || fld c.cfg 14 12 = k

/-! ## Row AGREE -/

/-- Ports of an operation not fed by exactly one arc, or a context without a record. -/
def Graph.opAgree (g : Graph) (k : Nat) : Bool :=
  let o := g.ops.getD k noOp
  ((List.range o.nIn).any fun p => (g.arcs.filter fun a => a.dstOp = k && a.dstPort = p).length ≠ 1) || !(g.ctxs.any fun c => c.id = o.ctx)

def Graph.arcAgree (g : Graph) (a : ArcRec) : Bool :=
  a.dstOp ≥ g.ops.length || a.dstPort ≥ (g.ops.getD a.dstOp noOp).nIn ||
  ((a.kind = 0 || a.kind = 6) && a.src ≥ g.ops.length) || (a.kind = 0 && a.srcPort ≥ (g.ops.getD a.src noOp).nOut) ||
  (a.viaDl && (match g.dls[a.dl]? with
    | some d => d.mode = 0
    | none => true))

/-- Frame 0 gets no block (R104). -/
def noFrame0 (lmap : W32) : Bool := fld lmap 6 0 + fld lmap 14 8 + fld lmap 22 16 ≥ 64

/-- A cell record that breaks R104 or R174. -/
def Graph.cellAgree (g : Graph) (c : CellRec) : Bool :=
  let home := fld c.cfg 3 0 * 0x10000
  let base := fld c.cfg 7 4 * 0x10000
  let res := fld c.cfg 11 8 * 0x10000
  let sp := fld c.spill 19 0
  noFrame0 c.lmap || base + res > 0x100000 || sp + 2048 > 0x100000 || !disjoint [(0, home), (base, res), (sp, 2048)] ||
  (match g.cells[fld c.cfg 14 12]? with
   | some f => fld f.cfg 11 8 < fld c.cfg 3 0
   | none => true)

/-- Whether context k repeats the identifier of an earlier one. -/
def Graph.ctxDup (g : Graph) (k : Nat) : Bool :=
  match g.ctxs[k]? with
  | some c => (g.ctxs.take k).any fun d => d.id = c.id
  | none => false

/-- Records of a table that fail a check, as rejections with their index. -/
def rejTable (n code : Nat) (bad : Nat → Bool) : Rej := firstRej ((List.range n).map fun k => rejIf (bad k) code k)

/-- Every check of Table 5.10 in its order (R176). -/
def Img.check (i : Img) (off : Nat) (bad : Bool) : Rej :=
  if i.formatBad off bad then some (1, 0xFFFF)
  else if i.opCount = 0 || i.opCount > 4096 then some (2, 0xFFFF)
  else if i.arcCount = 0 || i.arcCount > 16384 then some (3, 0xFFFF)
  else if i.flowCount > 512 then some (4, 0xFFFF)
  else if i.ctxCount = 0 || i.ctxCount > 64 then some (5, 0xFFFF)
  else
    let g := i.graph
    firstRej [
      firstRej ((List.range 4).map fun k => rejIf (i.dlBad k) 6 (0xFFF0 + k)),
      rejTable i.opCount 6 i.opRange, rejTable i.arcCount 6 i.arcRange, rejTable i.flowCount 6 i.flowRange, rejTable i.ctxCount 6 i.ctxRange,
      rejTable 8 6 i.cellRange,
      rejTable i.opCount 7 g.opAgree,
      rejTable i.arcCount 7 (fun k => match g.arcs[k]? with
        | some a => g.arcAgree a
        | none => true),
      rejTable i.ctxCount 7 g.ctxDup,
      rejTable 8 7 (fun k => match g.cells[k]? with
        | some c => g.cellAgree c
        | none => true)]

end Sys2Proof.Machine
end

