-- ==== Sys2Proof/Machine/LaharCmds.lean ====
section
/-! DEFINITION. Lahar's commands and events (chapter 5), with the engines' acceptance of a pre-emption, spill and end of operation (sections 3.9 and 4.6). -/

namespace Sys2Proof.Machine

/-! ## Dispatch (R155, R156) -/

/-- Whether an entry of cell c's ready list may enter service now: while the cell waits for a new image's values only old operations may (R178). -/
def State.mayEnter (s : State) (c : Nat) (x : Ready) : Bool := !s.lahar.cellWait.contains c || x.key / 4096 ≠ s.bankNo

/-- The head of cell c's ready list, among those that may enter. -/
def State.readyFirst (s : State) (c : Nat) : Option Ready := (s.readyOf c).find? (s.mayEnter c)

def Eng.idle (g : Eng) : Bool := g.servs.isEmpty && g.preq.isNone

/-- The idle engine of lowest local index of a cell. -/
def State.idleEngine (s : State) (c : Nat) : Option Nat :=
  ((List.range 4).map fun l => 4 * c + l).find? fun e => s.engUp e && (s.eng e).idle

/-- The engine to pre-empt for priority p: lowest top priority, then lower depth, then lower index (R156). -/
def State.victim (s : State) (c p : Nat) : Option Nat :=
  ((List.range 4).map fun l => 4 * c + l).foldl (fun b e =>
    match s.top e with
    | none => b
    | some v =>
      if !s.engUp e || (s.eng e).preq.isSome || (s.eng e).mode ≠ 0 || v.prio ≥ p then b
      else match b with
        | none => some e
        | some d => match s.top d with
          | none => some e
          | some w => if v.prio < w.prio || (v.prio = w.prio && s.topDepth e < s.topDepth d) then some e else b) none

/-- Take an entry off a ready list. -/
def State.unready (s : State) (c : Nat) (x : Ready) : State := s.setReady c ((s.readyOf c).erase x)

/-- The engine cycle in which an operation's last input token arrived (R155). -/
def State.lastToken (s : State) (key : Nat) : Nat := (s.opSt key).toks.foldl (fun n x => max n x.cyc) 0

def State.dispatch (s : State) (c : Nat) : State :=
  if s.cellInReset c || s.blockInReset 0x0F then s
  else
    let s := s.cellsTake
    match s.readyFirst c with
    | none => s
    | some x =>
      match s.idleEngine c with
      | some e => if x.again || s.lastToken x.key + 6 ≤ ecyc s.now then (s.unready c x).enter e x else s
      | none =>
        match s.victim c x.prio with
        | some e =>
          let s := s.unready c x
          s.setEng e { s.eng e with preq := some x }
        | none => s

/-- OPERATION_DISPATCH (R155, R156). -/
def execOperationDispatch (t : Time) (c : Fin 8) (s : State) : Host.Outcome State Fault Refusal := .next ((s.tick t).dispatch c)

/-! ## Pre-emption (R95 to R100) -/

/-- The pre-empted operation's writes may be seen early or late from here on (R93). -/
def State.breakTop (s : State) (e : Nat) : State :=
  match s.top e with
  | some v => s.setTop e { v with bank := v.bank.breakHist }
  | none => s

def State.preemptAccept (s : State) (e : Nat) : State :=
  let g := s.eng e
  match g.preq with
  | none => s
  | some x =>
    match g.servs with
    | [] => s.enter e x
    | v :: r =>
      if v.bank.inSlot || g.mode ≠ 0 then s
      else
        let s := s.perfEv e 0x32 1 none
        match g.servs.length with
        | 1 => ((s.breakTop e).slots e 5).enter e x
        | 2 =>
          let s := (s.breakTop e).slots e 4
          s.setEng e { s.eng e with mode := 1 }
        | _ =>
          let s := (s.perfEv e 0x34 1 none).slots e 5
          let s := s.setEng e { s.eng e with servs := r }
          (s.dispose v.key .refire 0).enter e x

/-- PREEMPT_ACCEPT (R95, R96, R97, R99): no branch and no DONE may have delay slots still to issue. -/
def execPreemptAccept (t : Time) (e : Fin 32) (s : State) : Host.Outcome State Fault Refusal := .next ((s.tick t).preemptAccept e)

/-- The address of an engine's spill record (R97). -/
def State.spillAddr (s : State) (e : Nat) : Nat := cellMemAddr (e / 4) (s.f (R.cell_SPILL_BASE (e / 4)) 19 0 + e % 4 * 512)

/-- Write the spill record: 44 locations, whose layout is private (R100). -/
def State.writeSpill (s : State) (e : Nat) : State :=
  (List.range 44).foldl (fun s i => (s.wr64 (s.spillAddr e + 8 * i) (Config.freeW48 s.freeCtr).toNat).useFree) s

def State.spillDone (s : State) (e : Nat) : State :=
  let g := s.eng e
  match g.preq, g.servs with
  | some x, v :: _ =>
    if g.mode = 1 && v.loads.isEmpty && v.walks.isEmpty then
      let s := (s.writeSpill e).perfEv e 0x33 1 none
      let s := s.bwEngine e 3 44 { host := false, addr := s.spillAddr e }
      s.enter e x
    else s
  | _, _ => s

/-- SPILL_DONE (R97): the depth-1 bank is written, and the new operation takes bank 1 and frame 2. -/
def execSpillDone (t : Time) (e : Fin 32) (s : State) : Host.Outcome State Fault Refusal := .next ((s.tick t).spillDone e)

/-- Double-bit errors in a spill record. -/
def State.spillBad (s : State) (e : Nat) : Bool := (List.range 44).any fun i => s.eccAt (s.spillAddr e + 8 * i) ≠ .good

def State.spillBack (s : State) (e : Nat) : State :=
  if (s.eng e).mode ≠ 2 then s
  else
    let bad := s.spillBad e
    let s := s.bwEngine e 3 44 { host := false, addr := s.spillAddr e }
    let s := s.slots e 1
    let s := s.setEng e { s.eng e with mode := 0 }
    if bad then (s.abortAt e (s.topDepth e) .refire 6).doubleError (s.spillAddr e) else s

/-- SPILL_READBACK_DONE (R98, R100). -/
def execSpillReadbackDone (t : Time) (e : Fin 32) (s : State) : Host.Outcome State Fault Refusal := .next ((s.tick t).spillBack e)

/-! ## Table walks (R552) and the end of an operation (R131) -/

/-- The lowest depth of an engine whose operation satisfies p. -/
def State.depthWith (s : State) (e : Nat) (p : Serv → Bool) : Option Nat :=
  (List.range (s.eng e).servs.length).find? fun d => match s.servAt e d with
    | some v => p v
    | none => false

def State.tableWalk (s : State) (e : Nat) : State :=
  match s.depthWith e (fun v => !v.walks.isEmpty) with
  | none => s
  | some d =>
    match s.servAt e d with
    | none => s
    | some v =>
      match v.walks with
      | [] => s
      | w :: r =>
        let c := s.opCtx v.key
        let v := { v with walks := r }
        let s := s.bwEngine e 2 4 { host := true, addr := 0 }
        let x := s.walkFor (e / 4) c.1 c.2.1 w.va w.store c.2.2 (!w.stale)
        match x.2 with
        | .ok p => x.1.farGo e d v w p
        | .fault code lv => ((x.1.setServ e d v).recordFlt e v.key w.va code lv w.store c.2.2).trap e d 4 w.pc w.va.toNat
        | _ => (x.1.setServ e d v).trap e d 5 w.pc w.va.toNat

/-- TABLE_WALK_DONE (R552, R554): the walk of the engine's oldest access ends with a leaf, a fault or a double-bit error. -/
def execTableWalkDone (t : Time) (e : Fin 32) (s : State) : Host.Outcome State Fault Refusal := .next ((s.tick t).tableWalk e)

/-- Whether an operation has ended and may drain: everything issued has written back and its far accesses have been answered (R131). Sinter's runtime
operation ends after its 512 engine cycles (R465). -/
def State.drainReady (s : State) (e : Nat) (v : Serv) : Bool :=
  !v.ghost && !v.draining && v.loads.isEmpty && v.walks.isEmpty &&
  (if v.key = runtimeKey then (match (s.eng e).testSince with
    | some x => x + 512 * 16 ≤ s.now
    | none => true) else v.ended)

def State.operationEnd (s : State) (e : Nat) : State :=
  match s.depthWith e (s.drainReady e) with
  | none => s
  | some d =>
    match s.servAt e d with
    | none => s
    | some v =>
      let s := s.setServ e d { v with ended := true, draining := true }
      s.setOpSt v.key { s.opSt v.key with phase := 3 }

/-- OPERATION_END (R131, R163): the commit buffer starts to drain. -/
def execOperationEnd (t : Time) (e : Fin 32) (s : State) : Host.Outcome State Fault Refusal := .next ((s.tick t).operationEnd e)

/-! ## Host commands (R153, R166, R179) -/

def State.refire (s : State) (op : Nat) : State :=
  match s.graph with
  | none => s
  | some g =>
    let key := opKey s.bankNo op
    let x := s.opSt key
    if op ≥ g.ops.length || !(x.phase = 4 || x.phase = 5) || s.cellRetired (s.execCell (s.opRec key).cell) then s
    else if x.toks.isEmpty then (s.setOpSt key { x with phase := 0 }).tryFire op
    else s.refireOp key

/-- REFIRE (R166): a HELD or QUARANTINED operation is re-fired with the tokens it kept. -/
def execRefire (t : Time) (m : Master) (op : BitVec 12) (s : State) : Host.Outcome State Fault Refusal :=
  .next (s.gated t m R.lahar_REFIRE (op.setWidth 32) fun s => s.refire op.toNat)

/-- DOORBELL: a token with DB_VALUE on every arc of the doorbell (Table 5.2); in pair mode at the next boundary (R430). -/
def State.doorbell (s : State) (n : Nat) : State := s.postAsync 5 n ((s.rd R.lahar_DB_VALUE).setWidth 48)

def execDoorbell (t : Time) (m : Master) (n : Byte) (s : State) : Host.Outcome State Fault Refusal :=
  .next (s.gated t m R.lahar_DOORBELL (n.setWidth 32) fun s => s.doorbell n.toNat)

/-- Every operation of the active graph fires that now may. -/
def State.fireAll (s : State) : State :=
  match s.graph with
  | none => s
  | some g => (List.range g.ops.length).foldl (fun s i => s.tryFire i) s

/-- FLOW_EN (R153): at once, or in pair mode at the next boundary. -/
def State.flowEn (s : State) (i : Nat) (v : W32) : State :=
  if s.pairMode then s.setLahar { s.lahar with flowPend := Tab.set s.lahar.flowPend i (some v) none }
  else (s.wr (R.lahar_FLOW_EN i) v).fireAll

def execFlowEnWrite (t : Time) (m : Master) (i : Fin 16) (val : W32) (s : State) : Host.Outcome State Fault Refusal :=
  .next (s.gated t m (R.lahar_FLOW_EN i) val fun s => s.flowEn i val)

/-! ## Loading (R175 to R177) -/

/-- LOAD_STAT.STATE. -/
def State.loadState (s : State) : Nat := s.f R.lahar_LOAD_STAT 3 0

/-- Refused because a load or an activation is in progress (R177). -/
def State.loadBusy (s : State) : State := (s.setF R.lahar_LOAD_STAT 15 8 8).irqB P.lahar 9

def State.load (s : State) : State :=
  if s.loadState = 1 || s.loadState = 4 then s.loadBusy
  else
    let b := 1 - s.bankNo
    let s := (s.setGraph b none).tlbDropBank b
    (s.setLahar { s.lahar with snap := some (s.f R.lahar_LOAD_ADDR 22 12 * 4096, s.mem) }).setF R.lahar_LOAD_STAT 3 0 1

/-- LOAD (R175): Lahar begins to read the image at LOAD_ADDR into the inactive bank. -/
def execLoad (t : Time) (m : Master) (s : State) : Host.Outcome State Fault Refusal :=
  .next (s.gated t m R.lahar_LOAD_CTL 1 fun s => s.load)

/-- The bytes of an image as Lahar read them: a byte written during the load reads as it was or as it is (R175). -/
def mixBytes (seed a : Nat) (old new : List Host.Cell) : Nat → List Byte
  | 0 => []
  | n + 1 =>
    let x : Byte := Tab.get old a 0
    let y : Byte := Tab.get new a 0
    (if x = y then x else if Config.freeChoice seed a then y else x) :: mixBytes seed (a + 1) old new n

def State.loadEnd (s : State) : State :=
  match s.lahar.snap with
  | none => s
  | some (off, old) =>
    let a := sharedAddr off
    let n := min (min (s.le (a + 8) 4) 2097152) (0x800000 - off)
    let i : Img := mixBytes s.freeCtr a old s.mem (max n 128)
    let bad := (s.ecc.filter fun (x : Nat × Ecc) => a ≤ x.1 && x.1 < a + n)
    let s := (bad.filter fun (x : Nat × Ecc) => x.2 = Ecc.double).foldl (fun s (x : Nat × Ecc) => s.doubleError x.1) s
    let s := (s.useFree).setLahar { s.lahar with snap := none }
    match i.check off (!bad.isEmpty) with
    | none => ((s.setGraph (1 - s.bankNo) (some i.graph)).wr R.lahar_LOAD_STAT 2).irqB P.lahar 8
    | some (code, idx) => (s.wr R.lahar_LOAD_STAT (BitVec.ofNat 32 (3 + code * 256 + idx * 65536))).irqB P.lahar 9

/-- LOAD_END (R175, R176). -/
def execLoadEnd (t : Time) (s : State) : Host.Outcome State Fault Refusal := .next ((s.tick t).loadEnd)

def State.activate (s : State) : State :=
  match s.loadState with
  | 1 | 4 => s.loadBusy
  | 3 => s.irqB P.lahar 9
  | _ => (s.setLahar { s.lahar with act := some s.now }).setF R.lahar_LOAD_STAT 3 0 4

/-- ACTIVATE (R177). -/
def execActivate (t : Time) (m : Master) (s : State) : Host.Outcome State Fault Refusal :=
  .next (s.gated t m R.lahar_LOAD_CTL 2 fun s => s.activate)

def State.loadClear (s : State) : State :=
  match s.loadState with
  | 2 | 3 =>
    let b := 1 - s.bankNo
    ((s.setGraph b none).tlbDropBank b).wr R.lahar_LOAD_STAT 0
  | _ => s

/-- LOAD_CTL.CLEAR (R177). -/
def execLoadCtlClear (t : Time) (m : Master) (s : State) : Host.Outcome State Fault Refusal :=
  .next (s.gated t m R.lahar_LOAD_CTL 4 fun s => s.loadClear)

/-! ## The switch (R178) -/

/-- CYCLE tokens of the present boundary (Table 5.2). -/
def State.postCycle (s : State) : State :=
  match s.graph with
  | none => s
  | some g =>
    (List.range g.arcs.length).foldl (fun s i =>
      match g.arcs[i]? with
      | some a => if a.kind = 4 && s.cycle % (a.src + 1) = 0 then s.arcPost i (BitVec.ofNat 48 s.cycle) s.stamp else s
      | none => s) s

/-- What the old graph leaves: operations that are fired run on, and everything else of it goes (R178). -/
def State.dropOld (s : State) : State :=
  let s := s.setLahar { s.lahar with toks := [], dls := [], dlP0 := [], dlFrom := [], ops := s.lahar.ops.filter fun (x : Nat × OpSt) => x.2.fired }
  (List.range 4).foldl (fun s l => (s.wr48 (R.lahar_DL_TICK_LO l) 0).setF (R.lahar_DL_STAT l) 10 0 0) s

/-- The remap table of a new graph: cells in service map to themselves, and R172 applies to retired ones. -/
def State.remapNew (s : State) : State :=
  let s := (List.range 8).foldl (fun s c =>
    let s := s.wr (R.cell_REMAP c) (BitVec.ofNat 32 c)
    let s := if s.cellRetired c then s else s.setLahar { s.lahar with copies := Tab.set s.lahar.copies c none none }
    s.setB (R.STATUS (cellPage c)) 8 false) s
  (List.range 8).foldl (fun s c => if s.cellRetired c then (s.cellTake c).placeCell c else s) s

/-- INIT tokens (R149). -/
def State.initToks (s : State) (g : Graph) : State :=
  (List.range g.arcs.length).foldl (fun s i =>
    match g.arcs[i]? with
    | some a => if a.init then s.setTok i (some { word := 0, at' := s.stamp, cyc := ecyc s.now }) else s
    | none => s) s

/-- FLOW_EN from the image (Table 5.9). -/
def State.initFlows (s : State) (g : Graph) : State :=
  let s := s.setLahar { s.lahar with flowPend := [] }
  (List.range 16).foldl (fun s i =>
    s.wr (R.lahar_FLOW_EN i) ((List.range 32).foldl (fun w b => setFld w b b (b2n (g.flows.getD (32 * i + b) (false, false)).2)) 0)) s

/-- The bases of the delay lists' tick counts at activation (R157). -/
def State.initDls (s : State) (g : Graph) : State :=
  (List.range 4).foldl (fun s l =>
    let d := g.dls.getD l { mode := 0, lp := 0, period := 0, lpInc := 0 }
    let base := if d.mode = 2 then s.nsNow.toNat else s.cycle
    s.setLahar { s.lahar with dlP0 := Tab.set s.lahar.dlP0 l (s.rd48 (R.lpSrc_LPPOS_LO d.lp)) 0, dlFrom := Tab.set s.lahar.dlFrom l base 0 }) s

/-- The tokens kept for this boundary, with at most n doorbells, and those that wait on (R430). -/
def dueBells : Nat → List AgreedToken → List AgreedToken × List AgreedToken
  | _, [] => ([], [])
  | n, b :: r =>
    if b.kind = 5 then
      match n with
      | 0 => let x := dueBells 0 r; (x.1, b :: x.2)
      | k + 1 => let x := dueBells k r; (b :: x.1, x.2)
    else let x := dueBells n r; (b :: x.1, x.2)

/-- The tokens that waited for this boundary reach the new graph (R430). -/
def State.postBells (s : State) : State :=
  let r := dueBells 16 s.lahar.bells
  r.1.foldl (fun s x => s.post x.kind.toNat x.src.toNat x.word s.stamp) (s.setLahar { s.lahar with bells := r.2 })

/-- The switch waits on a standby for the boundary's agreement record (R431). -/
def State.switchHeld (s : State) : Bool := s.isStandby && s.pair.agreed ≠ some s.cycle

def State.graphSwitch (s : State) : State :=
  if !s.switchDue || s.switchHeld then s
  else
    let b := 1 - s.bankNo
    let s := s.dropOld
    let s := s.setLahar { s.lahar with act := none }
    let seq := s.f R.lahar_GRAPH_STAT 15 8 + 1
    let s := match s.graphOf b with
      | none => s.wr R.lahar_GRAPH_STAT (BitVec.ofNat 32 (b * 2 + seq % 256 * 256))
      | some g =>
        let s := s.wr R.lahar_GRAPH_STAT (BitVec.ofNat 32 (1 + b * 2 + seq % 256 * 256 + g.imageId * 65536))
        let s := s.setLahar { s.lahar with cellWait := List.range 8 }
        let s := ((s.cellsTake).remapNew).initFlows g
        let s := (((s.initDls g).initToks g).postBells).postCycle
        s.fireAll
    (s.irqB P.lahar 10).activationEnd

/-- GRAPH_SWITCH (R177, R178): the banks switch at their boundary. -/
def execGraphSwitch (t : Time) (s : State) : Host.Outcome State Fault Refusal := .next ((s.tick t).graphSwitch)

/-! ## Counters and retirement's background work -/

/-- LAHAR.CTRL.CLR_CNT (section 5.11). -/
def State.laharClear (s : State) : State :=
  let s := s.wr R.lahar_ERR_CNT 0
  let s := (List.range 4).foldl (fun s l => s.setF (R.lahar_DL_STAT l) 26 16 0) s
  (List.range 8).foldl (fun s c => (s.wr (R.cell_ABORT_CNT c) 0).setF (R.cell_READY c) 28 16 0) s

def execLaharClrCnt (t : Time) (m : Master) (s : State) : Host.Outcome State Fault Refusal :=
  .next (s.gated t m (R.CTRL P.lahar) (s.rd (R.CTRL P.lahar) ||| 0x100) fun s => s.laharClear)

/-- CELL.CTRL.CLR_CNT (section 5.11). -/
def State.cellClear (s : State) (c : Nat) : State := (s.wr (R.cell_ABORT_CNT c) 0).setF (R.cell_READY c) 28 16 0

def execCellClrCnt (t : Time) (m : Master) (c : Fin 8) (s : State) : Host.Outcome State Fault Refusal :=
  .next (s.gated t m (R.CTRL (cellPage c)) (s.rd (R.CTRL (cellPage c)) ||| 0x100) fun s => s.cellClear c)

/-- Replace a retired cell in the active and the staged value of ROUTE (R170). -/
def routeReplace (w : W32) (c g : Nat) : W32 := (List.range 8).foldl (fun w b => if fld w (3 * b + 2) (3 * b) = c then setFld w (3 * b + 2) (3 * b) g else w) w

def State.routeRewrite (s : State) : State :=
  let due := s.lahar.reroute.filter fun x => x.2 < s.cycle
  let s := due.foldl (fun s x =>
    let g := s.execCell x.1
    (s.wr R.crater_ROUTE (routeReplace (s.rd R.crater_ROUTE) x.1 g)).wrStage R.crater_ROUTE (routeReplace (s.rdStage R.crater_ROUTE) x.1 g)) s
  s.setLahar { s.lahar with reroute := s.lahar.reroute.filter fun x => !(x.2 < s.cycle) }

/-- ROUTE_REWRITE (R170): at the boundary after a retirement. -/
def execRouteRewrite (t : Time) (s : State) : Host.Outcome State Fault Refusal := .next ((s.tick t).routeRewrite)

/-- The copy into the reserve of cell g. -/
def State.copyInto (s : State) (g : Nat) : Option CopySt :=
  (s.lahar.copies.filterMap fun (x : Nat × Option CopySt) => x.2).find? (·.target = g)

/-- COPY_STAT's count of lines while a copy runs: 16 bytes per engine cycle (R171). -/
def State.copyLines (s : State) (g : Nat) : Nat :=
  match s.copyInto g with
  | some x => if s.b (R.cell_COPY_STAT g) 0 then min (x.size / 64) ((ecyc s.now - ecyc x.since) / 4) else x.size / 64
  | none => 0

def State.copyDone (s : State) (g : Nat) : State :=
  if s.b (R.cell_COPY_STAT g) 0 then
    let n := (s.copyInto g).elim 0 fun x => x.size / 64
    let s := (List.range 8).foldl (fun s c => match s.movedTo c with
      | some x => if x.target = g then s.copyMeet c x x.bad else s
      | none => s) s
    let s := ((s.setB (R.cell_COPY_STAT g) 0 false).setB (R.cell_COPY_STAT g) 1 true).setF (R.cell_COPY_STAT g) 29 16 n
    (s.setB (R.STATUS (cellPage g)) 9 false).irqB (cellPage g) 10
  else s

/-- COPY_DONE (R171), on the target cell's page. -/
def execCopyDone (t : Time) (c : Fin 8) (s : State) : Host.Outcome State Fault Refusal := .next ((s.tick t).copyDone c)

/-! ## Engine tests (R465) -/

/-- The runtime operation reaches engine e: it enters an idle engine, or pre-empts whatever runs (R156). -/
def State.testEngine (s : State) (e : Nat) : State :=
  if !s.engUp e || s.cellInReset (e / 4) then s
  else
    let x : Ready := { key := runtimeKey, prio := 7, cyc := ecyc s.now, again := false }
    let g := s.eng e
    let s := s.unask e
    let s := s.setEng e { s.eng e with testSince := some s.now }
    if g.servs.isEmpty then s.enter e x else s.setEng e { s.eng e with preq := some x }

def State.selfTestDispatch (s : State) : State :=
  if s.sin.state ≤ 1 || s.now < s.sin.engTest + nsT 10000000 then s
  else (List.range 32).foldl (fun s e => s.testEngine e) (s.setSin { s.sin with engTest := s.now })

/-- SELF_TEST_DISPATCH (R465): every 10 ms, to each engine in service in ascending index. -/
def execSelfTestDispatch (t : Time) (s : State) : Host.Outcome State Fault Refusal := .next ((s.tick t).selfTestDispatch)

/-- Take the runtime operation off an engine, wherever it is. -/
def State.dropTest (s : State) (e : Nat) : State :=
  let s := match (s.eng e).preq with
    | some x => if x.key = runtimeKey then s.setEng e { s.eng e with preq := none, mode := if (s.eng e).mode = 1 then 0 else (s.eng e).mode } else s
    | none => s
  match s.depthWith e (fun v => v.key = runtimeKey && !v.ghost) with
  | some d => s.abortAt e d .refire 0
  | none => s

def State.selfTestTimeout (s : State) (e : Nat) : State :=
  match (s.eng e).testSince with
  | some x =>
    if x + nsT 100000 ≤ s.now then
      let s := s.dropTest e
      let s := s.setEng e { s.eng e with testSince := none }
      (s.failure 4).engineFault e
    else s
  | none => s

/-- SELF_TEST_TIMEOUT (R465): no signature within 100 µs of dispatch is a fault of the engine class. -/
def execSelfTestTimeout (t : Time) (e : Fin 32) (s : State) : Host.Outcome State Fault Refusal := .next ((s.tick t).selfTestTimeout e)

/-! ## Clearing records (R107, Table 3.14, section 16.5) -/

/-- TRAP_STAT.VALID (R107): clears VALID and COUNT. -/
def State.trapClear (s : State) (e : Nat) : State :=
  if s.w1cBits (R.engine_TRAP_STAT e) 1 = 0 then s else (s.setB (R.engine_TRAP_STAT e) 0 false).setF (R.engine_TRAP_STAT e) 31 16 0

def execTrapStatClear (t : Time) (m : Master) (e : Fin 32) (s : State) : Host.Outcome State Fault Refusal :=
  .next (s.gated t m (R.engine_TRAP_STAT e) 1 fun s => s.trapClear e)

/-- ECC_STAT: writing 1 to any bit clears both counts (Table 3.14); an error counted in the engine cycle of the write stays counted (R12). -/
def State.eccClear (s : State) (e : Nat) (bits : W32) : State := if bits = 0 then s else s.wr (R.engine_ECC_STAT e) (s.hwNoted (R.engine_ECC_STAT e))

def execEccStatClear (t : Time) (m : Master) (e : Fin 32) (bits : W32) (s : State) : Host.Outcome State Fault Refusal :=
  .next (s.gated t m (R.engine_ECC_STAT e) bits fun s => s.eccClear e bits)

/-- FLT_INFO.VALID: clears VALID and COUNT (R558). -/
def State.fltClear (s : State) (c : Nat) : State :=
  if s.w1cBits (R.xlCell_FLT_INFO c) 1 = 0 then s else (s.setB (R.xlCell_FLT_INFO c) 0 false).setF (R.xlCell_FLT_OP c) 31 24 0

def execFltInfoClear (t : Time) (m : Master) (c : Fin 8) (s : State) : Host.Outcome State Fault Refusal :=
  .next (s.gated t m (R.xlCell_FLT_INFO c) 1 fun s => s.fltClear c)

end Sys2Proof.Machine
end

