-- ==== Sys2Proof/Machine/Invar.lean ====
section
/-! DEFINITION. Invar's commands: the servo, steps, PTP, the cascade and PPS sources, second boundaries and event units (chapter 12). -/

namespace Sys2Proof.Machine

/-! ## The servo (R399 to R404) -/

/-- The limit of RATE and FREQ (R392). -/
def rateMax : Int := 140737488

/-- The time source in use (R399): a device in pair mode without a claim takes its time from the partner (R437). -/
def State.timeSrc (s : State) : Nat := if s.pairMode && !s.pair.claim then 2 else s.f R.invarCore_CFG 1 0

def State.freq (s : State) : Int := (s.rd R.invarCore_FREQ).toInt

/-- theta × 2^48 / (ts × 2^sh) for theta in 2^-16 ns and ts in ns (R401). -/
def slewQ (theta : Int) (ts sh : Nat) : Int := rndDiv (theta * 2 ^ 32) (ts * 2 ^ sh)

/-- The slew term s of R401. -/
def State.slewTerm (s : State) (theta : Int) (ts : Nat) : Int :=
  let c := s.rd R.invarCore_CFG
  let m := rndDiv (fld c 24 16 * 2 ^ 48) 1000000
  clampI (slewQ theta ts (fld c 7 4)) (-m) m

/-- The update of a measurement within STEP_WIN (R401). -/
def State.servo (s : State) (theta : Int) (ts : Nat) : State :=
  let f := clampI (s.freq + slewQ theta ts (s.f R.invarCore_CFG 11 8)) (-rateMax) rateMax
  (s.wr R.invarCore_FREQ (BitVec.ofInt 32 f)).setRate (clampI (f + s.slewTerm theta ts) (-rateMax) rateMax)

def State.invState (s : State) : Nat := s.f R.invarCore_STAT 1 0

/-- A measurement within STEP_WIN: the servo updates, and the fourth in a row locks (R401, R402). -/
def State.measureNear (s : State) (theta : Int) (ts : Nat) : State :=
  let s := s.servo theta ts
  let s := s.setInv { s.inv with good := s.inv.good + 1 }
  if s.invState = 1 && s.inv.good ≥ 4 then (s.setF R.invarCore_STAT 1 0 2).irqB P.invarCore 10 else s

/-- A measurement that asks for a step (R403). -/
def State.measureFar (s : State) (theta : Int) (ts : Nat) (accepted : Bool) : State :=
  let s := s.setInv { s.inv with good := 0 }
  let s := if s.invState = 2 then s.setF R.invarCore_STAT 1 0 1 else s
  if accepted || theta.natAbs ≤ s.f R.invarCore_STEP_LIMIT 19 0 * 65536 then s.setInv { s.inv with step := some (theta, s.cycle) }
  else
    let s := (s.hwSetBits R.invarCore_STAT 8).irqB P.invarCore 8
    s.setRate (clampI (s.freq + s.slewTerm theta ts) (-rateMax) rateMax)

/-- A measurement theta, in units of 2^-16 ns, with interval ts in ns (R401 to R404). -/
def State.measure (s : State) (theta : Int) (ts : Nat) : State :=
  let s := s.wr R.invarCore_THETA (BitVec.ofInt 32 (clampI (rndDiv theta 65536) (-(2 ^ 31)) (2 ^ 31 - 1)))
  let s := if s.invState = 3 then ((s.setF R.invarCore_STAT 1 0 1).setB R.invarCore_STAT 4 false).setInv { s.inv with good := 0 } else s
  let acc := s.b R.invarCore_STAT 5
  let s := s.setB R.invarCore_STAT 5 false
  if theta.natAbs ≤ s.f R.invarCore_STEP_WIN 15 0 * 65536 then s.measureNear theta ts else s.measureFar theta ts acc

/-- One second in units of 2^-16 ns. -/
def second16 : Int := 65536000000000

/-- A measurement formed as a difference D of plant times (R400): whole seconds correct SEC. -/
def State.measureD (s : State) (d : Int) (ts : Nat) : State :=
  if 2 * d < second16 && -second16 < 2 * d then s.measure d ts
  else
    let k := -((second16 - 2 * d) / (2 * second16))
    let s := (s.setInv { s.inv with sec := s.inv.sec + w48 k }).setB R.invarCore_STAT 7 true
    s.measure (d - k * second16) ts

/-- A message of the source in use has arrived: it is no longer missed. -/
def State.heard (s : State) : State := s.setInv { s.inv with lastMeas := s.now }

/-! ## PTP (R410, R411) -/

/-- The Ethernet port of the ordinary clock, ETH`PORT` (Table 12.1). -/
def State.ptpPort (s : State) : Nat := s.f R.invarCore_CFG 2 2

/-- Whether a message reaches the ordinary clock: PTP is the source, and it came by ETH`PORT` and by the transport of the device (Table 12.3). -/
def State.ptpHears (s : State) (f : PtpMsg) : Bool :=
  s.timeSrc = 1 && !s.coreInReset && f.eth.val = s.ptpPort && f.udp = s.b R.invarPtp_PTPCFG 8

/-- Whether a message comes from the selected master. -/
def State.ptpOurs (s : State) (f : PtpMsg) : Bool :=
  f.domain.toNat = s.f R.invarPtp_PTPCFG 7 0 &&
  f.clk.toNat = (s.rd R.invarPtp_MASTER_CLK_W0).toNat + (s.rd R.invarPtp_MASTER_CLK_W1).toNat * 2 ^ 32 &&
  f.port.toNat = s.f R.invarPtp_MASTER_PORT 15 0

/-- A time of seconds and nanoseconds in units of 2^-16 ns. -/
def ptpTime (sec : W48) (ns : W32) : Int := ((sec.toNat * 1000000000 + ns.toNat) * 65536 : Nat)

def State.ptpForeign (s : State) : State := s.inc R.invarPtp_PTPSTAT 23 16

/-- The Sync interval in ns for a logMessageInterval from -7 to 1. -/
def syncNs (log : Byte) : Nat :=
  let l := log.toInt
  if l ≥ 0 then 1000000000 * 2 ^ l.toNat else 1000000000 / 2 ^ (-l).toNat

def syncLogOk (log : Byte) : Bool := -7 ≤ log.toInt && log.toInt ≤ 1

/-- A complete Sync: a measurement when the path delay is known. -/
def State.ptpComplete (s : State) (x : PtpSyncSt) : State :=
  let s := s.setInv { s.inv with whole := some x, sync := none }
  match s.inv.mpd with
  | some d => (s.incMod R.invarPtp_PTPSTAT 31 24).measureD (x.t1 + x.cs + d - x.t2) s.inv.syncTs
  | none => s

def State.ptpSync (s : State) (f : PtpMsg) : State :=
  let s := (s.setB R.invarPtp_PTPSTAT 0 f.twoStep).setF R.invarPtp_PTPSTAT 15 8 f.logInt.toNat
  let s := (s.heard).setInv { (s.heard).inv with syncTs := syncNs f.logInt }
  let x : PtpSyncSt := { seq := f.seq, t2 := s.plantAt s.now + sfld (s.rd R.invarPtp_TS_ADJ) 15 0 * 65536, t1 := ptpTime f.sec f.ns, cs := f.corr.toInt }
  if f.twoStep then s.setInv { s.inv with sync := some x } else s.ptpComplete x

/-- PTP_SYNC (R411). -/
def execPtpSync (t : Time) (f : PtpMsg) (s : State) : Host.Outcome State Fault Refusal :=
  let s := s.tick t
  .next (if !s.ptpHears f then s
  else if s.ptpOurs f && syncLogOk f.logInt then s.ptpSync f else s.ptpForeign)

def State.ptpFollowUp (s : State) (f : PtpMsg) : State :=
  match s.inv.sync with
  | some x => if x.seq = f.seq then s.ptpComplete { x with t1 := ptpTime f.sec f.ns, cs := x.cs + f.corr.toInt } else s
  | none => s

/-- PTP_FOLLOW_UP (R411). -/
def execPtpFollowUp (t : Time) (f : PtpMsg) (s : State) : Host.Outcome State Fault Refusal :=
  let s := s.tick t
  .next (if !s.ptpHears f then s
  else if s.ptpOurs f then s.ptpFollowUp f else s.ptpForeign)

/-- Half of a path measurement; the spec states no rounding of an odd one. -/
def State.half (s : State) (x : Int) : Int := x / 2 + (if x % 2 ≠ 0 && Config.freeBit s.freeCtr then 1 else 0)

def State.ptpDelayResp (s : State) (f : PtpDelayResp) : State :=
  match s.inv.req, s.inv.whole with
  | some t3, some x =>
    let raw := s.half ((x.t2 - x.t1 - x.cs) + (ptpTime f.msg.sec f.msg.ns - t3 - f.msg.corr.toInt))
    let mpd := match s.inv.mpd with
      | some m => m + (raw - m) / 2 ^ s.f R.invarPtp_PTPCFG 15 12
      | none => raw
    ((s.useFree).setInv { s.inv with mpd := some mpd, req := none }).wr R.invarPtp_MPD (BitVec.ofInt 32 (mpd / 256))
  | _, _ => s.setInv { s.inv with req := none }

/-- PTP_DELAY_RESP (R411). -/
def execPtpDelayResp (t : Time) (f : PtpDelayResp) (s : State) : Host.Outcome State Fault Refusal :=
  let s := s.tick t
  .next (if !s.ptpHears f.msg then s
  else if s.ptpOurs f.msg && f.forUs && s.inv.req.isSome && f.reqSeq = s.inv.reqSeq then s.ptpDelayResp f else s.ptpForeign)

/-- The interval of Delay_Req messages, 2^LOG_DREQ s (R410). -/
def State.dreqInterval (s : State) : Time :=
  let l := sfld (s.rd R.invarPtp_PTPCFG) 23 16
  if l ≥ 0 then 12000000000 * 2 ^ l.toNat else 12000000000 / 2 ^ (-l).toNat

/-- How the device's Delay_Req leaves: by ETH`PORT`, with the addresses of that port (R410, R411). -/
def State.delayReqBy (s : State) : DelayReq :=
  let n := s.ptpPort
  { eth := n, udp := s.b R.invarPtp_PTPCFG 8, mac := s.rd48 (R.eth_MAC_LO n), ip := s.rd (R.eth_IPV4 n), domain := s.f R.invarPtp_PTPCFG 7 0 }

/-- DELAY_REQ_SEND (R410). -/
def execDelayReqSend (t : Time) (s : State) : Host.Outcome State Fault Refusal :=
  let s := s.tick t
  .next (if s.timeSrc = 1 && !s.coreInReset && (match s.inv.reqAt with
      | some a => a + s.dreqInterval ≤ s.now
      | none => true) then
    let t3 := s.plantAt s.now + sfld (s.rd R.invarPtp_TS_ADJ) 31 16 * 65536
    (s.setInv { s.inv with reqSeq := s.inv.reqSeq + 1, req := some t3, reqAt := some s.now }).emit (.delayReq (s.inv.reqSeq + 1).toNat s.delayReqBy)
  else s)

/-! ## The other sources -/

/-- Invar has lost its source (R402). -/
def State.srcLost (s : State) : State :=
  if s.invState = 3 then s else ((s.setF R.invarCore_STAT 1 0 3).setB R.invarCore_STAT 4 true).irqB P.invarCore 9

/-- Whether a time message of the cascade is heard: on LV0, or in a ring on LV1 once LV0 has been lost for 4 cycles (R455); over PX it always is (R437). -/
def State.cascHears (s : State) (lv1 : Bool) : Bool :=
  !lv1 || (s.pairMode && !s.pair.claim) || (s.b R.lvCommon_LVCFG 1 && s.inv.lv0At + 4 * s.cycleT ≤ s.now)

/-- The port the time now comes from; a change to LV1 goes through HOLDOVER (R455). -/
def State.cascPort (s : State) (lv1 : Bool) : State :=
  let s := if lv1 && !s.inv.onLv1 then s.srcLost else s
  s.setInv { s.inv with onLv1 := lv1, lv0At := if lv1 then s.inv.lv0At else s.now }

/-- CASCADE_TIME_MESSAGE (R399, R437, R455): the master's plant time at this instant, with lv1 on LV1. -/
def execCascadeTimeMessage (t : Time) (sec : W48) (ns : W32) (frac : BitVec 16) (s : State) (lv1 : Bool := false) : Host.Outcome State Fault Refusal :=
  let s := s.tick t
  .next (if s.timeSrc ≠ 2 || s.coreInReset || !s.cascHears lv1 then s
  else (s.cascPort (lv1 && !(s.pairMode && !s.pair.claim))).heard.measureD (ptpTime sec ns + frac.toNat - s.plantAt s.now) s.tNs)

/-- PPS_IN_EDGE (R399, R414): the active edge, rising for IN_POL 0, is judged against the nearer second boundary; the other edge does nothing. The command comes at
the instant of the edge's timestamp. -/
def execPpsInEdge (t : Time) (s : State) (rising : Bool := true) : Host.Outcome State Fault Refusal :=
  let s := s.tick t
  .next (if s.timeSrc ≠ 3 || s.coreInReset || rising = s.b R.invarCore_PPS_CFG 1 then s
  else
    let x := nsDiff s.nsNow (s.secAt s.now).2 * 65536 + (s.devTime s.now % 65536 : Nat) + sfld (s.rd R.invarCore_PPS_CFG) 15 8 * 65536
    (s.heard).measure (if 2 * x ≤ second16 then -x else second16 - x) 1000000000)

/-- The time after which the source counts as lost (Table 12.1). -/
def State.lostAfter (s : State) : Option Time :=
  match s.timeSrc with
  | 1 => if s.inv.syncTs = 0 then none else some (4 * nsT s.inv.syncTs)
  | 2 => some (4 * s.cycleT)
  | 3 => some (4 * 12000000000)
  | _ => none

/-- MASTER_LOST (R402). -/
def execMasterLost (t : Time) (s : State) : Host.Outcome State Fault Refusal :=
  let s := s.tick t
  .next (match s.lostAfter with
  | some d => if s.inv.lastMeas + d ≤ s.now && !s.coreInReset then s.srcLost else s
  | none => s)

/-- Measurements missed in a row (STAT [15:8]). -/
def State.missedMeas (s : State) : Nat :=
  match s.lostAfter with
  | some d => min ((s.now - s.inv.lastMeas) / (d / 4)) 255
  | none => 0

/-! ## Steps (R404 to R406) -/

/-- A cycle as an operation sees it, after a step in its first tick. -/
def Stamp.shift (x : Stamp) (cyc : Nat) (d : W48) : Stamp := if x.cyc = cyc then { x with tcyc := x.tcyc + d } else x

def OpSt.shift (x : OpSt) (cyc : Nat) (d : W48) : OpSt :=
  { x with fire := x.fire.shift cyc d, pair := x.pair.shift cyc d, toks := x.toks.map fun k => { k with at' := k.at'.shift cyc d } }

/-- Device times the line-position block holds advance by a step (R405). -/
def State.lpShift (s : State) (d : W48) : State :=
  let x := s.lp
  let s := s.setLp { x with
    src := x.src.map fun e => (e.1, { e.2 with tl := e.2.tl + d, cast := e.2.cast.map fun c => { c with tl := c.tl + d } })
    aes := x.aes.map fun e => (e.1, { e.2 with at' := e.2.at'.map (· + d) })
    cmps := x.cmps.map fun e => (e.1, { e.2 with at' := e.2.at'.map (· + d), from' := e.2.from' + d })
    edge := (List.range 8).foldl (fun t q => Tab.set t q (Tab.get x.edge q 0 + d) 0) x.edge
    starts := x.starts.map (· + d)
    casts := x.casts.map fun e => (e.1, e.2.map fun c => { c with tl := c.tl + d })
    ests := x.ests.map fun l => l.map fun e => { e with tl := e.tl + d, tk := e.tk + d } }
  (List.range 8).foldl (fun s q => s.wr48 (R.qe_EDGE_T_LO q) (s.rd48 (R.qe_EDGE_T_LO q) + d)) s

/-- Cycle stamps of the present cycle take the values after the step (R405). -/
def State.stampShift (s : State) (d : W48) : State :=
  let k := s.cycle
  s.setLahar { s.lahar with
    toks := s.lahar.toks.map fun e => (e.1, e.2.map fun x => { x with at' := x.at'.shift k d })
    ops := s.lahar.ops.map fun e => (e.1, e.2.shift k d) }

/-- The lists of period kind count what device time has passed so far (R157). -/
def State.periodTicks (s : State) : State := (List.range 4).foldl (fun s l => if (s.dlRec l).mode = 2 then s.dlTick l else s) s

/-- After a step back they count from the new device time; after a step forward the multiples in the interval skipped are ticks due (notes/assumptions/88.md). -/
def State.periodFrom (s : State) (delta : Int) : State :=
  if delta < 0 then (List.range 4).foldl (fun s l => if (s.dlRec l).mode = 2 then s.dlRoll l 0 else s) s else s

/-- The step takes effect (R405). -/
def State.invStep (s : State) (delta : Int) : State :=
  let d := w48 (rndDiv delta 65536)
  let s := s.periodTicks.setRate s.freq
  let s := s.setInv { s.inv with offset := s.inv.offset + BitVec.ofInt 64 delta, step := none }
  let s := ({ s with tauDev := (BitVec.ofInt 64 (s.tauDev + delta)).toNat }.placeTarget).showPhase
  let s := (s.inc R.invarCore_STAT 31 16).irqB P.invarCore 11
  ((s.lpShift d).stampShift d).periodFrom delta

/-! ## Seconds (R395 to R397, R414) -/

/-- SECOND_BOUNDARY: the present second has ended. SEC_SET applies, and PPS_OUT rises. -/
def State.secondBoundary (s : State) : State :=
  let x := s.secAt s.now
  if x.2 = s.inv.secMark then s
  else
    let up := nsDiff x.2 s.inv.secMark > 0
    let s := s.secUpdate
    let s := if s.inv.secSet && up then
      (s.setInv { s.inv with sec := s.rd48 R.invarCore_SEC_SET_LO, secSet := false }).setB R.invarCore_STAT 7 true else s
    if up && s.b R.invarCore_PPS_CFG 0 && !s.coreInReset then (s.setInv { s.inv with ppsOut := true }).emit (.ppsOut true) else s

def execSecondBoundary (t : Time) (s : State) : Host.Outcome State Fault Refusal := .next ((s.tick t).secondBoundary)

/-- PPS_OUT_FALL (R414). -/
def execPpsOutFall (t : Time) (s : State) : Host.Outcome State Fault Refusal :=
  let s := s.tick t
  .next (if s.inv.ppsOut && nsDiff s.nsNow (s.secAt s.now).2 ≥ s.f R.invarCore_PPS_CFG 24 16 * 1000000 then
    (s.setInv { s.inv with ppsOut := false }).emit (.ppsOut false) else s)

/-! ## Commands -/

/-- STEP_ACCEPT (R404). -/
def execStepAccept (t : Time) (m : Master) (s : State) : Host.Outcome State Fault Refusal :=
  .next (s.gated t m R.invarCore_CMD 1 fun s => s.setB R.invarCore_STAT 5 true)

/-- The captures of LATCH (R397). -/
def State.invLatch (s : State) : State :=
  let d := s.devTime s.now
  let s := (s.wr48 R.invarCore_LAT_NS_LO (BitVec.ofNat 48 (d / 65536))).wr48 R.invarCore_LAT_SEC_LO (s.secAt s.now).1
  let s := s.wr R.invarCore_LAT_FRAC (BitVec.ofNat 32 (d % 65536))
  let c := s.counter s.now
  (s.wr R.invarCore_LAT_COUNT_W0 (BitVec.ofNat 32 c)).wr R.invarCore_LAT_COUNT_W1 (BitVec.ofNat 32 (c / 2 ^ 32))

def execLatch (t : Time) (m : Master) (s : State) : Host.Outcome State Fault Refusal :=
  .next (s.gated t m R.invarCore_CMD 2 fun s => s.invLatch)

/-- SEC_SET (R396). -/
def execSecSet (t : Time) (m : Master) (s : State) : Host.Outcome State Fault Refusal :=
  .next (s.gated t m R.invarCore_CMD 4 fun s => s.setInv { s.inv with secSet := true })

/-! ## Event units (R407 to R409) -/

def State.evDue (s : State) (u : Nat) : W48 := s.rd48 (R.invarEv_DUE_LO u)

/-- DUE has been reached. -/
def State.evPassed (s : State) (u : Nat) : Bool := nsDiff s.nsNow (s.evDue u) ≥ 0

/-- A unit fires once for a due time, with or without IRQ (R407). -/
def State.evTokenOf (s : State) (u : Nat) (due : W48) (irq : Bool) : State :=
  let s := (s.inc (R.invarEv_ESTAT u) 31 16).postAsync 2 u due
  if irq then (s.hwSetBits (R.invarEv_EV_FIRED (u / 32)) (BitVec.ofNat 32 (2 ^ (u % 32)))).irqB P.invarEv 8 else s

def State.evToken (s : State) (u : Nat) : State := s.evTokenOf u (s.evDue u) (s.b (R.invarEv_ECFG u) 1)

/-- A unit fires and goes on (R407, R408). -/
def State.evFire (s : State) (u : Nat) : State :=
  let s := s.evToken u
  let per := (s.rd (R.invarEv_PERIOD u)).toNat
  if per = 0 then s.setB (R.invarEv_ESTAT u) 0 false
  else
    let s := s.wr48 (R.invarEv_DUE_LO u) (s.evDue u + BitVec.ofNat 48 per)
    let behind := nsDiff s.nsNow (s.evDue u)
    if behind ≥ 0 then
      let s := s.evToken u
      let m := behind.toNat / per + 1
      (s.wr48 (R.invarEv_DUE_LO u) (s.evDue u + BitVec.ofNat 48 (m * per))).inc (R.invarEv_ESTAT u) 15 8 (m - 1)
    else s

/-- TIME_EVENT_FIRE (R407). -/
def execTimeEventFire (t : Time) (u : Fin 64) (s : State) : Host.Outcome State Fault Refusal :=
  let s := s.tick t
  .next (if s.b (R.invarEv_ESTAT u) 0 && s.evPassed u then s.evFire u else s)

/-- How far a unit's due time lies behind device time. -/
def State.evBehind (s : State) (u : Nat) : Int := nsDiff s.nsNow (s.evDue u)

/-- Units in the order in which they fire: by due time, then by index (R406). -/
def State.evInsert (s : State) (u : Nat) : List Nat → List Nat
  | [] => [u]
  | v :: r => if s.evBehind v ≥ s.evBehind u then v :: s.evInsert u r else u :: v :: r

/-- After a forward step the pending units whose due time was skipped fire at once (R406). -/
def State.evSkipped (s : State) : State :=
  let l := (List.range 64).filter fun u => s.b (R.invarEv_ESTAT u) 0 && s.evPassed u
  (l.foldl (fun r u => s.evInsert u r) []).foldl State.evFire s

/-- A commit has changed a unit (R409). The old DUE fires where it has been reached. -/
def State.evCommit (s : State) (u : Nat) (old : State) : State :=
  let a := R.invarEv_ESTAT u
  let on := s.b (R.invarEv_ECFG u) 0
  let s := if s.b a 0 && nsDiff s.nsNow (old.evDue u) ≥ 0 then s.evTokenOf u (old.evDue u) (old.b (R.invarEv_ECFG u) 1) else s
  let s := (s.setB a 0 on).setB a 1 false
  if on && s.evPassed u then ((s.setB a 1 true).irqB P.invarEv 9).evFire u else s

/-- A commit of the core page (R399, R402): SRC and FREQ_TRIM. -/
def State.invCommit (s : State) (oldCfg : W32) : State :=
  let src := s.f R.invarCore_CFG 1 0
  let s :=
    if fld oldCfg 1 0 = src then s
    else (s.setInv { s.inv with good := 0, lastMeas := s.now, sync := none, whole := none, req := none, reqAt := none, mpd := none, syncTs := 0 }).setF R.invarCore_STAT 1 0 (if src = 0 then 0 else 1)
  let s := if s.inv.ppsOut && !s.b R.invarCore_PPS_CFG 0 then (s.setInv { s.inv with ppsOut := false }).emit (.ppsOut false) else s
  if src = 0 then (s.setB R.invarCore_STAT 4 false).setRate (s.rd R.invarCore_FREQ_TRIM).toInt else s

end Sys2Proof.Machine
end

