-- ==== Sys2Proof/Machine/Geyser.lean ====
section
/-! DEFINITION. Geyser: samples, resampling, blocks, records, rings and trigger units (chapter 11). -/

namespace Sys2Proof.Machine

def State.setGey (s : State) (x : GeySt) : State := { s with gey := x }
def State.gch (s : State) (c : Nat) : GeyCh := Tab.get s.gey.chans c {}
def State.setGch (s : State) (c : Nat) (x : GeyCh) : State := s.setGey { s.gey with chans := Tab.set s.gey.chans c x {} }
def State.gtrig (s : State) (u : Nat) : GeyTrig := Tab.get s.gey.trigs u {}
def State.setGtrig (s : State) (u : Nat) (x : GeyTrig) : State := s.setGey { s.gey with trigs := Tab.set s.gey.trigs u x {} }
def State.gring (s : State) (r : Nat) : GeyRing := Tab.get s.gey.rings r {}
def State.setGring (s : State) (r : Nat) (x : GeyRing) : State := s.setGey { s.gey with rings := Tab.set s.gey.rings r x {} }

/-! ## Registers -/

def gSrc (c : Nat) : Nat := R.geyChan_SRC (c / 64) (c % 64)
def gMode (c : Nat) : Nat := R.geyChan_MODE (c / 64) (c % 64)
def gStat (c : Nat) : Nat := R.geyChan_CHSTAT (c / 64) (c % 64)
def gPage (c : Nat) : Nat := P.geyChan (c / 64)
def gtStat (u : Nat) : Nat := R.geyTrig_TSTAT u

def State.gEn (s : State) (c : Nat) : Bool := s.b (gMode c) 0
def State.gAngle (s : State) (c : Nat) : Bool := s.b (gMode c) 1
def State.gLp (s : State) (c : Nat) : Nat := s.f (gMode c) 3 2
def State.gState (s : State) (c : Nat) : Nat := s.f (gStat c) 2 0
def State.setGState (s : State) (c k : Nat) : State := s.setF (gStat c) 2 0 k

/-- The direction s of R369. -/
def State.gSg (s : State) (c : Nat) : Int := if s.b (gMode c) 4 then -1 else 1

/-- REV in units of 2^-16 count. -/
def State.gRev (s : State) (c : Nat) : Nat := (s.rd48 (R.geyChan_REV_LO (c / 64) (c % 64))).toNat
def State.gAnchor (s : State) (c : Nat) : W48 := s.rd48 (R.geyChan_ANCHOR_LO (c / 64) (c % 64))
def State.gRevs (s : State) (c : Nat) : Nat := s.f (R.geyChan_REVS (c / 64) (c % 64)) 15 0

/-- Points per revolution, 2^K. -/
def State.gPts (s : State) (c : Nat) : Nat := 2 ^ s.f (gMode c) 11 8

/-- Samples in a block (R372). -/
def State.gBlock (s : State) (c : Nat) : Nat :=
  if s.b (gMode c) 12 then (if s.gAngle c then s.gRevs c * s.gPts c else 65536) else 2 ^ s.f (gMode c) 19 16

/-- The channels that are enabled and not retired. -/
def State.gChans (s : State) : List Nat := (List.range 256).filter fun c => s.gEn c && s.gState c ≠ 4

/-- A 24-bit value limited (R191). -/
def sat24 (x : Int) : Int := clampI x (-(2 ^ 23)) (2 ^ 23 - 1)

/-! ## Trigger units (R379 to R383) -/

def State.tState (s : State) (u : Nat) : Nat := s.f (gtStat u) 2 0
def State.setTState (s : State) (u k : Nat) : State := s.setF (gtStat u) 2 0 k
def State.tLen (s : State) (u : Nat) : Nat := 2 ^ s.f (R.geyTrig_SNAP u) 3 0
def State.tPre (s : State) (u : Nat) : Nat := s.f (R.geyTrig_PREPOST u) 15 0
def State.tPost (s : State) (u : Nat) : Nat := s.f (R.geyTrig_PREPOST u) 31 16

/-- The device address of word i of a unit's snapshot buffer. -/
def State.tWord (s : State) (u i : Nat) : Nat := sharedAddr (s.f (R.geyTrig_SNAP u) 22 12 * 0x1000) + 4 * (i % s.tLen u)

/-- FILL begins for a new capture, which is not FORCED so far; with PRE 0 the unit is armed at once. -/
def State.tFill (s : State) (u : Nat) : State :=
  ((s.setGtrig u { s.gtrig u with primeR := false, primeF := false, fill := 0, armed := s.cycle, onNext := false }).setB (gtStat u) 8 false).setTState u
    (if s.tPre u = 0 then 2 else 1)

/-- FILL is complete. -/
def State.tArm (s : State) (u : Nat) : State := (s.setGtrig u { s.gtrig u with armed := s.cycle }).setTState u 2

def State.tFillDone (s : State) (u : Nat) : Bool := s.tState u = 1 && (s.gtrig u).fill ≥ s.tPre u

/-- A capture is complete. -/
def State.tDone (s : State) (u : Nat) : State := ((s.setTState u 4).inc (R.geyTrig_CAPT u) 15 0).irqB P.geyTrig (8 + u)

def State.tCaptured (s : State) (u : Nat) : Bool := s.tState u = 3 && (s.gtrig u).post = 0 && !(s.gtrig u).onNext

/-- A change of state that is due comes before a sample or a command (R380, R383). -/
def State.tSettle (s : State) (u : Nat) : State := if s.tFillDone u then s.tArm u else if s.tCaptured u then s.tDone u else s

/-- Write a 32-bit word of a snapshot buffer. A location with a double-bit error or poison ends the write in an error response (R17). -/
def State.snapPut (s : State) (a : Nat) (v : W32) : State :=
  let s := s.meetEcc (loc64 a)
  if s.eccAt a = .good then s.setBytes a (natLe 4 v.toNat) else s

/-- The unit triggers on its latest sample. -/
def State.tTrigger (s : State) (u : Nat) : State :=
  let x := s.gtrig u
  let i := (x.idx + s.tLen u - 1) % s.tLen u
  let a := s.tWord u i
  let s := s.snapPut a (setFld (BitVec.ofNat 32 (s.le a 4)) 25 25 1)
  let s := (s.wr48 (R.geyTrig_TRIG_T_LO u) x.lastT).wr (R.geyTrig_TRIG_IDX u) (BitVec.ofNat 32 i)
  (s.setGtrig u { x with primeR := false, primeF := false, post := s.tPost u - 1, onNext := false }).setTState u 3

/-- Whether the unit has taken a sample while ARMED, so that PRE samples stand before its latest one. -/
def State.tReady (s : State) (u : Nat) : Bool := (s.gtrig u).fill > s.tPre u

/-- The unit triggers at once without an edge: on its latest sample, or on its next one where it has taken none while ARMED (notes/assumptions/84.md). -/
def State.tNow (s : State) (u : Nat) : State :=
  if s.tReady u then s.tTrigger u else (s.setGtrig u { s.gtrig u with primeR := false, primeF := false, onNext := true }).setTState u 3

/-- Judge a value (R379): the unit's state of primes after it, and whether an edge was seen. -/
def State.tEdge (s : State) (u : Nat) (v : Int) : State × Bool :=
  let x := s.gtrig u
  let lv := sfld (s.rd (R.geyTrig_LEVEL u)) 24 0
  let h : Int := s.f (R.geyTrig_HYST u) 22 0
  let e := s.f (R.geyTrig_TCFG u) 12 11
  let r := (e = 1 || e = 3) && x.primeR && v ≥ lv
  let f := (e = 2 || e = 3) && x.primeF && v ≤ lv
  let hit := r || f
  (s.setGtrig u { x with primeR := !hit && (x.primeR || v < lv - h), primeF := !hit && (x.primeF || v > lv + h) }, hit)

/-- An edge in ARMED triggers on the latest sample; one in DONE is missed (R381). -/
def State.tJudge (s : State) (u : Nat) (v : Int) : State :=
  let st := s.tState u
  if (st = 2 && s.tReady u) || st = 4 then
    let r := s.tEdge u v
    if !r.2 then r.1 else if st = 2 then r.1.tTrigger u else r.1.inc (gtStat u) 31 16
  else s

/-- A unit takes a sample of its channel (R380). -/
def State.tSample (s : State) (u : Nat) (y : Int) (gap : Bool) (t : W48) : State :=
  let s := s.tSettle u
  let st := s.tState u
  let s :=
    if st = 1 || st = 2 || st = 3 then
      let x := s.gtrig u
      let s := s.snapPut (s.tWord u x.idx) (BitVec.ofNat 32 ((BitVec.ofInt 24 y).toNat + b2n gap * 2 ^ 24))
      s.setGtrig u { x with idx := (x.idx + 1) % s.tLen u, fill := x.fill + 1, post := if st = 3 && !x.onNext then x.post - 1 else x.post, lastT := t }
    else s
  if st = 3 && (s.gtrig u).onNext then s.tTrigger u
  else if s.b (R.geyTrig_TCFG u) 8 then s else s.tJudge u y

/-- The units of a channel. -/
def State.tUnits (s : State) (c : Nat) : List Nat := (List.range 16).filter fun u => s.f (R.geyTrig_TCFG u) 7 0 = c

/-- A unit whose channel leaves RUN discards its capture (R383). -/
def State.tAbort (s : State) (u : Nat) : State :=
  let st := s.tState u
  if st = 1 || st = 2 || st = 3 then (s.setTState u 0).hwSetBits (gtStat u) 0x200 else s

def State.tAborts (s : State) (c : Nat) : State := (s.tUnits c).foldl State.tAbort s

/-- FILL_COMPLETE (R380). -/
def execFillComplete (t : Time) (u : Fin 16) (s : State) : Host.Outcome State Fault Refusal :=
  let s := s.tick t
  .next (if s.tFillDone u then s.tArm u else s)

/-- CAPTURE_DONE (R380). -/
def execCaptureDone (t : Time) (u : Fin 16) (s : State) : Host.Outcome State Fault Refusal :=
  let s := s.tick t
  .next (if s.tCaptured u then s.tDone u else s)

/-- AUTO_TIMEOUT (R381): a unit armed for TMO cycles triggers on its latest sample. -/
def execAutoTimeout (t : Time) (u : Fin 16) (s : State) : Host.Outcome State Fault Refusal :=
  let s := s.tick t
  .next (if s.tState u = 2 && s.f (R.geyTrig_TCFG u) 14 13 = 2 && s.cycle ≥ (s.gtrig u).armed + s.f (R.geyTrig_TMO u) 15 0 then
    s.tNow u else s)

/-- TCMD.ARM. Every command takes effect after a change of state of the same cycle (R383). -/
def State.tcArm (s : State) (u : Nat) : State :=
  let s := s.tSettle u
  if s.tState u = 0 then s.tFill u else s

/-- TCMD.ACK (Table 11.4, R381). -/
def State.tcAck (s : State) (u : Nat) : State :=
  let s := s.tSettle u
  if s.tState u = 4 then
    let s := s.setB (gtStat u) 8 false
    if s.f (R.geyTrig_TCFG u) 14 13 = 1 then s.setTState u 0 else s.tFill u
  else s

/-- TCMD.STOP. -/
def State.tcStop (s : State) (u : Nat) : State := (s.tSettle u).setTState u 0

/-- TCMD.FORCE (R381). -/
def State.tcForce (s : State) (u : Nat) : State :=
  let s := s.tSettle u
  if s.tState u = 2 then (s.tNow u).setB (gtStat u) 8 true else s

def execTcmdArm (t : Time) (m : Master) (u : Fin 16) (s : State) : Host.Outcome State Fault Refusal := .next (s.gated t m (R.geyTrig_TCMD u) 1 fun s => s.tcArm u)
def execTcmdAck (t : Time) (m : Master) (u : Fin 16) (s : State) : Host.Outcome State Fault Refusal := .next (s.gated t m (R.geyTrig_TCMD u) 2 fun s => s.tcAck u)
def execTcmdStop (t : Time) (m : Master) (u : Fin 16) (s : State) : Host.Outcome State Fault Refusal := .next (s.gated t m (R.geyTrig_TCMD u) 4 fun s => s.tcStop u)
def execTcmdForce (t : Time) (m : Master) (u : Fin 16) (s : State) : Host.Outcome State Fault Refusal := .next (s.gated t m (R.geyTrig_TCMD u) 8 fun s => s.tcForce u)

/-! ## Blocks (R372 to R376) -/

/-- Flags of Table 11.2. -/
def gfPartial : Nat := 2
def gfLong : Nat := 4
def gfLate : Nat := 16
def gfOver : Nat := 32
def gfLost : Nat := 64

/-- The value of a block that a trigger with ON_RED 1 judges (R379). -/
def gRedValue (red : Nat) (b : GeyBlk) : Int :=
  match red with
  | 0 => b.min
  | 1 => b.max
  | 2 => b.absmax
  | _ => Nat.sqrt (b.sumsq.toNat / Nat.max b.count 1)

/-- The block of a channel ends: its units with ON_RED 1 judge it (R379). -/
def State.gJudge (s : State) (c : Nat) (b : GeyBlk) : State :=
  (s.tUnits c).foldl (fun s u => if s.b (R.geyTrig_TCFG u) 8 then s.tJudge u (gRedValue (s.f (R.geyTrig_TCFG u) 10 9) b) else s) s

/-- Close the open block with flags added. -/
def State.gClose (s : State) (c flags : Nat) : State :=
  let x := s.gch c
  match x.blk with
  | some b =>
    if b.count = 0 then s.setGch c { x with blk := none }
    else (s.setGch c { x with blk := none, closed := x.closed ++ [{ b with flags := b.flags ||| flags }] }).gJudge c b
  | none => s

/-- The reductions of a sample (R375). -/
def GeyBlk.add (b : GeyBlk) (y : Int) (gap : Bool) : GeyBlk :=
  let b := if b.count = 0 then { b with min := y, max := y } else { b with diffsq := b.diffsq + (y - b.xprev) * (y - b.xprev) }
  { b with count := b.count + 1, sum := b.sum + y, sumsq := b.sumsq + y * y, sum4 := b.sum4 + y * y * y * y,
           min := if y < b.min then y else b.min, max := if y > b.max then y else b.max,
           absmax := if y.natAbs > b.absmax then y.natAbs else b.absmax, absidx := if y.natAbs > b.absmax then b.count else b.absidx,
           xprev := y, gaps := if gap then Nat.min (b.gaps + 1) 65535 else b.gaps }

/-- DC removal (R367): the sample presented, and the tracker after it. -/
def State.gDc (s : State) (c : Nat) (x : Int) : State × Int :=
  let sh := s.f (gMode c) 23 20
  if sh = 0 then (s, x)
  else
    let w := x * 2 ^ 24
    let d := ((s.gch c).dc).getD w
    let d' := if (s.gch c).dc.isNone then w else d + rndDiv (w - d) (2 ^ sh)
    (s.setGch c { s.gch c with dc := some d' }, sat24 (x - rndDiv d (2 ^ 24)))

/-- A sample of the stream at time t and position pos enters reductions and triggers; a full block closes. -/
def State.gEmit (s : State) (c : Nat) (x : Int) (gap : Bool) (flags : Nat) (t pos : W48) : State :=
  let r := s.gDc c x
  let y := r.2
  let s := r.1
  let ch := s.gch c
  let b := (ch.blk).getD { tStart := t, lpStart := pos, gaps := min ch.gapOwed 65535 }
  let b := b.add y gap
  let b := { b with flags := b.flags ||| flags }
  let s := s.setGch c { ch with blk := some b, gapOwed := 0, yprev := x }
  let s := (s.tUnits c).foldl (fun s u => s.tSample u y gap t) s
  if b.count = s.gBlock c then s.gClose c (if s.b (gMode c) 12 && !s.gAngle c then gfLong + gfPartial else 0) else s

/-- The line position is followed from sample to sample, so that its distance from ANCHOR in direction s is counted on without end (R373). -/
def State.gTrack (s : State) (c : Nat) (p : W48) : State :=
  let x := s.gch c
  s.setGch c { x with dist := x.dist + s.gSg c * (p - x.lastPos).toInt, lastPos := p }

/-- The number of the boundary at or behind a distance from ANCHOR (R373). -/
def State.gBound (s : State) (c : Nat) (d : Int) : Int := d / (s.gRevs c * s.gRev c : Nat)

/-- A sample of a time-synchronous stream, of cycle k. With BLKREV 1 it belongs to the furthest boundary reached so far, and in WAIT it is emitted from the next
boundary on (R372, R373). -/
def State.gTimeSample (s : State) (c k : Nat) (x : Int) (gap : Bool) : State :=
  let p := (s.estOf k (s.gLp c)).lpk
  if s.b (gMode c) 12 then
    let s := s.gTrack c p
    let old := (s.gch c).bound
    let n := s.gBound c (s.gch c).dist
    if n > old then ((((s.setGch c { s.gch c with bound := n }).setGState c 2).gClose c 0)).gEmit c x gap 0 (s.cycleTime k) p
    else if s.gState c = 1 then s
    else s.gEmit c x gap 0 (s.cycleTime k) p
  else (s.setGState c 2).gEmit c x gap 0 (s.cycleTime k) p

/-! ## Angle-synchronous channels (R368 to R372) -/

/-- x_j (R369). -/
def State.gPoint (s : State) (c : Nat) (j : Int) : W48 :=
  let k : Int := s.gPts c
  let rev : Int := s.gRev c
  s.gAnchor c + w48 (s.gSg c * (j / k * rev + j % k * rev / k))

/-- The first block boundary ahead of a position (R372). -/
def State.gFirst (s : State) (c : Nat) (p : W48) : Int :=
  let d := s.gSg c * (p - s.gAnchor c).toInt
  let k : Int := s.gPts c
  let b : Int := s.gBlock c
  let rev : Int := s.gRev c
  -- a point index near the position, then the boundary after it that lies ahead
  let j := d / rev * k + (d % rev) * k / rev
  let n := (j / b) * b
  if s.gSg c * (s.gPoint c n - p).toInt > 0 then n
  else if s.gSg c * (s.gPoint c (n + b) - p).toInt > 0 then n + b else n + 2 * b

/-- Enter WAIT for the first boundary ahead of LP; without boundaries in space a time-synchronous channel runs at once (R372). -/
def State.gWait (s : State) (c : Nat) : State :=
  let p := s.lpk (s.gLp c)
  let s := s.setGch c { s.gch c with fresh := false, start := none, ivals := [], gapOwed := 0 }
  if s.gAngle c then (s.setGch c { s.gch c with j := s.gFirst c p }).setGState c 1
  else if s.b (gMode c) 12 then
    let d := s.gSg c * (p - s.gAnchor c).toInt
    (s.setGch c { s.gch c with lastPos := p, dist := d, bound := s.gBound c d }).setGState c 1
  else s.setGState c 2

/-- One point of an interval: the state after it, or none when the point waits (R370). -/
def State.gStep (s : State) (c : Nat) (v : GeyIval) (n : Nat) : Option State :=
  let ch := s.gch c
  let sg := s.gSg c
  let p := s.gPoint c ch.j
  let e := v.est
  if sg * (p - e.at e.tn).toInt > 0 then none
  else
    let late := sg * (p - e.lpk).toInt ≤ 0
    match if late then some 0 else e.predict p sg 0 with
    | none => none
    | some k =>
      let f := rndDiv (2 * k * 2 ^ 23 : Nat) e.tn
      let past := n ≥ s.f (gMode c) 31 28
      let y := if past then ch.yprev else v.x0 + rndDiv ((v.x1 - v.x0) * f) (2 ^ 23)
      let s := if past then s.irqB (gPage c) 9 else s
      let s := if s.gState c = 1 then s.setGState c 2 else s
      let s := s.gEmit c y past (b2n late * gfLate + b2n past * gfOver) (e.tk + BitVec.ofNat 48 (2 * k)) p
      some (s.setGch c { s.gch c with j := ch.j + 1 })

/-- Points of an interval, in order. -/
def State.gPoints (s : State) (c : Nat) (v : GeyIval) (n : Nat) : Nat → State
  | 0 => s
  | k + 1 => match s.gStep c v n with
    | some s' => s'.gPoints c v (n + 1) k
    | none => s

/-- The most points that can lie up to the end of an interval. -/
def State.gFuel (s : State) (c : Nat) (v : GeyIval) : Nat :=
  let d := s.gSg c * (v.est.at v.est.tn - s.gPoint c (s.gch c).j).toInt
  if d < 0 then 0 else (d.toNat / (max (s.gRev c) 1) + 2) * s.gPts c

/-- A repeated sample at the end of an interval advances the gap count of the open block, or of the next one (R366). -/
def State.gGapCount (s : State) (c : Nat) : State :=
  let x := s.gch c
  if s.gState c ≠ 2 then s
  else s.setGch c (match x.blk with
    | some b => { x with blk := some { b with gaps := min (b.gaps + 1) 65535 } }
    | none => { x with gapOwed := x.gapOwed + 1 })

/-- Resample the oldest interval whose two samples are present. -/
def State.gResample (s : State) (c : Nat) : State :=
  match (s.gch c).ivals with
  | [] => s
  | v :: r =>
    let s := s.setGch c { s.gch c with ivals := r }
    if s.gState c = 1 || s.gState c = 2 then
      let s := s.gPoints c v 0 (s.gFuel c v)
      if v.gap then s.gGapCount c else s
    else s

/-- RESAMPLE_INTERVAL (R370). -/
def execResampleInterval (t : Time) (ch : Fin 256) (s : State) : Host.Outcome State Fault Refusal :=
  let s := s.tick t
  .next (if s.gEn ch then s.gResample ch else s)

/-- A sample of cycle k reaches a channel (R365, R366, R368). -/
def State.gSample (s : State) (c k : Nat) (x : Int) (gap : Bool) : State :=
  let ch := s.gch c
  let s := s.setGch c { ch with prev := x, expect := k + 1 }
  if s.gState c = 3 || s.gState c = 4 then s
  else if s.gAngle c then
    let e := s.estOf k (s.gLp c)
    s.setGch c { s.gch c with start := some (x, e), ivals := match ch.start with
      | some (x0, e0) => ch.ivals ++ [{ x0 := x0, x1 := x, gap := gap, est := e0 }]
      | none => ch.ivals }
  else s.gTimeSample c k x gap

/-- A cycle without a sample repeats the previous one (R366). -/
def State.gGap (s : State) (c : Nat) : State := s.gSample c (s.gch c).expect (s.gch c).prev true

/-- Samples of an accepted slot frame reach the channels of its node (R364, R365). -/
def State.gSlot (s : State) (b sl : Nat) (words : List W48) : State :=
  let nax := s.slotNax b sl
  s.gChans.foldl (fun s c =>
    let w := s.rd (gSrc c)
    if fld w 1 0 = 0 && fld w 4 2 = b && fld w 9 5 = sl && (s.gch c).expect = s.cycle then
      let q := fld w 12 10
      let v := words.getD (1 + 6 * nax + q / 2) 0
      s.gSample c s.cycle (if q % 2 = 0 then sfld v 47 24 else sfld v 23 0) false
    else s) s

/-- The signal words of an axis block that a source reads (Table 11.1), as places above the base of the signals. -/
def gAxisWords (sig : Nat) : List Nat :=
  match sig with
  | 0 => [0, 8]
  | 1 => [96]
  | 2 => [56]
  | _ => [144]

/-- The sample of an axis source (Table 11.1), with the double-bit errors the read meets (R17): none where a word cannot be read. -/
def State.gAxis (s : State) (c : Nat) : State × Option Int :=
  let w := s.rd (gSrc c)
  let base := s.axBlock (fld w 22 16) + 0xC0
  let r := s.meetAll ((gAxisWords (fld w 25 24)).map fun o => base + o)
  let s := r.1
  (s, if r.2 then none else some (match fld w 25 24 with
  | 0 => sat24 (rndDiv (s.axLoad (base + 8) - s.axLoad base).toInt (2 ^ fld w 31 26))
  | 1 => sfld (s.axLoad (base + 96)) 23 0
  | 2 => sfld (s.axLoad (base + 56)) 47 24
  | _ => sfld (s.axLoad (base + 144)) 47 24))

/-- Gaps of an axis source up to cycle k. -/
def State.gGaps (s : State) (c k : Nat) : Nat → State
  | 0 => s
  | n + 1 => if (s.gch c).expect < k then (s.gGap c).gGaps c k n else s

/-- An axis source at a boundary: TAG_LAST as latched now against the boundary before (R365, R366). The first boundary only notes it. -/
def State.gAxisCycle (s : State) (c : Nat) : State :=
  let tag := fld (s.rd48 (R.axis_TAG_LAST_LO (s.f (gSrc c) 22 16))) 47 32
  let old := (s.gch c).tag
  let s := s.setGch c { s.gch c with tag := some tag }
  match old with
  | none => s
  | some o =>
    if o = tag || (tag + 65536 - o) % 65536 ≥ 32768 then s.gGap c
    else
      let k := s.cycle - (s.cycle + 65536 - tag) % 65536
      let s := s.gGaps c k 65536
      let r := s.gAxis c
      match r.2 with
      | some x => r.1.gSample c k x false
      | none => r.1.gGap c

/-- What a channel does at a cycle start: one just enabled, or paused with its source valid again, waits; the cycle before may have been a gap; and an axis source
takes its sample (R365, R366, R371, R372). -/
def State.gCycle (s : State) (c : Nat) : State :=
  let s := if (s.gch c).fresh || (s.gState c = 3 && s.lpLive (s.gLp c)) then s.gWait c else s
  if s.f (gSrc c) 1 0 = 0 then (if (s.gch c).expect < s.cycle then s.gGap c else s) else s.gAxisCycle c

/-! ## Records and rings (R376 to R378) -/

/-- The 64 bytes of a record (Table 11.2). -/
def gRecord (c seq : Nat) (b : GeyBlk) (flags : Nat) : List Byte :=
  natLe 1 c ++ natLe 1 flags ++ natLe 2 seq ++ natLe 4 b.count ++ natLe 6 b.tStart.toNat ++ natLe 2 b.gaps ++
  natLe 8 b.sumsq.toNat ++ natLe 8 (rndDiv b.sum4 (2 ^ 46)).toNat ++ natLe 8 b.diffsq.toNat ++ natLe 6 (BitVec.ofInt 48 b.sum).toNat ++
  natLe 2 b.absidx ++ natLe 6 b.lpStart.toNat ++ natLe 3 (BitVec.ofInt 24 b.min).toNat ++ natLe 3 (BitVec.ofInt 24 b.max).toNat ++
  natLe 3 b.absmax ++ natLe 1 seq

def State.ringLen (s : State) (r : Nat) : Nat := 2 ^ s.f (R.geyCommon_RING_CFG r) 3 0

/-- Records written and not consumed, modulo 2^32. -/
def State.ringPending (s : State) (r : Nat) : Nat := (s.rd (R.geyCommon_RING_WR r) - s.rd (R.geyCommon_RING_RD r)).toNat

/-- A record for ring r: written, or dropped when the ring is full (R378). -/
def State.ringRecord (s : State) (r : Nat) (f : Nat → List Byte) : State :=
  let x := s.gring r
  if s.ringPending r + x.writing.length ≥ s.ringLen r then
    ((s.setGring r { x with dropped := true }).inc (R.geyCommon_RING_DROP r) 15 0).irqB P.geyCommon (16 + r)
  else s.setGring r { x with writing := x.writing ++ [f (b2n x.dropped * 128)], dropped := false }

/-- The oldest closed block gives its record and its good event (R376, R385). -/
def State.gBlockClose (s : State) (c : Nat) : State :=
  let ch := s.gch c
  match ch.closed with
  | [] => s
  | b :: r =>
    let s := s.setGch c { ch with closed := r }
    let seq := s.f (gStat c) 31 16
    let s := s.setF (gStat c) 31 16 (seq + 1)
    let fl := b2n (s.gAngle c) + b.flags + b2n (b.gaps ≠ 0) * 8
    let s := s.ringRecord (s.f (gMode c) 26 24) fun d => gRecord c seq b (fl + d)
    s.fdGood 7 c

/-- BLOCK_CLOSE (R376). -/
def execBlockClose (t : Time) (ch : Fin 256) (s : State) : Host.Outcome State Fault Refusal := .next ((s.tick t).gBlockClose ch)

/-- Store 64-bit locations from a list of bytes. -/
def State.putWords (s : State) (a : Nat) : Nat → List Byte → State
  | 0, _ => s
  | n + 1, l => (s.wr64 a (leNat (l.take 8))).putWords (a + 8) n (l.drop 8)

/-- RECORD_WRITE_DONE (R377): the record is whole in its slot and RING_WR advances. -/
def State.ringWritten (s : State) (r : Nat) : State :=
  let x := s.gring r
  match x.writing with
  | [] => s
  | b :: l =>
    let wr := s.rd (R.geyCommon_RING_WR r)
    let a := sharedAddr (s.f (R.geyCommon_RING_CFG r) 22 12 * 0x1000) + wr.toNat % s.ringLen r * 64
    let s := ((s.setGring r { x with writing := l }).putWords a 8 b).wr (R.geyCommon_RING_WR r) (wr + 1)
    s.irqIf (s.ringPending r = s.f (R.geyCommon_RING_WM r) 16 0) P.geyCommon (8 + r)

def execRecordWriteDone (t : Time) (r : Fin 8) (s : State) : Host.Outcome State Fault Refusal := .next ((s.tick t).ringWritten r)

/-- RING_RD_WRITE (R378). -/
def execRingRdWrite (t : Time) (m : Master) (r : Fin 8) (val : W32) (s : State) : Host.Outcome State Fault Refusal :=
  .next (s.gated t m (R.geyCommon_RING_RD r) val fun s => s.wr (R.geyCommon_RING_RD r) val)

/-- The Geyser common page's CLR_CNT. -/
def State.geyClear (s : State) : State := (List.range 8).foldl (fun s r => s.wr (R.geyCommon_RING_DROP r) 0) s

def execGeyserClrCnt (t : Time) (m : Master) (s : State) : Host.Outcome State Fault Refusal :=
  .next (s.gated t m (R.CTRL P.geyCommon) (s.rd (R.CTRL P.geyCommon) ||| 0x100) fun s => s.geyClear)

/-! ## Channel states -/

/-- An angle channel whose source becomes LOST (R371). -/
def State.gPause (s : State) (c : Nat) : State :=
  if s.gState c = 1 || s.gState c = 2 then
    let run := s.gState c = 2
    let s := s.gClose c (gfPartial + gfLost)
    let s := (s.setGch c { s.gch c with start := none, ivals := [] }).setGState c 3
    let s := s.irqB (gPage c) 8
    if run then s.tAborts c else s
  else s

/-- Line-position source l is LOST: its angle channels pause. -/
def State.gLost (s : State) (l : Nat) : State :=
  s.gChans.foldl (fun s c => if s.gAngle c && s.gLp c = l then s.gPause c else s) s

/-- A double-bit error in the context of a channel (R385): a transient fault closes the open block as partial and restarts the channel in WAIT; a permanent one
retires it. -/
def State.gFault (s : State) (c : Nat) : State :=
  let r := s.fdFault 7 c
  let s := r.1
  let st := s.gState c
  let s := if r.2 then (s.setGch c { closed := (s.gch c).closed }).setGState c 4 |>.irqB (gPage c) 10
    else if st = 1 || st = 2 then ((s.gClose c gfPartial).gWait c).setGState c 1
    else s
  if st = 2 then s.tAborts c else s

/-- A commit changed EN of a channel (R372, R374, R383): it enters WAIT or RUN at this boundary, when the line positions of the new cycle stand (gCycle). A retired
channel stays so. -/
def State.gCommit (s : State) (c : Nat) (was : Bool) : State :=
  let on := s.gEn c
  let st := s.gState c
  if on && !was then
    ((s.setGch c { expect := s.nextCycle, prev := 0, fresh := true }).setF (gStat c) 31 16 0).setGState c (if !s.gAngle c && !s.b (gMode c) 12 then 2 else 1)
  else if was && !on then
    let s := s.setGch c { closed := (s.gch c).closed }
    let s := if st = 4 then s else s.setGState c 0
    if st = 2 then s.tAborts c else s
  else s

/-- BUDGET (R384): points available and points claimed. -/
def State.gBudget (s : State) : Nat × Nat :=
  (128 * s.tNs / 1000, s.gChans.foldl (fun n c => n + (if s.gAngle c then s.f (gMode c) 31 28 else 1)) 0)

/-- BUDGET shows the budget of the cycle that begins (R384). -/
def State.gBudgetShow (s : State) : State :=
  let x := s.gBudget
  s.wr R.geyCommon_BUDGET (BitVec.ofNat 32 (x.1 + x.2 * 65536))

/-- Device times Geyser holds advance by a step (R405): interval starts, the starts of blocks, and the sample times of the trigger units. -/
def State.geyShift (s : State) (d : W48) : State :=
  let sh (e : LpEst) : LpEst := { e with tl := e.tl + d, tk := e.tk + d }
  let bl (b : GeyBlk) : GeyBlk := { b with tStart := b.tStart + d }
  let s := s.setGey { s.gey with
    chans := s.gey.chans.map fun e => (e.1, { e.2 with
      blk := e.2.blk.map bl, closed := e.2.closed.map bl,
      start := e.2.start.map fun x => (x.1, sh x.2), ivals := e.2.ivals.map fun v => { v with est := sh v.est } }),
    trigs := s.gey.trigs.map fun e => (e.1, { e.2 with lastT := e.2.lastT + d }) }
  (List.range 16).foldl (fun s u => if s.tState u = 3 || s.tState u = 4 then s.wr48 (R.geyTrig_TRIG_T_LO u) (s.rd48 (R.geyTrig_TRIG_T_LO u) + d) else s) s

/-- TIME_STEP (R405, R406): a step asked for before the latest cycle start takes effect. -/
def execTimeStep (t : Time) (s : State) : Host.Outcome State Fault Refusal :=
  let s := s.tick t
  .next (match s.inv.step with
  | some (d, k) =>
    if s.cycle > k then
      let s := (s.invStep d).geyShift (w48 (rndDiv d 65536))
      if d > 0 then s.evSkipped else s
    else s
  | none => s)

/-! ## Encoders and sources that stop (R255, R256, R262) -/

/-- A source becomes LOST, with what depends on it. -/
def State.lpLost' (s : State) (l : Nat) : State := if s.lpLost l then s else (s.lpLose l).gLost l

/-- Whether the conditions of R262 hold for a source. -/
def State.lpGone (s : State) (l : Nat) : Bool :=
  let c := s.rd (R.lpSrc_LPCFG l)
  !s.lpLost l && (match fld c 2 0 with
    | 1 => s.qeRetired (fld c 14 8)
    | 3 | 4 => (s.lpSrc l).miss ≥ 4
    | _ => false)

/-- LP_SOURCE_LOST (R262). -/
def execLpSourceLost (t : Time) (l : Fin 4) (s : State) : Host.Outcome State Fault Refusal :=
  let s := s.tick t
  .next (if s.lpGone l then s.lpLost' l else s)

/-- An encoder channel is retired (R256): sources on it become LOST and the outputs it feeds stop. -/
def State.qeRetire (s : State) (q : Nat) : State :=
  let s := (List.range 4).foldl (fun s l => if s.lpKind l = 1 && s.f (R.lpSrc_LPCFG l) 14 8 = q then s.lpLost' l else s) s
  s.cmpStops fun c => !s.cmpLp c && s.cmpSrc c = q

/-- An illegal transition (R255, R256). -/
def State.qeIllegal (s : State) (q : Nat) : State :=
  let st := R.qe_QSTAT q
  if s.qeRetired q then s
  else
    let s := (s.setB st 0 (!s.b st 0)).setB st 1 (!s.b st 1)
    if !s.qeEn q then s
    else
      let s := ((s.hwSetBits st 0x100).inc (R.qe_ILL_CNT q) 15 0).irqB (P.qe q) 8
      let r := s.fdFault 6 q
      if r.2 then r.1.qeRetire q else r.1

/-- ILLEGAL_TRANSITION (R255). -/
def execIllegalTransition (t : Time) (q : Fin 8) (s : State) : Host.Outcome State Fault Refusal :=
  let s := s.tick t
  .next (if s.blockInReset 0x09 then s else s.qeIllegal q)

end Sys2Proof.Machine
end

