-- ==== Sys2Proof/Machine/SinterFrames.lean ====
section
/-! DEFINITION. Safety sub-frames: forming the downlink one, accepting the uplink one, and the speed monitors that run on it (R468 to R472, R477, R478). -/

namespace Sys2Proof.Machine

/-- Byte i of a sub-frame. -/
def subByte (x : BitVec 128) (i : Nat) : Byte := BitVec.ofNat 8 (x.toNat / 2 ^ (8 * i))

/-- The CRC-32C of a sub-frame with the virtual prefix of R469. -/
def State.subCrc (s : State) (b sl dir : Nat) (x : BitVec 128) : W32 :=
  crc32c (natLe 4 (s.rd (R.sinNode_NSID b sl)).toNat ++ [BitVec.ofNat 8 dir, BitVec.ofNat 8 b, BitVec.ofNat 8 sl, 0] ++
    (List.range 12).map (subByte x))

/-- A safety node: a slot whose NSCFG.EN is 1. -/
def State.safetyNode (s : State) (b sl : Nat) : Bool := s.b (R.sinNode_NSCFG b sl) 0

/-- The STO byte: bit j for the axis of the node with record j (Table 14.2). -/
def State.stoBits (s : State) (b sl : Nat) : Nat :=
  (s.nodeAxes b sl).foldl (fun v a => if (s.sax a).sto then v ||| 2 ^ s.axisRecord a else v) 0

/-- The downlink sub-frame of Table 14.2 without its CRC. -/
def State.downBody (s : State) (b sl : Nat) (seq : BitVec 16) : BitVec 128 :=
  let c := s.conn b sl
  BitVec.ofNat 128 (seq.toNat + s.stoBits b sl * 2 ^ 16 + b2n c.first * 2 ^ 24 + s.f (R.sinNode_NSCFG b sl) 15 8 * 2 ^ 32 + c.acc.toNat * 2 ^ 40)

/-- Form the sub-frame of this cycle for a field: SEQ rises by 1 whether or not the field goes out STALE (R470); other slots get 16 bytes of 0 (R468). -/
def State.formSub (s : State) (b sl : Nat) : State :=
  let c := s.conn b sl
  if s.safetyNode b sl then
    let seq := c.seq + 1
    let body := s.downBody b sl seq
    s.setConn b sl { c with seq := seq, first := false, down := body + BitVec.ofNat 128 ((s.subCrc b sl 0 body).toNat * 2 ^ 96) }
  else s.setConn b sl { c with down := 0 }

/-- Whether Sinter accepts an uplink sub-frame (R470). -/
def State.subAccepts (s : State) (b sl : Nat) (x : BitVec 128) : Bool :=
  let c := s.conn b sl
  let wd := s.f (R.sinNode_NSCFG b sl) 15 8
  let seq := BitVec.ofNat 16 x.toNat
  let d := (seq - c.acc).toNat
  let e := (c.seq - BitVec.ofNat 16 (x.toNat / 2 ^ 32)).toNat
  fld x 127 96 = (s.subCrc b sl 1 x).toNat && ((1 ≤ d && d ≤ wd) || bit x 21) && e ≤ wd

/-- A SPEED fault of an axis (class 11, whose response is the axis function). -/
def State.speedFault (s : State) (a fn : Nat) : State :=
  let s := (s.countDet 11 1).setSax a { s.sax a with speed := true }
  (s.irqB (P.sinAxis (a / 32)) 9).stopDemand a fn

/-- SS1-r against its envelope (R477). -/
def State.ss1rMonitor (s : State) (a : Nat) : State :=
  let x := s.sax a
  match x.ss1r with
  | none => s
  | some (c0, v0) =>
    let n := s.cycle - c0
    let v := x.spd.toInt.natAbs
    let r := R.sinAxis_SS1R (a / 32) (a % 32)
    let l := R.sinAxis_SS1R_LIM (a / 32) (a % 32)
    if n = 0 then s
    else if v + s.f r 15 0 * n / 256 > v0 + s.f r 27 16 then s.speedFault a 0
    else if v ≤ s.f l 27 16 || n ≥ s.f l 15 0 then s.axisSto a
    else s

/-- SLS is active on an axis (R478). -/
def State.slsActive (s : State) (a : Nat) : Bool :=
  s.b (sfcfg a) 6 || (List.range 2).any fun p => trigSelects (s.f (sfcfg a) 5 4) p && s.pairDemand p

/-- The SLS check of a cycle (R478). -/
def State.slsCheck (s : State) (a : Nat) : State :=
  if s.slsActive a && (s.sax a).spd.toInt.natAbs > s.f (R.sinAxis_SLS (a / 32) (a % 32)) 11 0 then s.speedFault a (s.f (sfcfg a) 9 8) else s

/-- What an accepted sub-frame says of one axis of the node: torque off, safe speed, and the monitors. -/
def State.subAxis (s : State) (x : BitVec 128) (a : Nat) : State :=
  let j := s.axisRecord a
  let s := s.setSax a { s.sax a with torqueOff := bit x (16 + j), spd := BitVec.ofNat 12 (x.toNat / 2 ^ (48 + 12 * j)) }
  (s.ss1rMonitor a).slsCheck a

/-- T_NODE of the node of a slot in time units, from its cached SAFE_AREA (Table 14.4). -/
def State.tNode (s : State) (b sl : Nat) : Time :=
  match s.nameplate b sl with
  | some np => nsT (1000 * s.le (np + 0xC6) 2)
  | none => 0

/-- An axis whose STO bit is set does not report torque off within T_NODE + 2 cycles (R472). -/
def State.torqueLate (s : State) (b sl a : Nat) : Bool :=
  let x := s.sax a
  x.sto && !x.torqueOff && (s.cycle - x.stoCycle) * s.cycleT > s.tNode b sl + 2 * s.cycleT

/-- The condition of R472 on a slot. -/
def State.nodeTimeout (s : State) (b sl : Nat) : Bool :=
  let st := R.sinNode_NSSTAT b sl
  s.safetyNode b sl &&
  (s.f st 15 8 ≥ s.f (R.sinNode_NSCFG b sl) 15 8 || s.b st 17 || (s.nodeAxes b sl).any (s.torqueLate b sl))

/-- TMO reads 1 only while the condition of R472 holds (R481). -/
def State.tmoReview (s : State) (b sl : Nat) : State :=
  if s.b (R.sinNode_NSSTAT b sl) 16 && !s.nodeTimeout b sl then s.setB (R.sinNode_NSSTAT b sl) 16 false else s

/-- Judge an uplink sub-frame of an accepted slot frame (R470): accept it, or count it rejected. -/
def State.uplinkSub (s : State) (b sl : Nat) (x : BitVec 128) : State :=
  let st := R.sinNode_NSSTAT b sl
  if !s.safetyNode b sl then s
  else if s.subAccepts b sl x then
    let s := s.setConn b sl { s.conn b sl with acc := BitVec.ofNat 16 x.toNat, seen := true }
    let s := (s.setF st 15 8 0).setB st 17 (bit x 20)
    ((s.nodeAxes b sl).foldl (fun s a => s.subAxis x a) s).tmoReview b sl
  else s.inc st 31 24

end Sys2Proof.Machine
end

