-- ==== Sys2Proof/Machine/Crater.lean ====
section
/-! DEFINITION. Crater in a cycle: releases, the transmit pointer, command fields, acceptance windows and slot frames (sections 9.4 to 9.7, R353, R354, R359, R443). -/

namespace Sys2Proof.Machine

/-! ## Near and far end (R298, R361, R443) -/

/-- Whether this device is at the far end of the branch, from which its nodes' delays were not measured. The branch's flag says that the driving device is. -/
def State.ownFar (s : State) (b : Nat) : Bool := if s.driven b then (s.branch b).far else !(s.branch b).far

/-- D_total, D_h and the forwarding delay of the cached record, in units of 0.25 ns. -/
def State.dTotal4 (s : State) (b : Nat) : Nat := s.f (R.nodeTable_DTOTAL b) 21 0
def State.dHop4 (s : State) (b h : Nat) : Nat := s.f (R.nodeTable_NODE_DELAY b h) 19 0
def State.fwd4 (s : State) (b h : Nat) : Nat := if s.b (R.nodeTable_NODE_STATE b h) 9 then 4 * s.le (s.npAddr b h + 0x1E) 2 else 0

/-- S^far of slot sl in 0.25 ns (R443). -/
def State.sFar4 (s : State) (b sl : Nat) : Int :=
  match s.hopOf b sl with
  | some h => 4 * s.slotNs b sl + s.dTotal4 b - 2 * s.dHop4 b h - s.fwd4 b h
  | none => 4 * s.slotNs b sl

/-- FREL of field sl in 0.25 ns (R443). -/
def State.frel4 (s : State) (b sl : Nat) : Int :=
  4 * s.relNs b sl + (List.range (sl + 1)).foldl (fun (m : Int) j =>
    if (s.hopOf b j).isSome then max m (s.sFar4 b j - 4 * s.slotNs b j - 3200) else m) 0

/-- The instant x units of 0.25 ns after the cycle start. -/
def State.at4 (s : State) (x : Int) : Time := ((s.tau : Int) + 3 * x).toNat

/-- When the fields that carry no wait of their own begin: after the header CRC, without the fields before (R302). -/
def State.headerEnd4 (s : State) (b : Nat) : Int := 4 * (40 + 4 * (13 + 4 * (s.branch b).grants.length)) + (if s.ownFar b then 3200 else 0)

/-- The release of field sl of a frame in 0.25 ns after the cycle start (R302, R443). -/
def State.release4 (s : State) (b : Nat) : Nat → Int
  | 0 => if s.lag b = 1 then (if s.ownFar b then 3200 + s.frel4 b 0 else 4 * s.relNs b 0) else s.headerEnd4 b
  | sl + 1 =>
    let next := s.release4 b sl + 16 * s.flen b
    if s.lag b = 1 then max next (if s.ownFar b then 3200 + s.frel4 b (sl + 1) else 4 * s.relNs b (sl + 1)) else next

/-! ## The frame on the wire -/

/-- Whether this device sends a frame on the branch in the present cycle. -/
def State.sending (s : State) (b : Nat) : Bool := s.driven b && (s.branch b).lastSync ≥ s.tau

/-- Whether the transmit pointer of the branch runs: with a frame, and on a standby in LOCKSTEP, which judges the same fields (R438). -/
def State.pointerRuns (s : State) (b : Nat) : Bool := s.sending b || (s.isStandby && (s.bstate b = 6 || s.bstate b = 7))

/-- Location i of the records of a field: what a copy holds for a bound axis, 0 for any other (R309). -/
def State.recWord (s : State) (b sl i : Nat) (c : FieldCopy) : W48 :=
  if (s.boundAxes b sl).any fun a => s.f (R.axis_CFG a) 17 16 = i / 2 then
    (match Tab.get c i none with
     | some (v, _) => v
     | none => 0)
  else 0

/-- The records of bound axes in a copy: what the copy adds to the held command (R310). -/
def State.boundCopy (s : State) (b sl : Nat) (c : FieldCopy) : FieldCopy :=
  let l := (s.boundAxes b sl).map fun a => s.f (R.axis_CFG a) 17 16
  c.filter fun e => l.contains (e.1 / 2)

/-- The record words of a field (R303, R304). -/
def State.recWords (s : State) (b sl : Nat) (c : FieldCopy) : List W48 := (List.range (2 * s.slotNax b sl)).map fun i => s.recWord b sl i c

/-- The number of bits set. -/
def ones (w : BitVec 256) : Nat := ((List.range 256).filter fun i => w.getLsbD i).length

/-- The node of slot sl, in RUN or SUSPECT, has had eight violations in the latest 256 cycles (R356). -/
def State.excludeDue (s : State) (b sl : Nat) : Bool :=
  match s.hopOf b sl with
  | some h => (s.nodeState b h = 4 || s.nodeState b h = 5) && ones (s.hop b h).hist ≥ 8
  | none => false

/-- FCTL (R303, R356, R357). -/
def State.fctl (s : State) (b sl : Nat) (stale : Bool) : Nat :=
  let listen := (s.slot b sl).listen > 0
  let off := s.slotState b sl = 6 || s.slotState b sl = 8 || s.excludeDue b sl
  b2n stale + b2n (off && !listen) * 2 + b2n listen * 4

/-- A field up to its safety sub-frame (Table 9.7). -/
def State.fieldHead (s : State) (b sl : Nat) (stale : Bool) (recs : List W48) : List Byte :=
  let l := [BitVec.ofNat 8 (s.fctl b sl stale), BitVec.ofNat 8 sl] ++ natLe 4 s.cycle ++ recs.flatMap fun w => natLe 6 w.toNat
  (l ++ List.replicate (s.flen b - 20 - l.length) (0 : Byte)).take (s.flen b - 20)

/-- A STALE or a fresh field counts, with Crater (R310) and with Sinter (R473). In pair mode Sinter counts from the masks. -/
def State.countField (s : State) (b sl : Nat) (fresh : Bool) : State :=
  let st := R.sinNode_NSSTAT b sl
  let s := if fresh then s else ((s.inc (R.branch_SLOT_STAT b sl) 31 16).inc R.crater_MISS_TOT 31 0).irqB (P.branch b) 8
  if s.pairMode then s
  else if fresh then (s.setF st 7 0 0).setConn b sl { s.conn b sl with missReported := false }
  else (s.inc st 7 0).inc (R.sinNode_NSMISS b sl) 31 0

/-- The transmit pointer reaches field sl of the present frame: the late copy, readiness, and the field (R24 to R26, R308 to R310). -/
def State.pointer (s : State) (b sl : Nat) : State :=
  let x := s.slot b sl
  let c := x.copy s.cycle
  let old (e : Nat × Option (W48 × Nat)) : Bool := match e.2 with
    | some (_, w) => w < ecyc s.now
    | none => false
  let inTime : FieldCopy := c.filter old
  let late : FieldCopy := c.filter fun e => !old e
  let held := if s.copyFull b sl x.late then s.boundCopy b sl x.late else x.held
  let fresh := s.copyFull b sl inTime
  let held := if fresh then s.boundCopy b sl inTime else held
  let recs := s.recWords b sl held
  let x := { x.setCopy s.cycle [] with late := late, held := held, reached := some s.cycle, fresh := fresh, recs := recs, formed := s.fieldHead b sl (!fresh) recs, released := false }
  let s := s.setSlot b sl x
  if s.sending b then s.countField b sl fresh else s

/-- TRANSMIT_POINTER_REACH (R309, R310): 32 ns before the release. -/
def execTransmitPointerReach (t : Time) (b : Fin 8) (sl : Fin 24) (s : State) : Host.Outcome State Fault Refusal :=
  let s := s.tick t
  .next (if s.pointerRuns b && sl < s.nSlots b && !(s.slot b sl).past s.cycle && s.at4 (s.release4 b sl - 128) ≤ s.now then s.pointer b sl else s)

/-- The field leaves the pins: Sinter's sub-frame of this moment (R306), the field CRC, and after the last field the trailer and the EFD (R301). -/
def State.releaseField (s : State) (b sl : Nat) : State :=
  let s := s.formSub b sl
  let x := s.slot b sl
  let body := x.formed ++ natLe 16 (s.conn b sl).down.toNat
  let s := s.setSlot b sl { x with released := true, listen := if bit (x.formed.getD 0 0) 2 then x.listen - 1 else x.listen }
  if !s.sending b then s else
  let field := body ++ natLe 4 (crc32 body).toNat
  let sum := crcAdd (s.branch b).sum field
  let s := (s.setBranch b { s.branch b with sum := sum }).emit (.field b sl field)
  if sl + 1 = s.nSlots b then
    (s.setBranch b { s.branch b with efdAt := some (s.at4 (s.release4 b sl) + nsT (4 * s.flen b + 20)) }).emit (.trailer b (natLe 4 (sum ^^^ 0xFFFFFFFF).toNat))
  else s

/-- FIELD_RELEASE (R302). A standby forms its sub-frames too (R491). -/
def execFieldRelease (t : Time) (b : Fin 8) (sl : Fin 24) (s : State) : Host.Outcome State Fault Refusal :=
  let s := s.tick t
  .next (if s.pointerRuns b && sl < s.nSlots b && (s.slot b sl).past s.cycle && !(s.slot b sl).released && s.at4 (s.release4 b sl) ≤ s.now then
    s.releaseField b sl else s)

/-! ## Fault disposition of the Taleir classes (R359) -/

/-- The node class channel of a hop (Table 14.1). -/
def nodeCh (b h : Nat) : Nat := b * 24 + h

/-- A fault of the node class; a permanent one retires the node. -/
def State.nodeFault (s : State) (b h : Nat) : State :=
  let r := s.fdFault 0 (nodeCh b h)
  if r.2 then (r.1.setNodeState b h 8).irqB (P.nodeTable b) 12 else r.1

/-- A hop becomes ABSENT. -/
def State.hopAbsent (s : State) (b h : Nat) : State :=
  let s := ((s.wr (R.nodeTable_NODE_STATE b h) 0).wr (R.nodeTable_NODE_DELAY b h) 0).wr (R.nodeTable_NODE_DELAY_FAR b h) 0
  s.setHop b h {}

/-- The nodes of a branch lose their syncs and return to LISTEN. Only REINTEGRATE ends EXCLUDED and RETIRED (R357). -/
def State.nodesAbsent (s : State) (b : Nat) : State :=
  (List.range 24).foldl (fun s h => let st := s.nodeState b h; if st = 0 || st = 6 || st = 8 then s else s.hopAbsent b h) s

/-- A fault of the branch port class, at most one a cycle; a permanent one turns the transmitter off and retires the port. -/
def State.portFault (s : State) (b : Nat) : State :=
  if (s.branch b).portFault then s
  else
    let s := s.setBranch b { s.branch b with portFault := true }
    let r := s.fdFault 1 b
    if r.2 then ((r.1.setBstate b 8).nodesAbsent b).failure 14 else r.1

/-! ## Slot frames (R314 to R317, R353, R354) -/

/-- When the SFD of slot sl is expected, in 0.25 ns after the cycle start. -/
def State.arrival4 (s : State) (b sl : Nat) : Int := if s.ownFar b then s.sFar4 b sl else 4 * s.slotNs b sl

/-- E_s: the end of slot sl. -/
def State.slotEnd (s : State) (b sl : Nat) : Time := s.at4 (s.arrival4 b sl + 4 * s.pitch b)

/-- Whether an SFD falls in the acceptance window of slot sl. -/
def State.inWindow (s : State) (b sl : Nat) (sfd : Time) : Bool :=
  let d : Int := (sfd : Int) - s.tau - 3 * s.arrival4 b sl
  d.natAbs ≤ 12 * s.guardNs b

/-- The slot W0 names, among the slots of the branch. -/
def State.namedSlot (s : State) (b : Nat) (f : SlotFrame) : Option Nat :=
  match f.words with
  | [] => none
  | w :: _ => if fld w 4 0 < s.nSlots b then some (fld w 4 0) else none

/-- The slot whose window a frame's SFD falls in. The far end judges a frame as the slot its W0 names (R443). -/
def State.windowSlot (s : State) (b : Nat) (f : SlotFrame) : Option Nat :=
  if s.ownFar b then
    (match s.namedSlot b f with
     | some sl => if s.inWindow b sl f.sfd then some sl else none
     | none => none)
  else (List.range (s.nSlots b)).find? fun sl => s.inWindow b sl f.sfd

/-- The window after that of slot sl in arrival order: the far end's order is that of its own arrivals (R354, R443). -/
def State.nextWindow (s : State) (b sl : Nat) : Option Nat :=
  if s.ownFar b then
    ((List.range (s.nSlots b)).filter fun j => s.arrival4 b sl < s.arrival4 b j).foldl (fun (m : Option Nat) j => match m with
      | some i => if s.arrival4 b j < s.arrival4 b i then some j else m
      | none => some j) none
  else if sl + 1 < s.nSlots b then some (sl + 1) else none

/-- A window violation of slot sl; the next window is relieved (R353, R354). -/
def State.violation (s : State) (b sl : Nat) : State :=
  let s := s.setSlot b sl { s.slot b sl with violation := true }
  let s := match s.nextWindow b sl with
    | some j => s.setSlot b j { s.slot b j with relieved := true }
    | none => s
  s.irqB (P.branch b) 9

/-- An SFD outside every window (R317); a slot that R354 relieves does not count it. -/
def State.strayFrame (s : State) (b : Nat) (f : SlotFrame) : State :=
  match s.namedSlot b f with
  | some sl => (if (s.slot b sl).relieved then s else s.inc (R.branch_SLOT_STAT b sl) 7 0).violation b sl
  | none => (s.inc (R.branch_CNT_WIN b) 15 0).irqB (P.branch b) 9

/-- A frame still arriving at E_s (R315). -/
def State.truncate (s : State) (b sl : Nat) : State :=
  ((s.setSlot b sl { s.slot b sl with sfdSeen := true }).inc (R.branch_CNT_WIN b) 31 16).violation b sl

/-- The number of data words of a frame of slot sl (R311). -/
def State.slotWords (s : State) (b sl : Nat) : Nat := 1 + 6 * s.slotNax b sl + s.slotNacq b sl

/-- The length, the data words and W0 of a frame of slot sl (R311, R314). -/
def State.frameFits (s : State) (b sl : Nat) (f : SlotFrame) : Bool :=
  let w := f.words.getD 0 0
  f.len = s.slotLen b && f.words.length = s.slotWords b sl && fld w 4 0 = sl && fld w 31 16 = s.cycle % 65536 && fld w 7 5 = s.slotNax b sl && fld w 10 8 = s.slotNacq b sl

/-- A frame whose node is not served: EXCLUDED or RETIRED (R353), or to be EXCLUDED since the cycle has begun (R356). -/
def State.shutOut (s : State) (b sl : Nat) : Bool := s.slotState b sl = 6 || s.slotState b sl = 8 || s.excludeDue b sl

/-- The data words of an accepted frame go to the slot buffer of the cycle's parity (R313). -/
def State.slotWrite (s : State) (a : Nat) : List W48 → State
  | [] => s
  | w :: r =>
    let s := match s.phys a with
      | some p => (s.setWord48 p w).bwCell 6 1 1 p
      | none => s
    s.slotWrite (a + 8) r

/-- The offset of the slot buffer of the present cycle in the cell's memory (Table 9.9). -/
def State.slotOff (s : State) (b sl : Nat) : Nat := s.f (R.branch_BRBUF b) 19 0 + s.cycle % 2 * 0x1800 + sl * 0x100

/-- The slot token (Table 5.2). -/
def State.slotToken (s : State) (b sl : Nat) : W48 :=
  BitVec.ofNat 48 (s.slotOff b sl % 2 ^ 20 + b * 2 ^ 20 + sl * 2 ^ 23 + s.cycle % 65536 * 2 ^ 32)

/-- The bound axes of a slot write their mirror copies before its token is posted (R189). -/
def State.mirrorsFirst (s : State) (b sl : Nat) : State :=
  (s.boundAxes b sl).foldl (fun s a => if (s.axSt a).mirrored = some s.cycle then s else s.axMirror a) s

/-- The data words of an accepted frame reach memory, Geyser and the graph (R306, R313, R364). -/
def State.slotData (s : State) (b sl : Nat) (words : List W48) : State :=
  let words := words.take (s.slotWords b sl)
  let s := s.slotWrite (cellMemAddr (s.branchCell b) (s.slotOff b sl)) words
  let s := (s.gSlot b sl words).mirrorsFirst b sl
  s.postSlot (b * 32 + sl) (s.branchCell b) (s.slotToken b sl)

/-- A message to a node is complete (R329). -/
def State.dqComplete (s : State) (b : Nat) (m : TxMsg) : State :=
  let s := s.setBranch b { s.branch b with txq := (s.branch b).txq.filter (·.order ≠ m.order) }
  (s.inc (R.branch_DQ_STAT b) 31 16).irqB (P.branch b) 13

/-- The number of fragments of a message. -/
def TxMsg.frags (m : TxMsg) : Nat := (m.len + 255) / 256

/-- Queued messages in the order they are served (R329). -/
def txBefore (x y : TxMsg) : Bool := x.ms < y.ms || (x.ms = y.ms && x.order < y.order)

def txInsert (x : TxMsg) : List TxMsg → List TxMsg
  | [] => [x]
  | y :: r => if txBefore x y then x :: y :: r else y :: txInsert x r

def txSort (l : List TxMsg) : List TxMsg := l.foldl (fun r x => txInsert x r) []

/-- A node's report of the next fragment it expects of its current message (Table 9.11, R329). -/
def State.nextFragReport (s : State) (b sl n : Nat) : State :=
  match (txSort (s.branch b).txq).find? fun m => m.node = sl && m.started with
  | none => s
  | some m =>
    if n = m.frags then s.dqComplete b m
    else if n = m.frag || n > m.frags then s
    else s.setBranch b { s.branch b with txq := (s.branch b).txq.map fun x => if x.order = m.order then { x with frag := n } else x }

/-- W0's message fields (R324, R329). -/
def State.slotRequests (s : State) (b sl : Nat) (w : W48) : State :=
  let s := if bit w 11 then s.nextFragReport b sl (fld w 15 12) else s
  let n := fld w 47 40
  if n = 0 then s.setSlot b sl { s.slot b sl with req := none }
  else if n > 128 then (s.setSlot b sl { s.slot b sl with req := none }).inc (R.branch_CNT_ERR b) 31 16
  else s.setSlot b sl { s.slot b sl with req := some (fld w 39 32, n) }

/-- OFFS of a node: the latest accepted SFD less its nominal arrival, in ns; a value the field cannot hold is free. -/
def State.setOffs (s : State) (b h sl : Nat) (sfd : Time) : State :=
  let d := rndDiv ((sfd : Int) - s.tau - 3 * s.arrival4 b sl) 12
  let a := R.nodeTable_NODE_STATE b h
  if -128 ≤ d && d ≤ 127 then s.setF a 31 24 (d % 256).toNat else (s.setF a 31 24 (Config.freeByte s.freeCtr).toNat).useFree

/-- What an accepted frame does for its node: the good event, and the entry of a JOINING node to RUN (R352, R359). -/
def State.nodeGood (s : State) (b h sl : Nat) : State :=
  let s := s.fdGood 0 (nodeCh b h)
  if s.nodeState b h = 3 then
    ((s.setNodeState b h 4).setConn b sl { s.conn b sl with first := true }).inc (R.nodeTable_CNT b) 31 16 |>.irqB (P.nodeTable b) 8
  else s

/-- A frame of the node arrived at its SFD: OFFS, and what an accepted frame does. -/
def State.nodeSeen (s : State) (b sl : Nat) (sfd : Time) : State :=
  match s.hopOf b sl with
  | none => s
  | some h => (s.setOffs b h sl sfd).nodeGood b h sl

/-- A frame is accepted as slot sl. -/
def State.acceptSlot (s : State) (b sl : Nat) (f : SlotFrame) : State :=
  let s := s.setSlot b sl { s.slot b sl with accepted := true }
  let s := s.setBranch b { s.branch b with anyAccepted := true }
  let s := (s.nodeSeen b sl f.sfd).uplinkSub b sl f.sub
  let s := s.slotRequests b sl (f.words.getD 0 0)
  let s := s.slotData b sl f.words
  if s.pairMode && s.pair.claim then s.emit (.pxSlot b sl f.words f.sub) else s

/-- A device in ECHO forwards an accepted frame to the active, as far as 0.75 × B allows (R446). -/
def State.echoForward (s : State) (b sl : Nat) (f : SlotFrame) : State :=
  let n := 6 + 6 * f.words.length
  let used := ((List.range 8).map fun i => (s.branch i).echoBytes).foldl (· + ·) 0
  if 4 * (used + n) > 3 * (625 * s.tNs / 1000) then s.inc (R.branch_CNT_ERR b) 31 16
  else (s.setBranch b { s.branch b with echoBytes := (s.branch b).echoBytes + n }).emit (.pxSlot b sl f.words f.sub)

/-- Judge a frame whose SFD falls in the window of slot sl (R314 to R317). -/
def State.judgeFrame (s : State) (b sl : Nat) (f : SlotFrame) : State :=
  if f.efd > s.slotEnd b sl then s.truncate b sl
  else
    let s := s.setSlot b sl { s.slot b sl with sfdSeen := true }
    match f.fin with
    | .aborted | .cut => s.inc (R.branch_CNT_WIN b) 31 16
    | .badCheck => (s.inc (R.branch_CNT_ERR b) 15 0).irqB (P.branch b) 10
    | .good =>
      if !s.frameFits b sl f then s.inc (R.branch_CNT_ERR b) 31 16
      else if s.shutOut b sl || (s.slot b sl).accepted then s
      else if s.bstate b = 7 then
        ((s.setSlot b sl { s.slot b sl with accepted := true }).setBranch b { (s.setSlot b sl { s.slot b sl with accepted := true }).branch b with anyAccepted := true }).echoForward b sl f
      else s.acceptSlot b sl f

/-- SLOT_FRAME_RECEIVE (R314). A branch that is neither driven nor in ECHO does not judge frames. -/
def execSlotFrameReceive (t : Time) (b : Fin 8) (f : SlotFrame) (s : State) : Host.Outcome State Fault Refusal :=
  let s := s.tick t
  .next (if !(s.driven b || s.bstate b = 7) then s
  else match s.windowSlot b f with
    | some sl => s.judgeFrame b sl f
    | none => s.strayFrame b f)

/-- SLOT_END_TRUNCATE (R315): a frame of slot sl is still arriving at E_s. -/
def execSlotEndTruncate (t : Time) (b : Fin 8) (sl : Fin 24) (s : State) : Host.Outcome State Fault Refusal :=
  let s := s.tick t
  .next (if (s.driven b || s.bstate b = 7) && sl < s.nSlots b && s.slotEnd b sl ≤ s.now then s.truncate b sl else s)

/-- WINDOW_CLOSE_MISSING (R317). -/
def execWindowCloseMissing (t : Time) (b : Fin 8) (sl : Fin 24) (s : State) : Host.Outcome State Fault Refusal :=
  let s := s.tick t
  let x := s.slot b sl
  .next (if (s.driven b || s.bstate b = 7) && sl < s.nSlots b && !x.sfdSeen && !x.closed && s.at4 (s.arrival4 b sl + 4 * s.guardNs b) < s.now then
    (s.setSlot b sl { x with closed := true }).inc (R.branch_SLOT_STAT b sl) 15 8
  else s)

/-- A receiver fault of a branch port: its lock is lost, or a code or disparity error outside frames (Table 10.9). -/
def State.receiverFault (s : State) (b : Nat) : State :=
  if s.brEn b && s.bstate b ≠ 0 && s.bstate b ≠ 8 then (s.setBranch b { s.branch b with rxError := true }).portFault b else s

/-- TALEIR_RECEIVER_LOCK_LOSS (R359): each fault of the receiver, which the operand names; Table 10.9 gives both the same account. -/
def execTaleirReceiverLockLoss (t : Time) (b : Fin 8) (s : State) (fault : RxFault := .lockLoss) : Host.Outcome State Fault Refusal :=
  let s := s.tick t
  .next (match fault with
  | .lockLoss | .codeError => s.receiverFault b)

end Sys2Proof.Machine
end

