-- ==== Sys2Proof/Machine/CraterDyn.lean ====
section
/-! DEFINITION. Taleir's dynamic segments and the integration of nodes: fragments, messages, admission runs, nameplates and delays (sections 9.9, 10.3 to 10.5, R358). -/

namespace Sys2Proof.Machine

/-! ## Holds, and the admission run as ADMSTAT shows it -/

/-- OPEN, the hop being called and the calls without response (Table 10.10). -/
def State.admShow (s : State) (b : Nat) : State :=
  let a := R.nodeTable_ADMSTAT b
  match (s.branch b).adm with
  | none => (s.setF a 0 0 0).setF a 19 16 0
  | some r => ((s.setF a 0 0 1).setF a 12 8 r.hop).setF a 19 16 r.calls

def State.setAdm (s : State) (b : Nat) (r : Option AdmRun) : State := (s.setBranch b { s.branch b with adm := r }).admShow b

/-- The nearest expected hop whose node is ABSENT (R341). -/
def State.nextHop (s : State) (b : Nat) : Option Nat :=
  (List.range 24).find? fun h => s.b (R.nodeTable_EXP_CTL b h) 24 && s.nodeState b h = 0

/-- Queue an integration message for the next cycle's segment, or a later one's. -/
def State.intMsg (s : State) (b from' : Nat) (m : IntMsg) : State :=
  s.setBranch b { s.branch b with ints := (s.branch b).ints ++ [(from', m)] }

/-- Hold a node with a code of Table 10.7 (R348). -/
def State.holdNode (s : State) (b h code : Nat) : State :=
  let a := R.nodeTable_NODE_STATE b h
  let s := ((s.setF a 3 0 7).setF a 23 16 code).setF (R.nodeTable_ADMSTAT b) 31 24 code
  (s.intMsg b (s.cycle + 1) (.hold h)).irqB (P.nodeTable b) 9

/-- A run ends (R341). -/
def State.endRun (s : State) (b : Nat) : State := (s.setBranch b { s.branch b with runEnd := some s.cycle }).setAdm b none

/-- The run goes on to the next hop, which is called in the next cycle's segment (R344), or ends. -/
def State.nextRun (s : State) (b : Nat) : State :=
  match s.nextHop b with
  | some h => s.setAdm b (some { hop := h, calls := 0, resp := none, next := s.cycle + 1 })
  | none => s.endRun b

/-- Open an admission run (R341, R342). -/
def State.openRun (s : State) (b : Nat) : State :=
  if (s.nms b - s.admW b) / s.miniSlots b 256 < min 8 (s.kUp b) then s.setB (R.nodeTable_ADMSTAT b) 1 true
  else
    let s := (s.setB (R.nodeTable_ADMSTAT b) 1 false).nextRun b
    match (s.branch b).adm with
    | some r => s.setAdm b (some { r with next := s.cycle })
    | none => s

/-- ADMISSION_RUN_OPEN (R341): at cycle 8 of the start attempt, or 4,096 cycles after a run. -/
def execAdmissionRunOpen (t : Time) (b : Fin 8) (s : State) : Host.Outcome State Fault Refusal :=
  let s := s.tick t
  let x := s.branch b
  let first := !x.autoOpened && s.cycle = x.attemptCycle + 8
  let again := match x.runEnd with
    | some c => s.cycle ≥ c + 4096 && (s.nextHop b).isSome
    | none => false
  .next (if s.bstate b = 2 && s.b (R.nodeTable_NTCFG b) 0 && x.adm.isNone && (first || again) then
    (s.setBranch b { s.branch b with autoOpened := true }).openRun b
  else s)

def State.admitGo (s : State) (b : Nat) : State := if s.bstate b = 2 && (s.branch b).adm.isNone then s.openRun b else s

/-- ADMIT_GO (R341). -/
def execAdmitGo (t : Time) (m : Master) (b : Fin 8) (s : State) : Host.Outcome State Fault Refusal :=
  .next (s.gated t m (R.nodeTable_NTCMD b) 1 fun s => s.admitGo b)

/-- ADMISSION_NO_RESPONSE (R341). -/
def execAdmissionNoResponse (t : Time) (b : Fin 8) (s : State) : Host.Outcome State Fault Refusal :=
  let s := s.tick t
  .next (match (s.branch b).adm with
  | some r => if r.calls ≥ 8 && r.resp.isNone then (s.endRun b).irqB (P.nodeTable b) 14 else s
  | none => s)

/-! ## REQUEST (R344, R348) -/

/-- The hold code of a REQUEST for hop h; 0 when it passes. -/
def State.requestCode (s : State) (b h : Nat) (r : RequestMsg) : Nat :=
  let serial := (s.rd (R.nodeTable_EXP_SERIAL_LO b h)).toNat + s.f (R.nodeTable_EXP_CTL b h) 15 0 * 2 ^ 32
  if r.vendor ≠ s.rd (R.nodeTable_EXP_VENDOR b h) then 2
  else if r.ntype ≠ s.rd (R.nodeTable_EXP_TYPE b h) then 3
  else if serial ≠ 0 && r.serial.toNat ≠ serial then 4
  else 0

/-- An accepted REQUEST: the coarse delay, the comparison with the expected topology, and the answer. -/
def State.acceptRequest (s : State) (b : Nat) (a : Int) (h : Nat) (r : RequestMsg) : State :=
  let dc := rndDiv ((r.sfd : Int) - s.tau - 12 * (a + 512)) 6
  let sl := s.f (R.nodeTable_EXP_CTL b h) 20 16
  let s := (s.hopAbsent b h).setHop b h { serial := r.serial, npCrc := r.crc }
  let s := (s.setF (R.nodeTable_NODE_STATE b h) 8 4 sl).setF (R.nodeTable_NODE_DELAY b h) 19 0 (dc % 2 ^ 20).toNat
  match s.requestCode b h r with
  | 0 => ((s.setNodeState b h 1).intMsg b (s.cycle + 1) (.assign h)).nextRun b
  | code => (s.holdNode b h code).nextRun b

/-- REQUEST (R344): the first whose SFD and EFD lie within the admission region and whose checks pass. -/
def execRequest (t : Time) (b : Fin 8) (r : RequestMsg) (s : State) : Host.Outcome State Fault Refusal :=
  let s := s.tick t
  let lo := s.tau + nsT (s.admStart b)
  let hi := s.tau + nsT (s.staticEnd b + 4 * s.msBytes b * s.nms b)
  .next (match (s.branch b).adm with
  | some { hop := h, calls := _, resp := some (c, a), next := _ } =>
    if s.sending b && c = s.cycle && r.good && lo ≤ r.sfd && r.efd ≤ hi then s.acceptRequest b a h r else s
  | _ => s)

/-! ## Nameplate and delay (R348 to R351) -/

/-- Checks of the record of hop h in the order of Table 10.7; 0 when it passes. -/
def State.nameplateCode (s : State) (b h : Nat) (r : List Byte) : Nat :=
  let le (o n : Nat) : Nat := leNat ((r.drop o).take n)
  let x := s.hop b h
  let sl := s.f (R.nodeTable_NODE_STATE b h) 8 4
  let serial := (s.rd (R.nodeTable_EXP_SERIAL_LO b h)).toNat + s.f (R.nodeTable_EXP_CTL b h) 15 0 * 2 ^ 32
  if le 0 4 ≠ 0x4E504C54 || le 4 2 ≠ 1 || le 6 2 ≠ 512 || le 0x1FC 4 ≠ (crc32 (r.take 0x1FC)).toNat || le 0x1FC 4 ≠ x.npCrc.toNat then 1
  else if le 8 4 ≠ (s.rd (R.nodeTable_EXP_VENDOR b h)).toNat then 2
  else if le 12 4 ≠ (s.rd (R.nodeTable_EXP_TYPE b h)).toNat then 3
  else if serial ≠ 0 && le 16 6 ≠ serial then 4
  else if le 0x1C 1 ≠ s.slotNax b sl then 5
  else if le 0x1D 1 < s.slotNacq b sl then 6
  else if s.b (R.nodeTable_EXP_CTL b h) 25 && le 0x20 4 % 2 = 0 then 7
  else if le 0x1E 2 < 40 || le 0x1E 2 > 240 then 8
  else 0

/-- Write bytes to a memory's 64-bit locations from a 64-bit aligned address. -/
def State.storeBytes (s : State) (a : Nat) (l : List Byte) : State :=
  let s := s.setBytes a l
  (List.range ((l.length + 7) / 8)).foldl (fun s i => s.setEcc (a + 8 * i) .good) s

/-- Both fragments of a record have come: cache it and measure the delay, or hold the node (R348, R349). -/
def State.nameplateCheck (s : State) (b h : Nat) : State :=
  let x := s.hop b h
  match x.np0, x.np1 with
  | some l0, some l1 =>
    (match s.nameplateCode b h (l0 ++ l1) with
     | 0 =>
       let s := (s.storeBytes (s.npAddr b h) (l0 ++ l1)).setB (R.nodeTable_NODE_STATE b h) 9 true
       (s.setHop b h { x with acts := s.cycle + 1 }).setNodeState b h 2
     | code => s.holdNode b h code)
  | _, _ => s

/-- The conditions of R321 for slot sl with delay d in 0.25 ns. -/
def State.delayFits (s : State) (b sl d : Nat) : Bool :=
  sl < s.nSlots b && 4 * s.slotNs b sl ≥ d + 6000 &&
  (s.lag b = 2 || 4 * (s.relNs b sl + 4 * s.flen b) + d + 2000 ≤ 4 * s.tNs)

/-- D'_h in 0.25 ns (R361). -/
def State.far4 (s : State) (b h : Nat) : Int := 3200 + s.dTotal4 b - s.dHop4 b h - s.fwd4 b h

/-- Form D'_h and ECHO_FIT of a hop, and send DFAR when D'_h has changed by more than 2 ns since it was last sent (R361). -/
def State.setFar (s : State) (b h : Nat) : State :=
  let d := (s.far4 b h % 2 ^ 22).toNat
  let sl := s.f (R.nodeTable_NODE_STATE b h) 8 4
  let two := bit (s.ncaps (s.npAddr b h)) 4 && s.b (R.nodeTable_NODE_STATE b h) 9
  let fit := two && (s.lag b = 2 || 4 * (s.relNs b sl + 4 * s.flen b) + d + 2000 ≤ 4 * s.tNs)
  let s := (s.setF (R.nodeTable_NODE_DELAY_FAR b h) 21 0 d).setB (R.nodeTable_NODE_STATE b h) 10 fit
  let st := s.nodeState b h
  if 3 ≤ st && st ≤ 5 && ((d : Int) - (s.hop b h).lastFar).natAbs > 8 then
    (s.setHop b h { s.hop b h with lastFar := d }).intMsg b s.cycle (.dfar h)
  else s

/-- FARFIT of a branch (R443). -/
def State.setFarfit (s : State) (b : Nat) : State :=
  let fit (sl : Nat) : Bool := match s.hopOf b sl with
    | none => false
    | some h =>
      if s.lag b = 1 then s.frel4 b sl + 16 * s.flen b + s.far4 b h ≤ 4 * (s.tNs : Int) - 2000
      else (4 * s.slotNs b sl : Int) - s.far4 b h ≥ 6000
  s.wr (R.pair_FARFIT b) (BitVec.ofNat 32 ((List.range 24).foldl (fun v sl => if fit sl then v + 2 ^ sl else v) 0))

/-- The hops of a branch whose nodes have been measured. -/
def State.measured (s : State) (b : Nat) : List Nat := (List.range 24).filter fun h => 3 ≤ s.nodeState b h && s.nodeState b h ≤ 6

/-- The partner's measurement of D_total, at integration and in every cycle after; its value reaches the device by no command: free (notes/assumptions/31.md). -/
def State.measureTotal (s : State) (b : Nat) : State :=
  if s.b (R.branch_BRCFG b) 2 && s.pair.pxUp then (s.setF (R.nodeTable_DTOTAL b) 21 0 (Config.freeW32 s.freeCtr).toNat).useFree else s

/-- D_total is measured anew and the far delays of the nodes follow it (R361). -/
def State.farCycle (s : State) (b : Nat) : State :=
  if s.bstate b = 2 && s.b (R.branch_BRCFG b) 2 && !(s.measured b).isEmpty then
    let s := s.measureTotal b
    ((s.measured b).foldl (fun s h => s.setFar b h) s).setFarfit b
  else s

/-- The far delays of a branch after a measurement. -/
def State.farUpdate (s : State) (b h : Nat) : State :=
  if s.b (R.branch_BRCFG b) 2 then
    let s := s.measureTotal b
    ((h :: s.measured b).foldl (fun s h => s.setFar b h) s).setFarfit b
  else s

/-- A measurement run has failed: it is repeated from MEASURE 1, or the third holds the node (R350, R358). -/
def State.runFailed (s : State) (b h : Nat) : State :=
  let x := s.hop b h
  let s := s.setHop b h { x with runs := x.runs + 1, meas := 1, t1s := [], values := [], mTry := [], acts := s.cycle + 1 }
  if x.runs + 1 ≥ 3 then s.holdNode b h 0x0A else s

/-- The eight values of a run (R350): D_h, and the checks of R350 and R351. A value is 2 D_k in time units. -/
def State.runEnd (s : State) (b h : Nat) (l : List Int) : State :=
  let lo := l.foldl min (l.headD 0)
  let hi := l.foldl max (l.headD 0)
  let d := rndDiv (l.foldl (· + ·) 0) 48
  if hi - lo > 96 || (d - s.dHop4 b h).natAbs > 64 then s.runFailed b h
  else
    let s := s.setF (R.nodeTable_NODE_DELAY b h) 19 0 (d % 2 ^ 20).toNat
    let sl := s.f (R.nodeTable_NODE_STATE b h) 8 4
    if s.delayFits b sl (s.dHop4 b h) then (s.farUpdate b h).intMsg b (s.cycle + 1) (.slot h) else s.holdNode b h 0x0B

/-- The start of mini-slot j after the cycle start, in ns. -/
def State.miniNs (s : State) (b j : Nat) : Nat := s.staticEnd b + 4 * s.msBytes b * j

/-- Whether the SFD and EFD of a fragment meet a grant's window (R325). -/
def State.grantFits (s : State) (b : Nat) (g : Grant) (sfd efd : Time) : Bool :=
  let far : Int := if s.ownFar b then s.sFar4 b g.slot - 4 * s.slotNs b g.slot else 0
  let a : Int := s.tau + 3 * (4 * s.miniNs b g.start + far)
  ((sfd : Int) - a).natAbs ≤ 12 * s.guardNs b && (efd : Int) ≤ a + 12 * (4 * s.msBytes b * g.run)

/-- Mark a grant as met. -/
def State.grantDone (s : State) (b i : Nat) : State :=
  match (s.branch b).grants[i]? with
  | some g => s.setBranch b { s.branch b with grants := (s.branch b).grants.set i { g with done := true } }
  | none => s

/-- MREPLY (R350): D_k := ((t4 − t1) − (t3 − t2)) ÷ 2, from the reply to an outstanding MEASURE that arrives in its grant's window. -/
def execMreply (t : Time) (b : Fin 8) (sl : Fin 24) (seq : Byte) (t2 t3 : W32) (t4 : Time) (s : State) : Host.Outcome State Fault Refusal :=
  let s := s.tick t
  .next (match s.hopOf b sl with
  | none => s
  | some h =>
    let x := s.hop b h
    let k := seq.toNat
    match (s.branch b).grants.findIdx? (fun g => g.integ && !g.done && g.slot = (sl : Nat) && s.grantFits b g t4 (t4 + nsT 88)) with
    | none => s
    | some i =>
      let t1 := Tab.get x.t1s k 0
      if s.nodeState b h ≠ 2 || t1 = 0 || x.values.any (·.1 = k) then s
      else
        let s := s.grantDone b i
        let v : Int := ((t4 : Int) - t1) - 3 * ((t3 - t2).toNat : Int)
        let l := x.values ++ [(k, v)]
        let s := s.setHop b h { x with values := l }
        if l.length = 8 then s.runEnd b h (l.map (·.2)) else s)

/-- JOIN_TIMEOUT (R348): no slot frame was accepted within 4 cycles of SLOT. -/
def execJoinTimeout (t : Time) (b : Fin 8) (h : Fin 24) (s : State) : Host.Outcome State Fault Refusal :=
  let s := s.tick t
  .next (if s.nodeState b h = 3 && s.cycle > (s.hop b h).joinFrom + 4 then s.holdNode b h 0x0C else s)

/-! ## Uplink fragments (R325, R326, R358) -/

/-- A free receive buffer (R327). -/
def State.freeRx (s : State) (b : Nat) : Option Nat := (List.range 16).find? fun i => !(s.branch b).rxq.any (·.buf = i)

/-- Receive buffers in use, and promised to messages in reassembly. -/
def State.rxUsed (s : State) (b : Nat) : Nat :=
  (s.branch b).rxq.length + ((s.branch b).slots.filter fun (e : Nat × SlotSt) => e.2.reSeq.isSome || e.2.reNext > 0 || !e.2.retry.isEmpty).length

def SlotSt.noMsg (x : SlotSt) : SlotSt := { x with reSeq := none, reGot := [], reLast := none, reNext := 0, retry := [], tries := [], req := none }

/-- A message whose fragments have all come goes to a receive buffer and the queue (R326). -/
def State.reassemble (s : State) (b sl : Nat) : State :=
  let x := s.slot b sl
  match x.reLast, s.freeRx b with
  | some last, some buf =>
    if !((List.range (last + 1)).all fun i => !(Tab.get x.reGot i []).isEmpty) then s
    else
      let data := (List.range (last + 1)).flatMap fun i => Tab.get x.reGot i []
      let a := sharedAddr (s.f (R.branch_MSGBUF b) 22 16 * 0x10000) + 32768 + buf * 2048
      let s := (s.storeBytes a data).setSlot b sl x.noMsg
      let s := s.setBranch b { s.branch b with rxq := (s.branch b).rxq ++ [{ buf := buf, len := data.length, slot := sl, ms := x.reMs }] }
      s.irqB (P.branch b) 12
  | _, _ => s

/-- An accepted fragment of a node's message. A fragment 0 with a new SEQ abandons an incomplete message. -/
def State.msgFragment (s : State) (b sl : Nat) (f : Fragment) : State :=
  let x := s.slot b sl
  let x := if f.frag = 0 && x.reSeq ≠ some f.seq.toNat then { x with reGot := [], reLast := none, tries := [] } else x
  let x := { x with reSeq := some f.seq.toNat, reMs := f.msIdx.toNat, reGot := Tab.set x.reGot f.frag.toNat f.data [],
                    reLast := if f.last then some f.frag.toNat else x.reLast }
  (s.setSlot b sl x).reassemble b sl

/-- An accepted nameplate fragment. -/
def State.npFragment (s : State) (b sl : Nat) (f : Fragment) : State :=
  match s.hopOf b sl with
  | none => s
  | some h =>
    let x := s.hop b h
    if s.nodeState b h ≠ 1 then s else
    (s.setHop b h (if f.frag = 0 then { x with np0 := some f.data } else { x with np1 := some f.data })).nameplateCheck b h

/-- UPLINK_FRAGMENT_RECEIVE (R325). -/
def execUplinkFragmentReceive (t : Time) (b : Fin 8) (f : Fragment) (s : State) : Host.Outcome State Fault Refusal :=
  let s := s.tick t
  let ok (g : Grant) : Bool := !g.done && g.slot = f.node.toNat && g.frag = f.frag.toNat && s.grantFits b g f.sfd f.efd
  .next (if !s.sending b then s
  else match f.fin with
  | .aborted | .cut => s.inc (R.branch_CNT_WIN b) 31 16
  | .badCheck => (s.inc (R.branch_CNT_ERR b) 15 0).irqB (P.branch b) 10
  | .good => match (s.branch b).grants.findIdx? ok with
    | none => s
    | some i =>
      let integ : Bool := (s.branch b).grants[i]?.any (·.integ)
      let s := s.grantDone b i
      if integ then s.npFragment b f.node.toNat f else s.msgFragment b f.node.toNat f)

/-- A message is abandoned (R358). -/
def State.msgAbandon (s : State) (b : Nat) : State := (s.inc (R.nodeTable_CNT b) 15 0).irqB (P.nodeTable b) 15

/-- A granted fragment has failed: it is granted again, or its eighth failure ends the message or holds the node (R358). It is a fault of the node class. -/
def State.grantFailed (s : State) (b : Nat) (g : Grant) : State :=
  match s.hopOf b g.slot with
  | none => s
  | some h =>
    let s := s.nodeFault b h
    if g.integ then
      let x := s.hop b h
      if s.nodeState b h = 2 then
        (if Tab.get x.mTry g.seq 0 + 1 ≥ 8 then s.runFailed b h else s.setHop b h { x with mTry := Tab.set x.mTry g.seq (Tab.get x.mTry g.seq 0 + 1) 0 })
      else if g.frag = 0 then
        (if x.try0 + 1 ≥ 8 then s.holdNode b h 9 else s.setHop b h { x with try0 := x.try0 + 1 })
      else (if x.try1 + 1 ≥ 8 then s.holdNode b h 9 else s.setHop b h { x with try1 := x.try1 + 1 })
    else
      let x := s.slot b g.slot
      let n := Tab.get x.tries g.frag 0 + 1
      if n ≥ 8 then (s.setSlot b g.slot x.noMsg).msgAbandon b
      else s.setSlot b g.slot { x with retry := x.retry ++ [(g.frag, g.len)], tries := Tab.set x.tries g.frag n 0 }

/-- GRANT_WINDOW_CLOSE (R325, R358). -/
def execGrantWindowClose (t : Time) (b : Fin 8) (i : Fin 16) (s : State) : Host.Outcome State Fault Refusal :=
  let s := s.tick t
  .next (match (s.branch b).grants[(i : Nat)]? with
  | none => s
  | some g =>
    if g.done || s.now < s.tau + nsT (s.miniNs b (g.start + g.run)) then s
    else (s.grantDone b i).grantFailed b g)

/-- The head buffer of the receive queue is freed (R327). -/
def State.uqPop (s : State) (b : Nat) : State := s.setBranch b { s.branch b with rxq := (s.branch b).rxq.tail }

/-- UQ_POP (R327). -/
def execUqPop (t : Time) (m : Master) (b : Fin 8) (s : State) : Host.Outcome State Fault Refusal :=
  .next (s.gated t m (R.branch_UQ_POP b) 1 fun s => s.uqPop b)

/-! ## Downlink messages (R328, R329, R345) -/

/-- A push, or its refusal. -/
def State.dqPush (s : State) (b : Nat) (val : W32) : State :=
  let x := s.branch b
  let len := s.f (R.branch_DQ_LEN b) 11 0
  let full := x.txq.length ≥ 16
  let bad := len = 0 || len > 2048
  if full || bad then
    (s.hwSetBits (R.branch_DQ_STAT b) (BitVec.ofNat 32 (b2n full * 256 + b2n bad * 512))).irqB (P.branch b) 11
  else
    let m : TxMsg := { buf := fld val 3 0, node := fld val 8 4, ms := fld val 23 16, len := len, since := s.now, order := x.pushes, seq := (x.dseq + 1) % 256,
                       frag := 0, sends := [], started := false }
    s.setBranch b { x with txq := x.txq ++ [m], pushes := x.pushes + 1, dseq := (x.dseq + 1) % 256 }

/-- DQ_PUSH (R328). -/
def execDqPush (t : Time) (m : Master) (b : Fin 8) (val : W32) (s : State) : Host.Outcome State Fault Refusal :=
  .next (s.gated t m (R.branch_DQ_PUSH b) val fun s => s.dqPush b val)

/-- The header of a fragment (Table 9.15). -/
def fragHeader (node frag : Nat) (last adm : Bool) (ms seq len : Nat) : List Byte :=
  natLe 6 (node + frag * 32 + b2n last * 256 + b2n adm * 512 + ms * 2 ^ 16 + seq * 2 ^ 24 + len * 2 ^ 32)

/-- Whether a fragment of p bytes that starts at cur ns ends by T − NIT (R329). -/
def State.dynFits (s : State) (b cur p : Nat) : Bool := cur + 4 * (12 + p) ≤ s.tNs - s.nitNs b

/-- Where the next fragment starts: after the fragment and 2 idle symbols (R319). -/
def dynAfter (cur p : Nat) : Nat := cur + 4 * (12 + p) + 8

/-- A fragment with its CRC (R322). -/
def withCrc (l : List Byte) : List Byte := l ++ natLe 4 (crc32 l).toNat

/-- Send an integration message: a single fragment with ADMIT 1 (R345). -/
def State.sendInt (s : State) (b node : Nat) (data : List Byte) : State :=
  let q := ((s.branch b).dseq + 1) % 256
  (s.setBranch b { s.branch b with dseq := q }).emit (.fragment b (withCrc (fragHeader node 0 true true 0 q data.length ++ data)))

/-- The slot of hop h's node. -/
def State.hopSlot (s : State) (b h : Nat) : Nat := s.f (R.nodeTable_NODE_STATE b h) 8 4

/-- The address and payload of a queued integration message (Table 10.4). -/
def State.intPayload (s : State) (b : Nat) (m : IntMsg) : Nat × List Byte :=
  match m with
  | .assign h => (31, [3, 0] ++ natLe 6 (s.hop b h).serial.toNat ++ [BitVec.ofNat 8 (s.hopSlot b h), 0] ++ natLe 4 (s.dHop4 b h))
  | .hold h => (31, [3, 1] ++ natLe 6 (s.hop b h).serial.toNat ++ [BitVec.ofNat 8 (s.hopSlot b h), BitVec.ofNat 8 (s.f (R.nodeTable_NODE_STATE b h) 23 16)] ++ natLe 4 (s.dHop4 b h))
  | .slot h =>
    let sl := s.hopSlot b h
    (sl, [6, 0] ++ natLe 4 (4 * s.slotNs b sl - s.dHop4 b h) ++ natLe 4 (s.dHop4 b h) ++
      natLe 4 (if s.b (R.branch_BRCFG b) 2 then s.f (R.nodeTable_NODE_DELAY_FAR b h) 21 0 else 0) ++ natLe 2 (s.slotLen b) ++
      [BitVec.ofNat 8 (s.guardNs b / 4), BitVec.ofNat 8 (s.flen b / 16), BitVec.ofNat 8 (s.slotNax b sl), BitVec.ofNat 8 (s.slotNacq b sl)] ++ natLe 4 (s.cycle + 1))
  | .release serial => (31, [7, 0] ++ natLe 6 serial.toNat)
  | .dfar h => (s.hopSlot b h, [8, 0] ++ natLe 4 (s.f (R.nodeTable_NODE_DELAY_FAR b h) 21 0))

/-- What sending an integration message changes. -/
def State.intSent (s : State) (b : Nat) (m : IntMsg) : State :=
  match m with
  | .assign h => s.setHop b h { s.hop b h with assigned := true }
  | .slot h =>
    let far := s.f (R.nodeTable_NODE_DELAY_FAR b h) 21 0
    (s.setHop b h { s.hop b h with joinFrom := s.cycle, lastFar := far }).setNodeState b h 3
  | _ => s

/-- Send the queued integration messages whose cycle has come, from cur ns on; those that do not fit wait. -/
def State.sendInts (s : State) (b : Nat) : List (Nat × IntMsg) → Nat → State × Nat
  | [], cur => (s, cur)
  | (c, m) :: r, cur =>
    let x := s.intPayload b m
    if c ≤ s.cycle && s.dynFits b cur x.2.length then ((s.sendInt b x.1 x.2).intSent b m).sendInts b r (dynAfter cur x.2.length)
    else (s.setBranch b { s.branch b with ints := (s.branch b).ints ++ [(c, m)] }).sendInts b r cur

/-- Send MEASURE to the hops being measured: each one as soon as the reply before the last has come (Table 10.5). -/
def State.sendMeasures (s : State) (b : Nat) : List Nat → Nat → State × Nat
  | [], cur => (s, cur)
  | h :: r, cur =>
    let x := s.hop b h
    if s.nodeState b h = 2 && x.acts ≤ s.cycle && x.meas ≤ 8 && x.meas ≤ x.values.length + 2 && s.dynFits b cur 2 then
      let t1 := s.at4 (4 * cur + (if s.ownFar b then 3200 else 0))
      let s := (s.sendInt b (s.hopSlot b h) [4, BitVec.ofNat 8 x.meas]).setHop b h { x with meas := x.meas + 1, t1s := Tab.set x.t1s x.meas t1 0 }
      s.sendMeasures b r (dynAfter cur 2)
    else s.sendMeasures b r cur

/-- A of a CALL for hop h in ns (R343); a fraction of a ns is dropped (notes/assumptions/32.md). -/
def State.callA (s : State) (b h : Nat) : Int :=
  let d2 : Int := if h = 0 then 0 else 2 * (s.dHop4 b (h - 1) + 160)
  (s.admStart b : Int) + s.guardNs b - 512 - (d2 + 3) / 4

/-- Send the CALL of an admission run for the next cycle (R343), to the hop that is now the nearest expected one whose node is ABSENT; without one the run
ends (R341). -/
def State.sendCall (s : State) (b cur : Nat) : State × Nat :=
  match (s.branch b).adm with
  | some { hop := old, calls := c, resp := none, next := k } =>
    if c ≥ 8 || s.cycle < k then (s, cur)
    else match s.nextHop b with
    | none => (s.endRun b, cur)
    | some h =>
      let n := if h = old then c else 0
      if s.dynFits b cur 10 then
        let a := s.callA b h
        let s := s.sendInt b 31 ([1, BitVec.ofNat 8 h] ++ natLe 4 (BitVec.ofInt 32 a).toNat ++ natLe 4 (s.cycle + 1))
        (s.setAdm b (some { hop := h, calls := n, resp := some (s.cycle + 1, a) }), dynAfter cur 10)
      else (s, cur)
  | _ => (s, cur)

/-- Replace a queued message. -/
def State.setTx (s : State) (b : Nat) (m : TxMsg) : State :=
  s.setBranch b { s.branch b with txq := (s.branch b).txq.map fun x => if x.order = m.order then m else x }

/-- Send the fragments of a message from number i on, at most n; answers whether one did not fit. A fragment sent 8 times is not sent again (R358). -/
def State.sendFrags (s : State) (b : Nat) (m : TxMsg) (i cur : Nat) : Nat → State × Nat × Bool
  | 0 => (s, cur, false)
  | n + 1 =>
    if i ≥ m.frags || Tab.get m.sends i 0 ≥ 8 then (s, cur, false)
    else
      let p := min 256 (m.len - 256 * i)
      if !s.dynFits b cur p then (s, cur, true)
      else
        let a := sharedAddr (s.f (R.branch_MSGBUF b) 22 16 * 0x10000) + m.buf * 2048 + 256 * i
        let last := i + 1 = m.frags
        let s := s.emit (.fragment b (withCrc (fragHeader m.node i last false m.ms m.seq p ++ s.bytes a p)))
        let m' := if m.node = 31 then { m with frag := i + 1, started := true }
          else { m with started := true, sends := Tab.set m.sends i (Tab.get m.sends i 0 + 1) 0 }
        let s := s.setTx b m'
        let s := if m.node = 31 && last then s.dqComplete b m' else s
        s.sendFrags b m' (i + 1) (dynAfter cur p) n

/-- Send the queued messages in order; a message whose fragment is missing after 8 sends is abandoned (R358). -/
def State.sendMsgs (s : State) (b : Nat) : List TxMsg → Nat → State
  | [], _ => s
  | m :: r, cur =>
    if m.since + nsT 1000 > s.at4 (4 * s.eSum b + (if s.ownFar b then 3200 else 0)) then s.sendMsgs b r cur
    else if m.node ≠ 31 && Tab.get m.sends m.frag 0 ≥ 8 then
      ((s.setBranch b { s.branch b with txq := (s.branch b).txq.filter (·.order ≠ m.order) }).msgAbandon b).sendMsgs b r cur
    else
      let x := s.sendFrags b m m.frag cur 8
      if x.2.2 then x.1 else x.1.sendMsgs b r x.2.1

/-- The downlink dynamic segment of a cycle. -/
def State.dynSegment (s : State) (b : Nat) : State :=
  let l := (s.branch b).ints
  let s := s.setBranch b { s.branch b with ints := [], dynDone := true }
  let x := s.sendInts b l (s.eSum b)
  let x := x.1.sendMeasures b (List.range 24) x.2
  let x := x.1.sendCall b x.2
  x.1.sendMsgs b (txSort (x.1.branch b).txq) x.2

/-- DOWNLINK_DYNAMIC_SEGMENT (R329): once in each cycle, from E_sum on. -/
def execDownlinkDynamicSegment (t : Time) (b : Fin 8) (s : State) : Host.Outcome State Fault Refusal :=
  let s := s.tick t
  .next (if s.sending b && !(s.branch b).dynDone && s.at4 (4 * s.eSum b + (if s.ownFar b then 3200 else 0)) ≤ s.now then s.dynSegment b else s)

/-! ## Nodes under the host's commands (R357) -/

/-- RELEASE of a HELD hop. -/
def State.releaseHop (s : State) (b h : Nat) : State :=
  if s.nodeState b h = 7 then (s.intMsg b s.cycle (.release (s.hop b h).serial)).hopAbsent b h else s

/-- NTCMD_RELEASE (R357). -/
def execNtcmdRelease (t : Time) (m : Master) (b : Fin 8) (h : Fin 24) (s : State) : Host.Outcome State Fault Refusal :=
  .next (s.gated t m (R.nodeTable_NTCMD b) (BitVec.ofNat 32 (2 + h * 256)) fun s => s.releaseHop b h)

/-- REINTEGRATE of a node in RUN, SUSPECT, EXCLUDED or RETIRED: LISTEN for 4 cycles; a permanent declaration ends (R357, R466). -/
def State.reintegrate (s : State) (b h : Nat) : State :=
  let st := s.nodeState b h
  if st = 4 || st = 5 || st = 6 || st = 8 then
    let sl := s.hopSlot b h
    let s := s.setSlot b sl { s.slot b sl with listen := 4 }
    (s.setFdCh 0 (nodeCh b h) {}).hopAbsent b h
  else s

/-- REINTEGRATE (R357). -/
def execReintegrate (t : Time) (m : Master) (b : Fin 8) (h : Fin 24) (s : State) : Host.Outcome State Fault Refusal :=
  .next (s.gated t m (R.nodeTable_NTCMD b) (BitVec.ofNat 32 (3 + h * 256)) fun s => s.reintegrate b h)

end Sys2Proof.Machine
end

