-- ==== Sys2Proof/Machine/Can.lean ====
section
/-! DEFINITION. The CAN controllers (sections 17.1 to 17.4). Error counters follow ISO 11898-1 as R568 asks (notes/assumptions/40.md). -/

namespace Sys2Proof.Machine

def State.canSt (s : State) (n : Nat) : CanSt := Tab.get s.can n {}

def State.setCan (s : State) (n : Nat) (x : CanSt) : State := { s with can := Tab.set s.can n x {} }

/-- ECNT.STATE: 0 error-active, 1 error-passive, 2 bus-off, 3 RECOVERING. -/
def State.canState (s : State) (n : Nat) : Nat := s.f (R.can_ECNT n) 17 16

def State.canEn (s : State) (n : Nat) : Bool := s.b (R.can_CCFG n) 0

def State.canRetired (s : State) (n : Nat) : Bool := s.b (R.STATUS (P.can n)) 3

/-- The controller acts as with LISTEN 1 (R561, R572). -/
def State.canListen (s : State) (n : Nat) : Bool := s.b (R.can_CCFG n) 1 || (s.pairMode && !s.pair.claim)

/-- Bit b of one of the 64-bit register pairs. -/
def State.mbBit (s : State) (reg : Nat → Nat → Nat) (n b : Nat) : Bool := s.b (reg n (b / 32)) (b % 32)

def State.setMb (s : State) (reg : Nat → Nat → Nat) (n b : Nat) (v : Bool) : State := s.setB (reg n (b / 32)) (b % 32) v

/-- Where the record of buffer b lies (R562). -/
def State.mbAddr (s : State) (n b : Nat) : Nat := sharedAddr (s.f (R.can_MBBASE n) 22 13 * 0x2000) + 128 * b

def State.mbMode (s : State) (n b : Nat) : Nat := s.f (R.can_MB_ID n b) 31 30

/-- TXSTAT: the buffer in transmission, or the head. -/
def State.canShow (s : State) (n : Nat) : State :=
  let x := s.canSt n
  let v (b head : Nat) : W32 := BitVec.ofNat 32 (b + 64 + head * 128 + min (Tab.get x.tries b 0) 31 * 256)
  s.wr (R.can_TXSTAT n) (match x.cur, x.head with
    | some b, h => v b (b2n (h = some b))
    | none, some b => v b 1
    | none, none => 0)

/-! ## Choosing what to send (R564, R570) -/

/-- The arbitration field of a record as a number: the lower wins (R564). -/
def State.arbKey (s : State) (n b : Nat) : Nat :=
  let w := BitVec.ofNat 32 (s.le (s.mbAddr n b) 4)
  fld w 28 18 * 2 ^ 19 + (if bit w 29 then 2 ^ 18 + fld w 17 0 else 0)

/-- The first of the buffers with the lowest key. -/
def lowKey (key : Nat → Nat) (l : List Nat) : Option Nat :=
  l.foldl (fun (m : Option Nat) b => match m with
    | some c => some (if key b < key c then b else c)
    | none => some b) none

/-- The buffer that is sent next: the head after bus-off, else the one whose arbitration field wins. -/
def State.canNext (s : State) (n : Nat) : Option Nat :=
  match (s.canSt n).head with
  | some b => some b
  | none => lowKey (s.arbKey n) ((List.range 64).filter fun b => s.mbBit R.can_TXREQ n b && s.mbMode n b = 2)

/-- A frame starts when none is in transmission and the controller may send. -/
def State.canPick (s : State) (n : Nat) : State :=
  let x := s.canSt n
  let s := if x.cur.isNone && s.canEn n && s.canState n < 2 && !s.canListen n && !x.offAfter then s.setCan n { x with cur := s.canNext n } else s
  s.canShow n

/-! ## The end of a request (R566, R567) -/

/-- The request of buffer b ends with a result: 1 sent, 2 retry limit, 3 cancelled. -/
def State.mbEnd (s : State) (n b res : Nat) : State :=
  let a := s.mbAddr n b + 4
  let w := setFld (BitVec.ofNat 32 (s.le a 4)) 25 24 res
  let s := s.setBytes a (natLe 4 w.toNat)
  let s := (s.setMb R.can_TXREQ n b false).setMb R.can_TXCAN n b false
  let x := s.canSt n
  let s := s.setCan n { x with tries := Tab.set x.tries b 0 0, cur := if x.cur = some b then none else x.cur, head := if x.head = some b then none else x.head }
  let done : W32 := BitVec.ofNat 32 (2 ^ (b % 32))
  if res = 1 then (s.hwSetBits (R.can_TXDONE n (b / 32)) done).irqB (P.can n) 8
  else (s.hwSetBits (R.can_TXFAIL n (b / 32)) done).irqB (P.can n) 9

/-- Every pending request ends with TXRES 3 (R571, R580). -/
def State.canEndAll (s : State) (n : Nat) : State :=
  (List.range 64).foldl (fun s b => if s.mbBit R.can_TXREQ n b then s.mbEnd n b 3 else s) s

/-! ## Error counters (R568) -/

/-- The counters, and the state they give short of bus-off. -/
def State.canCount (s : State) (n tx rx : Nat) : State :=
  let st := s.canState n
  let x := s.canSt n
  let s := s.setCan n { x with txErr := tx, rxErr := rx }
  let a := R.can_ECNT n
  let s := (s.setF a 7 0 (min tx 255)).setF a 15 8 (min rx 255)
  let p : Nat := if tx > 127 || rx > 127 then 1 else 0
  if st ≥ 2 then s else (s.setF a 17 16 p).irqIf (p = 1 && st = 0) (P.can n) 12

def canErrCode : CanErr → Nat
  | .stuff => 1
  | .form => 2
  | .ack => 3
  | .bit1 => 4
  | .bit0 => 5
  | .crc => 6

/-- Bus-off (R569, R571): a fault of the controller's class; at a permanent one every request ends. -/
def State.busOff (s : State) (n : Nat) (b : Option Nat) : State :=
  let s := s.setF (R.can_ECNT n) 17 16 2
  let s := s.setCan n { s.canSt n with cur := none, head := b }
  let s := (s.inc (R.can_CNT n) 31 16).irqB (P.can n) 13
  let r := s.fdFault 8 n
  if r.2 then r.1.canEndAll n else r.1

/-- A failed attempt of buffer b (R566, R569). -/
def State.canFail (s : State) (n b : Nat) (k : CanAttempt) : State :=
  let x := s.canSt n
  let tries := Tab.get x.tries b 0 + 1
  let s := s.setCan n { x with tries := Tab.set x.tries b tries 0, cur := none }
  let s := match k with
    | .lostArbitration => s
    | .error e =>
      let s := s.setF (R.can_ECNT n) 26 24 (canErrCode e)
      if e = CanErr.ack && s.canState n = 1 then s else s.canCount n (x.txErr + 8) x.rxErr
  let lim := s.f (R.can_CCFG n) 12 8
  let ended := lim ≠ 0 && tries ≥ lim
  let s := if ended then s.mbEnd n b 2 else if s.mbBit R.can_TXCAN n b then s.mbEnd n b 3 else s
  let s := if (s.canSt n).txErr ≥ 256 then s.busOff n (if s.mbBit R.can_TXREQ n b then some b else none) else s
  s.canPick n

/-- CAN_FAILED_ATTEMPT (R566, R569). -/
def execCanFailedAttempt (t : Time) (n : Fin 2) (k : CanAttempt) (s : State) : Host.Outcome State Fault Refusal :=
  let s := s.tick t
  .next (match (s.canSt n).cur with
  | some b => s.canFail n b k
  | none => s)

/-- The data bytes that a frame with these record words has on the bus (ISO 11898-1, Table 17.2): a remote frame has none. -/
def canLen (id ctl : W32) : Nat :=
  let d := fld ctl 3 0
  if bit ctl 4 then (if d ≤ 8 then d else Tab.get [(9, 12), (10, 16), (11, 20), (12, 24), (13, 32), (14, 48)] d 64) else if bit id 30 then 0 else min d 8

/-- A frame has been sent: its words and data, and the counters. -/
def State.canSent (s : State) (n b : Nat) : State :=
  let a := s.mbAddr n b
  let id := BitVec.ofNat 32 (s.le a 4)
  let ctl := BitVec.ofNat 32 (s.le (a + 4) 4)
  let s := s.emit (.canFrame n id ctl (s.bytes (a + 16) (canLen id ctl)))
  let x := s.canSt n
  let s := (s.canCount n (x.txErr - 1) x.rxErr).fdGood 8 n
  (s.mbEnd n b 1).canPick n

/-- CAN_TX_SUCCESS (R566). -/
def execCanTxSuccess (t : Time) (n : Fin 2) (s : State) : Host.Outcome State Fault Refusal :=
  let s := s.tick t
  .next (match (s.canSt n).cur with
  | some b => s.canSent n b
  | none => s)

/-! ## Reception (R563) -/

/-- The identifier as a record holds it: a standard one lies in [28:18] (Table 17.2). -/
def canId (f : CanFrame) : Nat := if f.ide then f.id.toNat else f.id.toNat % 2 ^ 11 * 2 ^ 18

/-- Whether a received frame passes the filter of buffer b. -/
def State.mbMatch (s : State) (n b : Nat) (f : CanFrame) : Bool :=
  let id := s.rd (R.can_MB_ID n b)
  let m := s.rd (R.can_MB_MASK n b)
  s.mbMode n b = 1 && (canId f ^^^ fld id 28 0) &&& fld m 28 0 = 0 && (!bit m 29 || f.ide == bit id 29)

/-- The record of a received frame (Table 17.2). -/
def canRecord (f : CanFrame) : List Byte :=
  natLe 4 (canId f + b2n f.ide * 2 ^ 29 + b2n f.rtr * 2 ^ 30) ++
  natLe 4 (f.dlc.toNat + b2n f.fdf * 16 + b2n f.brs * 32 + b2n f.esi * 64) ++ natLe 8 f.sofNs.toNat ++ (f.data ++ List.replicate 64 (0 : Byte)).take 64

def State.canStore (s : State) (n : Nat) (f : CanFrame) : State :=
  let l := (List.range 64).filter fun b => s.mbMatch n b f
  match l.find? fun b => !s.mbBit R.can_RXFULL n b with
  | some b => ((s.storeBytes (s.mbAddr n b) (canRecord f)).hwSetBits (R.can_RXFULL n (b / 32)) (BitVec.ofNat 32 (2 ^ (b % 32)))).irqB (P.can n) 10
  | none => if l.isEmpty then s else (s.inc (R.can_CNT n) 15 0).irqB (P.can n) 11

/-- The receive error counter after a frame without error; above 127 ISO 11898-1 gives a range, and the value is free. -/
def State.rxGood (s : State) (n : Nat) : State :=
  let x := s.canSt n
  if s.canListen n || x.rxErr = 0 then s
  else if x.rxErr ≤ 127 then s.canCount n x.txErr (x.rxErr - 1)
  else (s.canCount n x.txErr (119 + (Config.freeByte s.freeCtr).toNat % 9)).useFree

/-- Whether the controller takes part on the bus. -/
def State.canOn (s : State) (n : Nat) : Bool := s.canEn n && s.canState n < 2 && !s.canRetired n

/-- The bus was another's: a buffer chosen to send waits, and the choice is made again before the next start of frame (R564); one under cancellation stays until its attempt ends. -/
def State.canAgain (s : State) (n : Nat) : State :=
  let x := s.canSt n
  let s := match x.cur with
    | some b => if s.mbBit R.can_TXCAN n b then s else s.setCan n { x with cur := none }
    | none => s
  s.canPick n

/-- CAN_FRAME_RECEIVE (R563). -/
def execCanFrameReceive (t : Time) (n : Fin 2) (f : CanFrame) (s : State) : Host.Outcome State Fault Refusal :=
  let s := s.tick t
  .next (if s.canOn n && (!f.fdf || s.b (R.can_CCFG n) 2) then (((s.rxGood n).fdGood 8 n).canStore n f).canAgain n else s)

/-- CAN_RECEIVE_ERROR (R568). A bit-0 error of a receiver is one in a flag it sends. -/
def execCanReceiveError (t : Time) (n : Fin 2) (k : CanErr) (s : State) : Host.Outcome State Fault Refusal :=
  let s := s.tick t
  .next (if s.canOn n && !s.canListen n then
    let x := s.canSt n
    (s.setF (R.can_ECNT n) 26 24 (canErrCode k)).canCount n x.txErr (x.rxErr + (if k = .bit0 then 8 else 1))
  else s)

/-! ## The host's commands (R565, R567, R570, R580) -/

def State.canRefuse (s : State) (n : Nat) : State := s.irqB (P.can n) 15

/-- The buffers whose bits are set in a write of word hi. -/
def mbsOf (hi : Bool) (bits : W32) : List Nat := ((List.range 32).filter fun i => bit bits i).map (32 * b2n hi + ·)

/-- One bit of a TXREQ write (R565). -/
def State.txreq (s : State) (n b : Nat) : State :=
  if s.mbMode n b ≠ 2 || s.canListen n || !s.canEn n || s.canRetired n then s.canRefuse n
  else if s.mbBit R.can_TXREQ n b then s
  else
    let x := s.canSt n
    (s.setCan n { x with tries := Tab.set x.tries b 0 0 }).setMb R.can_TXREQ n b true

def State.txreqs (s : State) (n : Nat) (hi : Bool) (bits : W32) : State := ((mbsOf hi bits).foldl (fun s b => s.txreq n b) s).canPick n

/-- TXREQ (R565). -/
def execTxreq (t : Time) (m : Master) (n : Fin 2) (hi : Bool) (bits : W32) (s : State) : Host.Outcome State Fault Refusal :=
  .next (s.gated t m (R.can_TXREQ n (b2n hi)) bits fun s => s.txreqs n hi bits)

/-- One bit of a TXCAN write (R567). -/
def State.txcan (s : State) (n b : Nat) : State :=
  if !s.mbBit R.can_TXREQ n b then s
  else if (s.canSt n).cur = some b then s.setMb R.can_TXCAN n b true
  else s.mbEnd n b 3

def State.txcans (s : State) (n : Nat) (hi : Bool) (bits : W32) : State := ((mbsOf hi bits).foldl (fun s b => s.txcan n b) s).canPick n

/-- TXCAN (R567). -/
def execTxcan (t : Time) (m : Master) (n : Fin 2) (hi : Bool) (bits : W32) (s : State) : Host.Outcome State Fault Refusal :=
  .next (s.gated t m (R.can_TXCAN n (b2n hi)) bits fun s => s.txcans n hi bits)

def State.canRecover (s : State) (n : Nat) : State :=
  if s.canState n = 2 && !s.canRetired n then s.setF (R.can_ECNT n) 17 16 3 else s.canRefuse n

/-- RECOVER (R570). -/
def execRecover (t : Time) (m : Master) (n : Fin 2) (s : State) : Host.Outcome State Fault Refusal :=
  .next (s.gated t m (R.can_CMD n) 1 fun s => s.canRecover n)

/-- CAN_RECOVERED (R570). -/
def execCanRecovered (t : Time) (n : Fin 2) (s : State) : Host.Outcome State Fault Refusal :=
  let s := s.tick t
  .next (if s.canState n = 3 then
    let s := ((s.setF (R.can_ECNT n) 17 16 0).canCount n 0 0).irqB (P.can n) 14
    s.canPick n
  else s)

/-- RXFULL_FREE (R563). -/
def execRxfullFree (t : Time) (m : Master) (n : Fin 2) (hi : Bool) (bits : W32) (s : State) : Host.Outcome State Fault Refusal :=
  .next (s.gated t m (R.can_RXFULL n (b2n hi)) bits fun s => s.w1c (R.can_RXFULL n (b2n hi)) bits)

/-- CAN_DISABLE (R580): EN 0 takes effect once no frame is in transmission. -/
def execCanDisable (t : Time) (n : Fin 2) (s : State) : Host.Outcome State Fault Refusal :=
  let s := s.tick t
  let x := s.canSt n
  .next (if x.offAfter && x.cur.isNone then ((s.setCan n { x with offAfter := false }).canEndAll n).canShow n else s)

/-- A commit of a CAN page has taken effect. -/
def State.canCommit (s : State) (n : Nat) (old : State) : State :=
  if old.canEn n && !s.canEn n then s.setCan n { s.canSt n with offAfter := true } else s.canPick n

end Sys2Proof.Machine
end

