-- ==== Sys2Proof/Machine/Irq.lean ====
section
/-! DEFINITION. Interrupt commands: IRQ_SET, vector arming, MSI-X masks, configuration writes and cascade interrupts (R49, R532 to R537). -/

namespace Sys2Proof.Machine

/-- IRQ_SET (R49): as if hardware had set the bits. -/
def execIrqSet (t : Time) (m : Master) (p : Fin 2048) (bits : W32) (s : State) : Host.Outcome State Fault Refusal :=
  .next (s.gated t m (p * 0x1000 + 0x18) bits fun s =>
    match pageKind p with
    | some (k, _) => s.irq p ((bits &&& BitVec.ofNat 32 (pageIrqMask k)).toNat)
    | none => s)

/-- Bring the vectors of a list up to date, in order. -/
def State.vecUpdates (s : State) (vs : List Nat) : State := vs.foldl State.vecUpdate s

/-- The numbers of the bits set in a 32-bit word, offset by base. -/
def bitsOf (w : W32) (base : Nat) : List Nat := ((List.range 32).filter fun i => bit w i).map (base + ·)

def State.vecArm (s : State) (hi : Nat) (bits : W32) : State :=
  (s.wr (R.router_VEC_ARM hi) (s.rd (R.router_VEC_ARM hi) ||| bits)).vecUpdates (bitsOf bits (32 * hi))

/-- VEC_ARM (R534): a vector still asserted sends a new message at once. -/
def execVecArm (t : Time) (m : Master) (hi : Bool) (bits : W32) (s : State) : Host.Outcome State Fault Refusal :=
  .next (s.gated t m (R.router_VEC_ARM (b2n hi)) bits fun s => s.vecArm (b2n hi) bits)

def State.setPcie (s : State) (p : PcieSt) : State := { s with pcie := p }

/-- Bring every vector up to date. -/
def State.vecAll (s : State) : State := s.vecUpdates (List.range 64)

/-- MSIX_MASK_CHANGE (R537): the mask of one vector in the MSI-X table, or the function mask. Removing it sends a pending message whose vector is still
asserted. -/
def execMsixMaskChange (t : Time) (v : Option (Fin 64)) (masked : Bool) (s : State) : Host.Outcome State Fault Refusal :=
  let s := s.tick t
  .next (if s.endpointInReset then s
  else match v with
  | some v => (s.setB (R.msix_TBL_CTL v) 0 masked).vecUpdate v
  | none => (s.setPcie { s.pcie with fmask := masked }).vecAll)

/-- CONFIG_WRITE (R532): Memory Space Enable, Bus Master Enable and the power state. -/
def execConfigWrite (t : Time) (memEn busMaster d3hot : Bool) (s : State) : Host.Outcome State Fault Refusal :=
  let s := s.tick t
  .next (if s.endpointInReset then s
  else (s.setPcie { s.pcie with memEn := memEn, busMaster := busMaster, d3hot := d3hot }).vecAll)

/-- The vector of cascade source d, when its CASC_ROUTE entry is enabled (R536). -/
def State.cascVec (s : State) (d : Nat) : State :=
  let r := s.routeByte (R.router_CASC_ROUTE 0) d
  if r ≥ 128 then s.vecUpdate (r % 64) else s

/-- CASCADE_INTERRUPT (R536): on the root, bit dev of REMOTE_PEND is set. -/
def execCascadeInterrupt (t : Time) (dev _vec : BitVec 6) (s : State) : Host.Outcome State Fault Refusal :=
  let s := s.tick t
  .next (if s.b R.lvCommon_LVSTAT 7 && !s.coreInReset then
    (s.hwSetBits (R.router_REMOTE_PEND (dev.toNat / 32)) (BitVec.ofNat 32 (2 ^ (dev.toNat % 32)))).cascVec dev.toNat
  else s)

def State.remotePendClear (s : State) (hi : Nat) (bits : W32) : State :=
  (bitsOf bits (32 * hi)).foldl State.cascVec (s.w1c (R.router_REMOTE_PEND hi) bits)

/-- REMOTE_PEND_CLEAR (R536). -/
def execRemotePendClear (t : Time) (m : Master) (hi : Bool) (bits : W32) (s : State) : Host.Outcome State Fault Refusal :=
  .next (s.gated t m (R.router_REMOTE_PEND (b2n hi)) bits fun s => s.remotePendClear (b2n hi) bits)

end Sys2Proof.Machine
end

