-- ==== Sys2Proof/Machine/CraterCycle.lean ====
section
/-! DEFINITION. Crater at a cycle boundary and the states of a branch: the accounts of the ended cycle, grants, the sync, start attempts, and SUSPECT and
EXCLUDED nodes (R300, R324, R333 to R338, R355, R356, R359). -/

namespace Sys2Proof.Machine

/-! ## The account of the ended cycle -/

/-- The violation history of a hop takes the ended cycle (R355, R356). -/
def State.hopHistory (s : State) (b h : Nat) (v : Bool) : State :=
  let x := s.hop b h
  s.setHop b h { x with hist := (x.hist <<< (1 : Nat)) ||| BitVec.ofNat 256 (b2n v), consec := if v then min (x.consec + 1) 3 else 0, clean := if v then 0 else x.clean + 1 }

/-- The ended cycle for one hop: its history, and a fault of its class when its slot was not accepted, unless R354 or a fault of the port relieves it. -/
def State.hopAccount (s : State) (b : Nat) (portBad : Bool) (h : Nat) : State :=
  let st := s.nodeState b h
  if !(3 ≤ st && st ≤ 6 || st = 8) then s
  else
    let x := s.slot b (s.hopSlot b h)
    let s := s.hopHistory b h (x.violation && !x.relieved)
    let due := st = 4 || st = 5 || (st = 3 && s.cycle > (s.hop b h).joinFrom)
    if due && !x.accepted && !x.relieved && !portBad then s.nodeFault b h else s

/-- No slot was accepted in the ended cycle while a node is in RUN or SUSPECT (Table 10.9). -/
def State.portBad (s : State) (b : Nat) : Bool :=
  ((List.range 24).any fun h => s.nodeState b h = 4 || s.nodeState b h = 5) && !(s.branch b).anyAccepted

/-- The ended cycle of a branch that carried a frame, or that heard frames in ECHO, where its nodes are the active's to judge (Table 10.9). An enabled port
that failed its calibration has a fault in each cycle (R607). -/
def State.branchAccount (s : State) (b : Nat) : State :=
  if !s.calOk 0 then (if s.brEn b && s.bstate b ≠ 0 && s.bstate b ≠ 8 then s.portFault b else s)
  else if !s.sending b && s.bstate b ≠ 7 then s
  else
    let x := s.branch b
    let bad := s.portBad b
    let s := if s.bstate b = 7 then s else (List.range 24).foldl (fun s h => s.hopAccount b (bad || x.portFault) h) s
    if bad then s.portFault b else if x.anyAccepted && !x.rxError && !x.portFault then s.fdGood 1 b else s

/-- An outstanding CALL that no REQUEST answered (R341). -/
def State.callAccount (s : State) (b : Nat) : State :=
  match (s.branch b).adm with
  | some { hop := h, calls := n, resp := some (c, _), next := _ } => if c ≤ s.cycle then s.setAdm b (some { hop := h, calls := n + 1, resp := none }) else s
  | _ => s

/-- Uplink sub-frames missing in the ended cycle, and a timeout whose condition has ended (R472, R481). -/
def State.subAccount (s : State) (b sl : Nat) : State :=
  if !s.safetyNode b sl then s.tmoReview b sl
  else
    let c := s.conn b sl
    let s := s.setConn b sl { c with seen := false }
    if c.seen then s.tmoReview b sl else s.inc (R.sinNode_NSSTAT b sl) 15 8

/-! ## Grants of the new cycle (R324) -/

/-- A fragment to grant: slot, number, payload, and whether it belongs to an integration message. -/
structure Want where
  slot : Nat
  frag : Nat
  len : Nat
  integ : Bool
  seq : Nat := 0
  deriving DecidableEq, Repr

/-- Integration fragments due from a hop: the nameplate after ASSIGN, and each MREPLY after its MEASURE (R345). -/
def State.hopWants (s : State) (b h : Nat) : List Want :=
  let x := s.hop b h
  let sl := s.hopSlot b h
  match s.nodeState b h with
  | 1 => if !x.assigned then [] else
      (if x.np0.isNone then [{ slot := sl, frag := 0, len := 256, integ := true }] else []) ++
      (if x.np1.isNone then [{ slot := sl, frag := 1, len := 256, integ := true }] else [])
  | 2 => (x.t1s.filter fun (e : Nat × Time) => !x.values.any (·.1 = e.1)).map fun e => { slot := sl, frag := 0, len := 10, integ := true, seq := e.1 }
  | _ => []

/-- Bytes granted to a slot for its message in the ended cycle. -/
def State.grantedBytes (s : State) (b sl : Nat) : Nat :=
  ((s.branch b).grants.filter fun g => g.slot = sl && !g.integ).foldl (fun n g => n + g.len) 0

/-- Whether a slot's request begins a new message, which needs a receive buffer. -/
def State.startsMsg (s : State) (b sl : Nat) : Bool :=
  let x := s.slot b sl
  !s.shutOut b sl && x.req.isSome && x.reNext = 0 && x.reSeq.isNone && x.retry.isEmpty

/-- The fragments a slot's request asks for: those to grant again, then new ones while a receive buffer is free beside the n that this list promises (R324,
R327, R358). -/
def State.slotWants (s : State) (b sl n : Nat) : List Want :=
  let x := s.slot b sl
  if s.shutOut b sl then []
  else
    let again := x.retry.map fun (e : Nat × Nat) => ({ slot := sl, frag := e.1, len := e.2, integ := false } : Want)
    match x.req with
    | none => again
    | some (_, len) =>
      let rem := 16 * len - s.grantedBytes b sl
      if s.startsMsg b sl && s.rxUsed b + n ≥ 16 then again
      else again ++ ((List.range (8 - x.reNext)).filter fun i => 256 * i < rem).map fun i =>
        { slot := sl, frag := x.reNext + i, len := min 256 (rem - 256 * i), integ := false }

/-- The mini-slot index under which a slot asks. -/
def State.wantMs (s : State) (b sl : Nat) : Nat :=
  match (s.slot b sl).req with
  | some (ms, _) => ms
  | none => (s.slot b sl).reMs

/-- Slots in the order of their requests: by index, then by slot. -/
def State.wantOrder (s : State) (b : Nat) : List Nat :=
  (List.range 256).flatMap fun ms => (List.range (s.nSlots b)).filter fun sl => s.wantMs b sl = ms

/-- The fragments of the slots of a list, in their order; n messages have been begun before. -/
def State.messageWants (s : State) (b : Nat) : List Nat → Nat → List Want
  | [], _ => []
  | sl :: r, n => s.slotWants b sl n ++ s.messageWants b r (n + b2n (s.startsMsg b sl))

/-- Grant fragments from mini-slot next on, until one does not fit or 16 are granted. -/
def State.allot (s : State) (b limit next n : Nat) : List Want → List Grant
  | [] => []
  | w :: r =>
    let m := s.miniSlots b w.len
    if n ≥ 16 || next + m > limit then []
    else { slot := w.slot, frag := w.frag, start := next, run := m, len := w.len, integ := w.integ, done := false, seq := w.seq } :: s.allot b limit (next + m) (n + 1) r

/-- What a grant changes in its slot's account. -/
def State.grantTaken (s : State) (b : Nat) (g : Grant) : State :=
  if g.integ then s
  else
    let x := s.slot b g.slot
    if x.retry.any (·.1 = g.frag) then s.setSlot b g.slot { x with retry := x.retry.filter (·.1 ≠ g.frag) }
    else s.setSlot b g.slot { x with reNext := g.frag + 1 }

/-- The grant list of the cycle that begins (R324, R342): in an admission cycle the last W mini-slots are kept. -/
def State.buildGrants (s : State) (b : Nat) : State :=
  let admission : Bool := match (s.branch b).adm with
    | some { hop := _, calls := _, resp := some (c, _), next := _ } => c = s.cycle + 1
    | _ => false
  let limit := s.nms b - (if admission then s.admW b else s.admMs b)
  let wants := (List.range 24).flatMap (s.hopWants b) ++ s.messageWants b (s.wantOrder b) 0
  let l := s.allot b limit 0 0 wants
  let s := s.setBranch b { s.branch b with grants := l }
  l.foldl (fun s g => s.grantTaken b g) s

/-! ## The new cycle -/

/-- The account of a slot starts anew. A frame whose pointer never reached the field is over with its cycle. -/
def SlotSt.anew (x : SlotSt) (k : Nat) : SlotSt :=
  let x := if x.past k then x else x.setCopy k []
  { x with formed := [], released := false, fresh := false, recs := [], sfdSeen := false, closed := false, accepted := false, violation := false, relieved := false, req := none }

/-- The STALE mask of the ended frame of a branch (R438). -/
def State.staleMask (s : State) (b : Nat) : BitVec 24 :=
  BitVec.ofNat 24 ((List.range (s.nSlots b)).foldl (fun v sl => if (s.slot b sl).past s.cycle && !(s.slot b sl).fresh then v + 2 ^ sl else v) 0)

/-- The fresh fields of the ended frame with their records. -/
def State.freshFields (s : State) : List (Nat × Nat × List W48) :=
  (List.range 8).flatMap fun b => (List.range (s.nSlots b)).filterMap fun sl =>
    let x := s.slot b sl
    if s.brEn b && x.past s.cycle && x.fresh then some (b, sl, x.recs) else none

/-- Sinter counts the STALE fields of a frame from the active's mask (R473). -/
def State.countMask (s : State) (masks : List (BitVec 24)) : State :=
  (List.range 8).foldl (fun s b =>
    if !s.brEn b then s
    else (List.range (s.nSlots b)).foldl (fun s sl =>
      let st := R.sinNode_NSSTAT b sl
      if (masks.getD b 0).getLsbD sl then (s.inc st 7 0).inc (R.sinNode_NSMISS b sl) 31 0
      else (s.setF st 7 0 0).setConn b sl { s.conn b sl with missReported := false }) s) s

/-- The CRC-32C over the downlink sub-frames of the frame, branches and slots in ascending order (R493). -/
def State.subsCrc (s : State) : W32 :=
  crc32c ((List.range 8).flatMap fun b => if s.brEn b then (List.range (s.nSlots b)).flatMap fun sl => natLe 16 (s.conn b sl).down.toNat else [])

/-- What pair mode keeps of the ended frame for the exchanges of R438 and R493. -/
def State.pairFrame (s : State) : State :=
  if s.pairMode then
    let s := s.setPair { s.pair with ownMask := (List.range 8).map s.staleMask, frame := s.freshFields, safetyCrc := s.subsCrc }
    let s := if s.pair.claim then s.countMask s.pair.ownMask else s
    if s.inLockstep then s.emit (.staleMask s.pair.ownMask) else s
  else s

/-- The ended cycle of every branch, before CHIP.CYCLE advances. -/
def State.craterEnd (s : State) : State :=
  let s := s.pairFrame
  (List.range 8).foldl (fun s b =>
    let s := s.branchAccount b
    let s := (List.range 24).foldl (fun s sl => s.subAccount b sl) s
    let s := (s.callAccount b).farCycle b
    let s := if s.driven b then s.buildGrants b else s
    let x := s.branch b
    s.setBranch b { x with slots := x.slots.map fun (e : Nat × SlotSt) => (e.1, e.2.anew s.cycle), dynDone := false, portFault := false, rxError := false,
                           anyAccepted := false, echoBytes := 0 }) s

/-- The sync of Table 9.5. -/
def State.syncBytes (s : State) : List Byte :=
  let l : List Byte := 0xA1 :: natLe 4 s.cycle
  l ++ natLe 4 (crc32 l).toNat

/-- The summation header with its grant list and CRC (Table 9.6). -/
def State.headerBytes (s : State) (b : Nat) : List Byte :=
  let g := (s.branch b).grants
  let l := [BitVec.ofNat 8 b, BitVec.ofNat 8 (s.nSlots b), BitVec.ofNat 8 (s.flen b / 16), BitVec.ofNat 8 g.length] ++ natLe 4 s.cycle ++
    g.flatMap fun x => natLe 4 (x.slot + x.frag * 32 + x.start * 2 ^ 8 + x.run * 2 ^ 20)
  l ++ natLe 4 (crc32 l).toNat

/-- Each driven branch sends its sync and opens the summation frame (R297, R300, R301), the far end 800 ns later (R443). After a takeover only when its
lock idle is over (R442). -/
def State.sendSync (s : State) (b : Nat) : State :=
  if s.driven b && (s.branch b).idleUntil ≤ s.now then
    let s := s.setBranch b { s.branch b with lastSync := s.tau + (if s.ownFar b then nsT 800 else 0), efdAt := none, syncDue := true, efdDue := true, sum := crcAdd 0xFFFFFFFF (s.headerBytes b) }
    (s.emit (.sync b s.syncBytes)).emit (.header b (s.headerBytes b))
  else s

/-- The syncs of a cycle start. -/
def State.sendSyncs (s : State) : State := (List.range 8).foldl State.sendSync s

/-! ## Start attempts (R334 to R338) -/

/-- Begin a start attempt at the next boundary. -/
def State.beginAttempt (s : State) (b : Nat) : State :=
  let x := s.branch b
  (s.setBranch b { x with attemptCycle := s.nextCycle, foreign1 := false, foreign2 := false, autoOpened := false, adm := none, runEnd := none, far := false, syncDue := false, efdDue := false }).setBstate b 1

/-- A branch enabled by commit: its first start attempt, or STANDBY (R334). -/
def State.branchStart (s : State) (b : Nat) : State :=
  let s := s.nodesAbsent b
  let s := (s.setF (R.nodeTable_BSTATE b) 5 4 0).setBranch b { s.branch b with ints := [], grants := [] }
  if s.txEnabled then s.beginAttempt b else s.setBstate b 6

/-- EN 0: OFF from any state (R334). START_CONFLICT ends with SILENT (R337). -/
def State.branchOff (s : State) (b : Nat) : State :=
  let s := (s.nodesAbsent b).setAdm b none
  (s.wr (R.nodeTable_BSTATE b) 0).setBranch b { s.branch b with runEnd := none, ints := [], grants := [] }

/-- Withdraw after a foreign sync. -/
def State.withdraw (s : State) (b c : Nat) : State :=
  ((s.setBranch b { s.branch b with lastForeign := c }).setBstate b 3).setB (R.nodeTable_BSTATE b) 9 true

/-- A foreign sync in START (Table 10.2): in the first cycle of the attempt, or in its second; before its first boundary it is in neither. -/
def State.startSync (s : State) (b : Nat) : State :=
  let x := s.branch b
  if s.nextCycle ≤ x.attemptCycle then s
  else if s.cycle = x.attemptCycle then
    (if s.sideB then s.withdraw b s.cycle else s.setBranch b { x with foreign1 := true })
  else s.setBranch b { x with foreign2 := true }

/-- FOREIGN_SYNC (R336, R338). In STANDBY and ECHO the receiver notes the active's sync (R445, R447). -/
def execForeignSync (t : Time) (b : Fin 8) (s : State) : Host.Outcome State Fault Refusal :=
  let s := s.tick t
  let x := s.branch b
  let n : Nat := b
  .next (match s.bstate n with
  | 1 => s.startSync n
  | 2 => (s.irqB (P.nodeTable n) 16).portFault n
  | 3 => (s.setBranch n { x with lastForeign := s.cycle }).setB (R.nodeTable_BSTATE n) 9 true
  | 6 => s.setBranch n { x with sawSync := true }
  | 7 => ((s.setBranch n { x with sawSync := true }).irqB (P.nodeTable n) 16).portFault n
  | _ => s)

/-- START_ATTEMPT_END (R336): the end of the attempt's second cycle. -/
def execStartAttemptEnd (t : Time) (b : Fin 8) (s : State) : Host.Outcome State Fault Refusal :=
  let s := s.tick t
  let x := s.branch b
  .next (if s.bstate b = 1 && (s.cycle ≥ x.attemptCycle + 2 || (s.cycle + 1 ≥ x.attemptCycle + 2 && s.cycleDue)) then
    (if !s.sideB && x.foreign1 && x.foreign2 then s.withdraw b (x.attemptCycle + 1)
     else (s.setBstate b 2).setF (R.nodeTable_BSTATE b) 5 4 0)
  else s)

/-- An attempt has failed: BACKOFF for b_i cycles, or SILENT after the third (R337). -/
def State.attemptFailed (s : State) (b : Nat) : State :=
  let i := s.f (R.nodeTable_BSTATE b) 5 4 + 1
  let s := (s.setF (R.nodeTable_BSTATE b) 5 4 i).setB (R.nodeTable_BSTATE b) 9 false
  if i ≥ 3 then ((s.setBstate b 5).setB (R.nodeTable_BSTATE b) 8 true).irqB (P.nodeTable b) 13
  else (s.setBranch b { s.branch b with backoffUntil := s.cycle + 1 + s.f R.chip_SERIAL_LO (4 * i - 1) (4 * i - 4) }).setBstate b 4

/-- WITHDRAWN_SILENCE (R336): no foreign sync in 2 consecutive cycles. -/
def execWithdrawnSilence (t : Time) (b : Fin 8) (s : State) : Host.Outcome State Fault Refusal :=
  let s := s.tick t
  .next (if s.bstate b = 3 && s.cycle ≥ (s.branch b).lastForeign + 3 then s.attemptFailed b else s)

/-- BACKOFF_END (R337): the next attempt begins at the boundary that follows. -/
def execBackoffEnd (t : Time) (b : Fin 8) (s : State) : Host.Outcome State Fault Refusal :=
  let s := s.tick t
  let u := (s.branch b).backoffUntil
  .next (if s.bstate b = 4 && (s.cycle ≥ u || (s.cycle + 1 ≥ u && s.cycleDue)) then (if s.txEnabled then s.beginAttempt b else s.setBstate b 6) else s)

/-! ## SUSPECT and EXCLUDED (R355, R356) -/

/-- NODE_SUSPECT (R355). -/
def execNodeSuspect (t : Time) (b : Fin 8) (h : Fin 24) (s : State) : Host.Outcome State Fault Refusal :=
  let s := s.tick t
  .next (if s.nodeState b h = 4 && (s.hop b h).consec ≥ 3 then (s.setNodeState b h 5).irqB (P.nodeTable b) 10 else s)

/-- NODE_SUSPECT_CLEAR (R355). -/
def execNodeSuspectClear (t : Time) (b : Fin 8) (h : Fin 24) (s : State) : Host.Outcome State Fault Refusal :=
  let s := s.tick t
  .next (if s.nodeState b h = 5 && (s.hop b h).clean ≥ 256 then s.setNodeState b h 4 else s)

/-- NODE_EXCLUDE (R356): eight violations in the latest 256 cycles. -/
def execNodeExclude (t : Time) (b : Fin 8) (h : Fin 24) (s : State) : Host.Outcome State Fault Refusal :=
  let s := s.tick t
  .next (if (s.nodeState b h = 4 || s.nodeState b h = 5) && ones (s.hop b h).hist ≥ 8 then (s.setNodeState b h 6).irqB (P.nodeTable b) 11 else s)

/-- NODE[h].FD as it reads (Table 10.10). -/
def State.nodeFd (s : State) (b h : Nat) : W32 :=
  let x := s.fdCh 0 (nodeCh b h)
  BitVec.ofNat 32 (x.level + b2n x.perm * 256 + (s.hop b h).consec * 1024 + min (ones (s.hop b h).hist) 255 * 2 ^ 16 + min x.events 255 * 2 ^ 24)

/-! ## Counts (R333, R362) -/

def State.craterClrCnt (s : State) : State := s.wr R.crater_MISS_TOT 0

/-- CRATER_CLR_CNT (R333). -/
def execCraterClrCnt (t : Time) (m : Master) (s : State) : Host.Outcome State Fault Refusal :=
  .next (s.gated t m (R.CTRL P.crater) (s.rd (R.CTRL P.crater) ||| 0x100) State.craterClrCnt)

def State.branchClrCnt (s : State) (b : Nat) : State :=
  let s := ((s.wr (R.branch_CNT_ERR b) 0).wr (R.branch_CNT_WIN b) 0).setF (R.branch_DQ_STAT b) 31 16 0
  (List.range 24).foldl (fun s sl => s.wr (R.branch_SLOT_STAT b sl) 0) s

/-- BRANCH_CLR_CNT (R333). -/
def execBranchClrCnt (t : Time) (m : Master) (b : Fin 8) (s : State) : Host.Outcome State Fault Refusal :=
  .next (s.gated t m (R.CTRL (P.branch b)) (s.rd (R.CTRL (P.branch b)) ||| 0x100) fun s => s.branchClrCnt b)

def State.nodeClrCnt (s : State) (b : Nat) : State :=
  (List.range 24).foldl (fun s h => s.setFdCh 0 (nodeCh b h) { s.fdCh 0 (nodeCh b h) with events := 0 }) (s.wr (R.nodeTable_CNT b) 0)

/-- NODE_TABLE_CLR_CNT (R362). -/
def execNodeTableClrCnt (t : Time) (m : Master) (b : Fin 8) (s : State) : Host.Outcome State Fault Refusal :=
  .next (s.gated t m (R.CTRL (P.nodeTable b)) (s.rd (R.CTRL (P.nodeTable b)) ||| 0x100) fun s => s.nodeClrCnt b)

end Sys2Proof.Machine
end

