-- ==== Sys2Proof/Machine/ResetDomains.lean ====
section
/-! DEFINITION. Every domain that is in reset at its reset values (Table 15.1, R503 to R508). -/

namespace Sys2Proof.Machine

/-- Registers of the anchor domain, which only CHIP reach resets (R503). -/
def anchorReg (a : Nat) : Bool := a = R.reset_RST_CAUSE || a = R.fuse_STRAPS

/-- Pad and GPIO registers and the fuse shadows of the chip page, which SYSTEM and CHIP reach reset (R503, R611). -/
def padReg (a : Nat) : Bool :=
  (R.chip_PAD 0 ≤ a && a ≤ R.chip_PAD 63) || a = R.chip_GPIO_OUT || a = R.chip_GPIO_OE || a = R.chip_SERIAL_LO || a = R.chip_SERIAL_HI

/-- The remap table and what Lahar shows on a cell's page: a reset of Lahar resets them too (R143). -/
def laharReg (a : Nat) : Bool := (List.range 8).any fun c => a = R.cell_REMAP c || a = R.cell_CFG c || a = R.cell_COPY_STAT c

/-- Whether the register at an address takes its reset value now. -/
def State.regResets (s : State) (a : Nat) : Bool :=
  if anchorReg a then s.reach = 5
  else if padReg a then s.systemInReset
  else if laharReg a && s.blockInReset 0x0F then true
  else match pageKind (a / 0x1000) with
    | some (k, n) => s.pageInReset k n
    | none => false

/-- Whether page p's commit and lock state is reset (R59, R66). -/
def State.pageResets (s : State) (p : Nat) : Bool :=
  match pageKind p with
  | some (k, n) => s.pageInReset k n
  | none => false

/-- Whether a fault disposition channel's block is in reset (R466). -/
def State.fdResets (s : State) (key : Nat) : Bool :=
  let ch := key % 0x1000
  match key / 0x1000 with
  | 0 => s.blockInReset (ch / 24)
  | 1 => s.blockInReset ch
  | 2 | 3 => s.pairInReset
  | 4 => s.cellInReset (ch / 4)
  | 5 => s.cellInReset ch
  | 6 => s.blockInReset 0x09
  | 7 => s.blockInReset 0x08
  | _ => s.blockInReset (0x0A + ch)

def dropKeys {α : Type} (t : Tab α) (p : Nat → Bool) : Tab α := t.filter fun e => !p e.1

/-- Registers, pages and fault disposition channels. -/
def State.resetPages (s : State) : State :=
  { s with regs := dropKeys s.regs s.regResets, stage := dropKeys s.stage s.regResets, hwSet := dropKeys s.hwSet s.regResets,
           pages := dropKeys s.pages s.pageResets, shadows := dropKeys s.shadows fun k => s.pageResets (k % 2048), fd := dropKeys s.fd s.fdResets }

/-- One cell: its engines and their memories, its TLB and its ready list (Table 15.1, R505). -/
def State.resetCell (s : State) (c : Nat) : State :=
  let lo := engDataAddr (4 * c) 0
  let hi := lo + 0x100000
  { s with engs := dropKeys s.engs fun e => e / 4 = c, mem := Tab.clear s.mem lo hi, ecc := Tab.clear s.ecc lo hi,
           xl := { s.xl with tlb := dropKeys s.xl.tlb (· = c) },
           lahar := { s.lahar with ready := dropKeys s.lahar.ready (· = c), reroute := s.lahar.reroute.filter fun e => e.1 ≠ c },
           perf := { s.perf with ecycKept := dropKeys s.perf.ecycKept (fun e => e / 4 = c), ecycWraps := dropKeys s.perf.ecycWraps (fun e => e / 4 = c),
                                  ecycFrom := dropKeys s.perf.ecycFrom (· = c) } }

/-- The line-position block: a compare output that pulses goes idle with it (R279). -/
def State.resetLp (s : State) : State :=
  let s' := { s with lp := {} }
  (List.range 8).foldl (fun u c => if (Tab.get s.lp.cmps c {}).pulse.isSome then u.emit (.cmpOut c (bit (u.rd (R.cmp_CMPCFG c)) 8)) else u) s'

/-- One block of Table 15.6. -/
def State.resetBlock (s : State) (b : Nat) : State :=
  match b with
  | 0x08 => { s with gey := {} }
  | 0x09 => s.resetLp
  | 0x0A => { s with can := dropKeys s.can (· = 0) }
  | 0x0B => { s with can := dropKeys s.can (· = 1) }
  | 0x0C => { s with eth := dropKeys s.eth (· = 0), mdio := none }
  | 0x0D => { s with eth := dropKeys s.eth (· = 1) }
  | 0x0E => { s with dma := [], xl := {} }
  | 0x0F => { s with lahar := { copies := s.lahar.copies, reroute := s.lahar.reroute } }
  | 0x10 => { s with perf := { ecycFrom := s.perf.ecycFrom, ecycKept := s.perf.ecycKept, ecycWraps := s.perf.ecycWraps } }
  | _ => if b < 8 then { s with br := dropKeys s.br (· = b) } else s

/-- Everything of CORE reach beside pages: every memory and every block but the Luavan and pair region, Sinter, and the endpoint. -/
def State.resetCore (s : State) : State :=
  let s := if s.inv.ppsOut then s.emit (.ppsOut false) else s
  { s with mem := [], ecc := [], br := [], inv := {}, lahar := {}, engs := [], xl := {}, perf := {}, lp := {}, ax := [], gey := {}, dma := [], can := [], eth := [],
           mdio := none, twi := none, masters := [], cycling := false, firstCycle := true, tau := 0, tauDev := 0, target := 0 }

/-- The Luavan and pair region (R508). The levels at the interlock pins are the partner's. -/
def State.resetPair (s : State) : State :=
  { s with pair := { peerClaim := s.pair.peerClaim, peerLowSince := s.pair.peerLowSince, intlkHigh := !s.pair.peerClaim }, lv := {} }

/-- Sinter: both STO outputs fall (R519). -/
def State.resetSinter (s : State) : State :=
  let s := if s.sin.hs then s.emit (.stoOut 0 false) else s
  let s := if s.sin.ls then s.emit (.stoOut 1 false) else s
  { s with sin := {} }

/-- Put every domain in reset at its reset values. A device whose Lahar is in reset leaves LOCKSTEP (R429). -/
def State.resetDomains (s : State) : State :=
  let s := s.resetPages
  let s := (List.range 8).foldl (fun s c => if s.cellInReset c then s.resetCell c else s) s
  let s := (List.range 18).foldl (fun s b => if s.blockInReset b then s.resetBlock b else s) s
  let s := if s.coreInReset then s.resetCore else s
  let s := if s.pairInReset then s.resetPair else if s.blockInReset 0x0F then s.leaveStandby else s
  let s := if s.systemInReset then s.resetSinter else s
  if s.endpointInReset then { s with pcie := {} } else s

/-- The engines of the cells that were in reset begin to count cycles (R585). -/
def State.startEcyc (s : State) : State :=
  { s with perf := { s.perf with ecycFrom := (List.range 8).foldl (fun t c =>
      if (Tab.get t c none).isSome || s.cellInReset c then t else Tab.set t c (some (ecyc s.now)) none) s.perf.ecycFrom } }

/-- Step 4 of the exit sequence (Table 15.4, R517): engines count cycles, and after CORE reach the first cycle boundary is at the next grid point. -/
def State.cellsReady (s : State) : State :=
  let s := s.startEcyc
  if s.rst.exitReach ≥ 3 then ({ s with firstCycle := true }).startCycling else s

/-- The device becomes COPYING at the exit of a RESYNC reset (R448). -/
def State.resyncExit (s : State) : State :=
  if s.rst.resync then { s with pair := { s.pair with sync := 1, round := 0 } } else s

end Sys2Proof.Machine
end

