-- ==== Sys2Proof/Machine/Reset.lean ====
section
/-! DEFINITION. Reset sources, release, the exit sequence, fuses and the watchdog (chapter 15). -/

namespace Sys2Proof.Machine

def State.setRst (s : State) (r : RstSt) : State := { s with rst := r }

/-! ## Asserting and releasing sources -/

/-- The exit sequence in progress waits: the larger reach and the earlier step, where one waits already (R515). -/
def RstSt.hold (r : RstSt) : RstSt :=
  if r.exitStep = 0 then r
  else { r with heldReach := max r.heldReach r.exitReach, heldStep := if r.heldStep = 0 then r.exitStep else min r.heldStep r.exitStep, exitStep := 0 }

/-- What an asserted source does beside resetting domains: it stops a fuse load (R512), the watchdog count at CORE reach and above (R523), the claim
(Table 13.5) and, where it reaches Crater but not Sinter, it acts as DEVICE_STO (R490). NRST_OUT goes low (R516). -/
def State.assertEffects (s : State) (r : Nat) : State :=
  let s := if s.rst.loading then s.setRst { s.rst with loading := false, loadStopped := true } else s
  if r ≥ 3 then
    let s := (s.setRst { s.rst with wdogSince := none, wdogWarned := false }).emit (.nrstOut false)
    let s := if s.pair.claim then s.immediateRelease else s
    let s := if r = 3 then s.deviceSto 15 else s
    s.setRst s.rst.hold
  else s

/-- The reach a source takes when it is asserted; one that is asserted already keeps its own. -/
def State.newReach (s : State) (i : Nat) : Nat :=
  if i = 4 then (if s.rst.fuseOk then (s.rst.targets.headD (0, 0)).1 else 5) else if s.rst.asserted.getLsbD i then s.sourceReach i else s.reachEntry i

/-- Assert source i (R506): record the cause and its reach, act, and put every domain it reaches at its reset values at once. A source at NONE is ignored (R510). A reach that
includes the fuse shadows leaves no table applied (R511). -/
def State.assertSource (s : State) (i : Nat) : State :=
  let r := s.newReach i
  if r = 0 then s else
  let s := s.setRst { s.rst with asserted := setFld s.rst.asserted i i 1, causes := setFld s.rst.causes i i 1,
                                 acts := if i = 4 then s.rst.acts else Tab.set s.rst.acts i r 0, hostReach := if i ≠ 4 then s.rst.hostReach else if s.rst.asserted.getLsbD 4 then max r s.rst.hostReach else r }
  let s := s.assertEffects r
  let s := s.resetDomains
  let s := if r ≥ 4 then s.setRst { s.rst with fuseOk := false, safeBoot := false } else s
  if s.reach = 5 then s else s.hwSetBits R.reset_RST_CAUSE (BitVec.ofNat 32 (2 ^ i))

/-- The first exit step of a reach (Table 15.4). -/
def firstStep (r : Nat) : Nat := if r ≥ 4 then 1 else if r ≥ 2 then 2 else 0

/-- A CHIP release: straps latched, causes shown, the Invar counter running from 0, the PLL locking (R518, Table 15.10, R390). -/
def State.chipRelease (s : State) (straps : BitVec 5) : State :=
  let s := s.wr R.fuse_STRAPS (straps.setWidth 32)
  let s := (s.setF R.reset_RST_CAUSE 8 0 0).hwSetBits R.reset_RST_CAUSE (s.rst.causes.setWidth 32)
  s.setRst { s.rst with pllLock := false, countBase := s.now }

/-- The exit sequence for the domains that a reach of CORE or above held, src released last: from the first step that applies, together with the domains of a
sequence that waits; one at step 1 goes on there (R504, R515). Boot does not run after RESYNC, unless a sequence that waits has not come to it (R524). -/
def RstSt.startAll (r : RstSt) (prev src : Nat) : RstSt :=
  let x := r.hold
  { x with exitStep := if x.heldStep = 1 then 1 else firstStep prev, exitReach := max x.heldReach prev, heldReach := 0, heldStep := 0, resync := src = 7,
           noBoot := src = 7 && !(3 ≤ x.heldReach && x.heldStep ≤ 5), causes := 0 }

/-- The exit sequence of a cell: steps 2 and 4, before a sequence in progress goes on where it stands; one that is at step 1 or 2 takes the cell with it. -/
def RstSt.startCell (r : RstSt) : RstSt :=
  if r.exitStep = 1 || r.exitStep = 2 then r else { r.hold with exitStep := 2, exitReach := 2 }

/-- The exit sequence for a reach of prev; a BLOCK reach runs no step. -/
def RstSt.startExit (r : RstSt) (prev src : Nat) : RstSt :=
  if prev ≥ 3 then r.startAll prev src else if prev = 2 then r.startCell else r

/-- Step n of the sequence begins; at the end (n = 0) one that waits goes on. -/
def RstSt.enterStep (r : RstSt) (n : Nat) : RstSt :=
  if n = 0 && r.heldStep ≠ 0 then { r with exitStep := r.heldStep, exitReach := r.heldReach, heldReach := 0, heldStep := 0 } else { r with exitStep := n }

/-- Start the exit sequence for the domains that a reach of prev held (R504, R514). -/
def State.startExit (s : State) (prev src : Nat) : State :=
  let s := if s.rst.loadStopped then (s.hwSetBits R.reset_RST_CAUSE 0x100000).setRst { s.rst with loadStopped := false, loading := true } else s
  let s := if prev ≥ 4 then s.setRst { s.rst with loading := true, fuseOk := false, safeBoot := false } else s
  s.setRst (s.rst.startExit prev src)

/-- Release source src: where that leaves domains that no source reaches, their exit sequence starts (R504). -/
def State.releaseSource (s : State) (src : Nat) (straps : BitVec 5) : State :=
  let prev := s.reach
  let s := s.setRst { s.rst with asserted := setFld s.rst.asserted src src 0, acts := if src = 4 then s.rst.acts else Tab.set s.rst.acts src 0 0 }
  let new := s.reach
  if new < prev then
    let s := if prev = 5 then s.chipRelease straps else s
    s.startExit prev src
  else s

/-- The class of a bank by its supply in mV (R621). -/
def bankClassOf (mv : Nat) : BankClass :=
  if 1620 ≤ mv && mv ≤ 1980 then .v18 else if 3000 ≤ mv && mv ≤ 3600 then .v33 else if mv < 500 then .unused else .outside

/-- Each bank is classed at a release of POR (R621). -/
def State.classBanks (s : State) (v : BankLevels) : State :=
  s.setRst { s.rst with banks := [v.io1, v.io2, v.io3, v.io4, v.s].zipIdx.foldl (fun t e => Tab.set t e.2 (bankClassOf e.1) .v33) s.rst.banks }

/-! ## The commands -/

/-- A level source: its condition begins and the source is asserted, or ends, and RESET_RELEASE releases the source when its time has passed. -/
def State.levelSource (s : State) (t : Time) (i : Nat) (on : Bool) : State :=
  let s := s.tick t
  let s := s.setRst { s.rst with pins := setFld s.rst.pins i i (b2n on) }
  if on then s.assertSource i else s

def execPor (t : Time) (on : Bool) (s : State) : Host.Outcome State Fault Refusal := .next (s.levelSource t 0 on)
def execNrstIn (t : Time) (on : Bool) (s : State) : Host.Outcome State Fault Refusal := .next (s.levelSource t 1 on)
def execPerst (t : Time) (on : Bool) (s : State) : Host.Outcome State Fault Refusal := .next (s.levelSource t 2 on)
def execHotReset (t : Time) (on : Bool) (s : State) : Host.Outcome State Fault Refusal := .next (s.levelSource t 3 on)
def execTrst (t : Time) (on : Bool) (s : State) : Host.Outcome State Fault Refusal := .next (s.levelSource t 8 on)

/-- RESET_RELEASE (R504, R518): a source whose condition has ended is released; the release of POR classes the I/O banks (R621). Latching CLKMODE 0b00 selects test bypass, whose behaviour is not stated. -/
def execResetRelease (t : Time) (src : Fin 9) (straps : BitVec 5) (s : State) (banks : BankLevels := {}) : Host.Outcome State Fault Refusal :=
  let s := s.tick t
  if s.rst.asserted.getLsbD src && !s.rst.pins.getLsbD src then
    let s' := (if src = 0 then s.classBanks banks else s).releaseSource src straps
    if s.reach = 5 && s'.reach < 5 && straps.toNat / 4 % 4 = 0 then .fault .testBypass else .next s'
  else .next s

/-- Whether a block code is in service (R520). -/
def State.blockInService (s : State) (b : Nat) : Bool :=
  (b < 8 && s.b (R.branch_BRCFG b) 0) || (b = 0x0F && s.b R.lahar_GRAPH_STAT 0)

/-- Whether a cell is in service (R520). -/
def State.cellInService (s : State) (c : Nat) : Bool := !s.cellRetired c && s.b R.lahar_GRAPH_STAT 0

/-- The reason of R520 for which a request of reach r and target g is refused; 0 when it is accepted. -/
def State.rstRefusal (s : State) (r g : Nat) : Nat :=
  if r = 0 || r > s.reachEntry 4 then 1
  else if (r = 1 && g > 0x11) || (r = 2 && g > 7) then 2
  else if (r = 1 && s.blockInService g) || (r = 2 && s.cellInService g) then 3
  else 0

/-- A refused reset request (R520). -/
def State.refuseReset (s : State) (reason : Nat) : State :=
  ((s.setF R.reset_RST_STAT 3 1 reason).hwSetBits R.reset_RST_STAT 1).irqB P.reset 9

/-- What a cell or a block has outstanding elsewhere: far loads and table walks of its engines, elements of its DMA channels. -/
def State.outstanding (s : State) (r g : Nat) : Nat :=
  if r = 2 then ((s.engs.filter fun e => e.1 / 4 = g).flatMap fun e => e.2.servs).foldl (fun n v => n + v.loads.length + v.walks.length) 0
  else if r = 1 && g = 0x0E then s.dma.foldl (fun n e => n + e.2.elems.length) 0
  else 0

/-- A cell or block that is reset alone: what it has outstanding completes with its data discarded, and is counted (R522). -/
def State.dropOutstanding (s : State) (r g : Nat) : State :=
  if s.outstanding r g = 0 then s else s.setF R.reset_RST_STAT 31 16 (min (s.f R.reset_RST_STAT 31 16 + s.outstanding r g) 65535)

def State.rstReq (s : State) (r g : Nat) : State :=
  match s.rstRefusal r g with
  | 0 => ((s.dropOutstanding r g).setRst { s.rst with targets := (r, g) :: if s.rst.asserted.getLsbD 4 then s.rst.targets else [] }).assertSource 4
  | n => s.refuseReset n

/-- RST_REQ (R520). -/
def execRstReq (t : Time) (m : Master) (reach : BitVec 3) (target : BitVec 5) (s : State) : Host.Outcome State Fault Refusal :=
  .next (s.gated t m R.reset_RST_REQ (BitVec.ofNat 32 (reach.toNat + target.toNat * 256)) fun s => s.rstReq reach.toNat target.toNat)

/-- The bits of an RST_HOLD write that are refused: bits newly set for a block in service (R521). -/
def State.holdRefused (s : State) (val : W32) : List Nat :=
  (List.range 18).filter fun b => bit val b && !s.b R.reset_RST_HOLD b && (s.blockInService b || s.reachEntry 4 = 0)

def State.rstHold (s : State) (val : W32) : State :=
  let bad := s.holdRefused val
  let v := bad.foldl (fun v b => setFld v b b 0) (setFld val 31 18 0)
  let s := if bit v 0x0E && !s.blockInReset 0x0E then s.dropOutstanding 1 0x0E else s
  let s' := s.wr R.reset_RST_HOLD v
  let s' := if v &&& ~~~ s.rd R.reset_RST_HOLD ≠ 0 then (s'.hwSetBits R.reset_RST_CAUSE 0x10).resetDomains else s'
  if bad.isEmpty then s' else s'.refuseReset 3

/-- RST_HOLD (R521). -/
def execRstHold (t : Time) (m : Master) (val : W32) (s : State) : Host.Outcome State Fault Refusal :=
  .next (s.gated t m R.reset_RST_HOLD val fun s => s.rstHold val)

/-! ## Fuses (R509 to R513) -/

/-- Whether a fuse copy is good: MAGIC, FORMAT and the CRC over words 0 to 254. -/
def fuseGood (c : List W32) : Bool :=
  c.length = 256 && c.getD 0 0 = 0x00014655 &&
  crc32 ((c.take 255).flatMap fun w => natLe 4 w.toNat) = c.getD 255 0

/-- Apply a good copy to the fuse shadows (R511, Table 15.3). -/
def State.applyFuses (s : State) (c : List W32) : State :=
  let s := s.wr R.chip_SERIAL_LO (c.getD 1 0)
  let s := s.wr R.chip_SERIAL_HI (BitVec.ofNat 32 (fld (c.getD 2 0) 15 0))
  let s := s.wr R.fuse_REACH_TBL (BitVec.ofNat 32 (fld (c.getD 3 0) 26 0))
  let s := s.wr R.fuse_BOOT_OPT (BitVec.ofNat 32 (fld (c.getD 4 0) 3 0))
  s.setF R.fuse_FUSE_STAT 31 16 (fld (c.getD 0 0) 31 16)

def State.fuseLoadDone (s : State) (c0 c1 : List W32) : State :=
  let s := s.setRst { s.rst with loading := false }
  if fuseGood c0 then
    ((s.applyFuses c0).setB R.fuse_FUSE_STAT 0 true).setRst { s.rst with fuseOk := true }
  else
    let s := s.setB R.fuse_FUSE_STAT 2 true
    if fuseGood c1 then
      (((s.applyFuses c1).setB R.fuse_FUSE_STAT 0 true).setB R.fuse_FUSE_STAT 1 true).setRst { s.rst with fuseOk := true }
    else ((s.setB R.fuse_FUSE_STAT 3 true).setB R.fuse_FUSE_STAT 4 true).setRst { s.rst with safeBoot := true }

/-- FUSE_LOAD_DONE (R511, R513): with a good copy FUSE_OK is set and Sinter begins SELFTEST; with none the device enters safe boot. -/
def execFuseLoadDone (t : Time) (c0 c1 : List W32) (s : State) : Host.Outcome State Fault Refusal :=
  let s := s.tick t
  .next (if s.rst.loading then s.fuseLoadDone c0 c1 else s)

/-- PLL_LOCK (R514, step 1). Cascade-recovered clocking needs the link of LV0 (R518). -/
def execPllLock (t : Time) (s : State) : Host.Outcome State Fault Refusal :=
  let s := s.tick t
  .next (if s.rst.exitStep = 1 && (s.f R.fuse_STRAPS 3 2 ≠ 1 || s.b (R.lvPort_LSTAT 0) 0) then s.setRst { s.rst with pllLock := true } else s)

/-! ## The exit sequence (R514 to R517) -/

/-- Whether the step in progress can complete. -/
def State.stepReady (s : State) : Bool :=
  let r := s.rst
  match r.exitStep with
  | 0 => false
  | 1 => (r.fuseOk || r.safeBoot) && (r.exitReach < 5 || r.pllLock)
  | 6 => s.sinterReadyForRelease
  | _ => if r.exitReach ≥ 3 then !s.coreInReset else true

/-- The step after one, for a reach; 0 when the sequence is complete (Table 15.4). -/
def nextStep (r st : Nat) : Nat :=
  match st with
  | 1 => 2
  | 2 => if r ≥ 3 then 3 else 4
  | 3 => 4
  | 4 => if r ≥ 3 then 5 else 0
  | 5 => if r ≥ 4 then 6 else 0
  | _ => 0

/-- A boot state with no error and no record (Table 15.11). -/
def State.setBoot (s : State) (st err : Nat) : State := (s.setF R.fuse_BOOT_STAT 2 0 st).setF R.fuse_BOOT_STAT 7 4 err

/-- The watchdog restarts from its full timeout when boot ends or waits (R523). -/
def State.wdogRestart (s : State) : State :=
  s.setRst { s.rst with wdogSince := if s.b R.reset_WDOG_CFG 0 then some s.now else none, wdogWarned := false }

/-- Boot after step 5 (R524), unless after RESYNC or in safe boot. Flash boot takes its six pads (R614). -/
def State.startBoot (s : State) : State :=
  if s.rst.noBoot || s.rst.safeBoot then s
  else
    let src := if s.b R.fuse_BOOT_OPT 0 then s.f R.fuse_BOOT_OPT 2 1 else s.f R.fuse_STRAPS 1 0
    let s := s.wr R.fuse_BOOT_STAT 0
    match src with
    | 3 =>
      let s := (List.range 6).foldl (fun s i => s.wr (R.chip_PAD (56 + i)) 0x23) s
      (s.setBoot 1 0).setRst { s.rst with image := [], bootOff := 0, bootWait := none }
    | 2 => (s.setBoot 2 0).wdogRestart
    | 1 => (s.setBoot 3 0).wdogRestart
    | _ => (s.setBoot 5 5).wdogRestart

/-- What the completed step does; noCal names the SerDes groups whose calibration fails at step 5 (R607). -/
def State.stepEffect (s : State) (noCal : BitVec 4) : State :=
  match s.rst.exitStep with
  | 3 => s.invarExit
  | 4 => s.cellsReady
  | 5 => (((s.emit (.nrstOut true)).setRst { s.rst with noCal := noCal }).resyncExit).startBoot
  | 6 => s.sinterRelease
  | _ => s

/-- EXIT_STEP_DONE (R514): the step in progress completes and the next begins; at the end LAST_REACH shows the reach. -/
def execExitStepDone (t : Time) (s : State) (noCal : BitVec 4 := 0) : Host.Outcome State Fault Refusal :=
  let s := s.tick t
  .next (if s.stepReady then
    let n := nextStep s.rst.exitReach s.rst.exitStep
    let s := s.stepEffect noCal
    let s := if n = 0 then s.setF R.reset_RST_CAUSE 18 16 s.rst.exitReach else s
    s.setRst (s.rst.enterStep n)
  else s)

/-! ## The host-liveness watchdog (R523) -/

/-- The watchdog's timeout as an amount of time. -/
def State.wdogTimeout (s : State) : Time := s.f R.reset_WDOG_CFG 31 16 * 12000000

/-- Time counted, when the watchdog runs. -/
def State.wdogElapsed (s : State) : Option Time :=
  if s.b R.reset_WDOG_CFG 0 then s.rst.wdogSince.map (s.now - ·) else none

/-- WDOG_WARN: half of the timeout has passed. -/
def execWdogWarn (t : Time) (s : State) : Host.Outcome State Fault Refusal :=
  let s := s.tick t
  .next (match s.wdogElapsed with
  | some d => if 2 * d ≥ s.wdogTimeout && !s.rst.wdogWarned then (s.setRst { s.rst with wdogWarned := true }).irqB P.reset 8 else s
  | none => s)

/-- WDOG_EXPIRE: all of the timeout has passed, and the WDOG source is asserted. -/
def execWdogExpire (t : Time) (s : State) : Host.Outcome State Fault Refusal :=
  let s := s.tick t
  .next (match s.wdogElapsed with
  | some d => if d ≥ s.wdogTimeout then (s.setRst { s.rst with wdogSince := none }).assertSource 5 else s
  | none => s)

/-- A write of 1 to WDOG_WARN: the bit clears, and for the host or the cascade the count restarts (R523). -/
def State.wdogKick (s : State) (m : Master) : State :=
  let s := (s.w1c (R.IRQ_STAT P.reset) 0x100).pageIrq P.reset
  if (m = .host || m = .cascade) && s.rst.wdogSince.isSome then s.setRst { s.rst with wdogSince := some s.now, wdogWarned := false } else s

/-- WDOG_KICK (R523). -/
def execWdogKick (t : Time) (m : Master) (s : State) : Host.Outcome State Fault Refusal :=
  .next (s.gated t m (R.IRQ_STAT P.reset) 0x100 fun s => s.wdogKick m)

end Sys2Proof.Machine
end

