-- ==== Sys2Proof/Machine/PairCmds.lean ====
section
/-! DEFINITION. The pair's commands: claims, releases, lockstep exchanges, echo and resynchronisation (sections 13.1 to 13.7). -/

namespace Sys2Proof.Machine

/-! ## The interlock (R424 to R428) -/

/-- INTLK low with no claim on either side is a fault (R428). -/
def State.intlkReview (s : State) : State :=
  let f := !s.pair.claim && !s.pair.peerClaim && !s.pair.intlkHigh
  let s := s.irqIf (f && !s.pair.intlkFault) P.pair 15
  s.setPair { s.pair with intlkFault := f }

/-- With both claims high, side B drops its claim and raises none for 1 µs (R427). -/
def State.dualClaim (s : State) : State :=
  if s.pair.claim && s.pair.peerClaim && s.sideB then
    s.setPair { s.pair with claim := false, intlkHigh := false, claimBlock := s.now + nsT 1000, claimReq := false, releaseDue := none }
  else s

def State.peerClaimChange (s : State) (high : Bool) : State :=
  let low := if high then none else if s.pair.peerClaim then some s.now else s.pair.peerLowSince
  let s := s.setPair { s.pair with peerClaim := high, peerLowSince := low }
  ((s.dualClaim).txReview).intlkReview

/-- PEER_CLAIM_CHANGE (R424, R427). -/
def execPeerClaimChange (t : Time) (high : Bool) (s : State) : Host.Outcome State Fault Refusal := .next ((s.tick t).peerClaimChange high)

/-- INTLK_CHANGE (R424, R428). A device that holds a claim pulls the line low itself. -/
def execIntlkChange (t : Time) (high : Bool) (s : State) : Host.Outcome State Fault Refusal :=
  let s := s.tick t
  .next (((s.setPair { s.pair with intlkHigh := high && !s.pair.claim }).txReview).intlkReview)

/-- What every claim waits for: PEER_CLAIM low for 1.0 µs without a break, INTLK high, no fault of the interlock, and no block after a dual claim. -/
def State.claimOpen (s : State) : Bool :=
  let low : Bool := match s.pair.peerLowSince with
    | some x => x + nsT 1000 ≤ s.now
    | none => false
  !s.pair.claim && !s.pair.peerClaim && low && s.pair.intlkHigh && !s.pair.intlkFault && s.pair.claimBlock ≤ s.now

/-- Takeover is the standby's occasion (R442). -/
def State.takesOver (s : State) : Bool := s.pairMode && s.inLockstep && s.b R.pair_PCFG 2

/-- The occasions of R425 and R426. -/
def State.claimDue (s : State) : Bool :=
  s.claimOpen &&
  (if s.pairMode then
    s.pair.claimReq || s.takesOver ||
    (s.b R.pair_PCFG 1 && !s.sideB && (List.range 8).all fun b => s.bstate b ≠ 2 && s.bstate b ≠ 7)
  else (s.sin.state = 3 || s.sin.state = 4) && !s.coreInReset)

/-- A branch the partner ran enters RUN on the new active, driving the far end, after idle for 8 µs (R442, R443). -/
def State.takeBranch (s : State) (b : Nat) : State :=
  if s.brEn b && s.pair.ran.getLsbD b && (s.bstate b = 6 || s.bstate b = 7) then
    let x := s.branch b
    ((s.setBranch b { x with far := !x.far, idleUntil := s.now + nsT 8000, echoOn := false, echoEnd := false }).setBstate b 2).emit (.idle b)
  else s

/-- Takeover (R442). -/
def State.takeover (s : State) : State :=
  let s := (s.setPair { s.pair with sync := 0, partnerSync := false }).loseMessages
  (((List.range 8).foldl State.takeBranch s).irqB P.pair 9).cmpPins

/-- Each enabled branch starts under R334; SILENT and RETIRED do not end with a claim (R337, R359). -/
def State.startBranches (s : State) : State :=
  (List.range 8).foldl (fun s b => if s.brEn b && s.bstate b ≠ 5 && s.bstate b ≠ 8 then s.branchStart b else s) s

def State.raiseClaim (s : State) : State :=
  let take := s.takesOver
  let s := s.setPair { s.pair with claim := true, intlkHigh := false, claimReq := false }
  (List.range 2).foldl (fun s n => s.canPick n) (if take then s.takeover else s.startBranches)

/-- CLAIM_RAISE (R425, R426, R442). -/
def execClaimRaise (t : Time) (s : State) : Host.Outcome State Fault Refusal :=
  let s := s.tick t
  .next (if s.claimDue then s.raiseClaim else s)

/-- PCMD.CLAIM (R425): asks for a claim, which CLAIM_RAISE raises when the interlock allows it; without effect outside pair mode (R426). -/
def State.pcmdClaim (s : State) : State := if s.pairMode then s.setPair { s.pair with claimReq := true } else s

def execPcmdClaim (t : Time) (m : Master) (s : State) : Host.Outcome State Fault Refusal :=
  .next (s.gated t m R.pair_PCMD 1 fun s => s.pcmdClaim)

/-- PCMD.RELEASE (R441). -/
def State.pcmdRelease (s : State) : State := if s.pairMode then s.orderlyRelease else s

def execPcmdRelease (t : Time) (m : Master) (s : State) : Host.Outcome State Fault Refusal :=
  .next (s.gated t m R.pair_PCMD 2 fun s => s.pcmdRelease)

/-- E_last: the latest end of a summation frame among the branches in RUN. -/
def State.eLast (s : State) : Nat := (List.range 8).foldl (fun m b => if s.bstate b = 2 then max m (s.eSum b) else m) 0

/-- The release point that an event at x waits for has been reached (R441). -/
def State.releaseReached (s : State) (x : Time) : Bool :=
  let p := s.tau + nsT s.eLast
  p ≤ s.now && x < p

/-- RELEASE_POINT (R441). -/
def execReleasePoint (t : Time) (s : State) : Host.Outcome State Fault Refusal :=
  let s := s.tick t
  .next (match s.pair.releaseDue with
  | some x => if s.pair.claim && s.releaseReached x then s.dropClaim else s
  | none => s)

/-! ## Lockstep (R429 to R436) -/

/-- A per-cycle exchange missed its deadline (R421, R429). -/
def State.missedExchange (s : State) : State := (s.setPair { s.pair with cycleFault := true }).leaveStandby

/-- CYC_POS, CYC_ANG and EDGE_T of a channel, as the active latched them. -/
def State.qeAgree (s : State) (q : Nat) (x : QeState) : State :=
  ((s.wr (R.qe_CYC_POS q) x.cycPos).wr (R.qe_CYC_ANG q) x.cycAng).wr48 (R.qe_EDGE_T_LO q) x.edgeT

/-- The active's accepted frame on the standby: the slot buffer and the slot token (Table 13.4). -/
def State.forwarded (s : State) (x : Nat × Nat × List W48) : State := s.slotData x.1 x.2.1 x.2.2

/-- Frames that came before the record of their cycle post their tokens after it (R431). -/
def State.earlyFrames (s : State) : State :=
  s.pair.early.foldl State.forwarded (s.setPair { s.pair with early := [] })

/-- A hop's node as the active has it; one that begins to join does so in this cycle. -/
def State.nodeAgree (s : State) (b h : Nat) (x : W32 × W32 × W32) : State :=
  let s := if fld x.1 3 0 = 3 && s.nodeState b h ≠ 3 then s.setHop b h { s.hop b h with joinFrom := s.cycle } else s
  ((s.wr (R.nodeTable_NODE_STATE b h) x.1).wr (R.nodeTable_NODE_DELAY b h) x.2.1).wr (R.nodeTable_NODE_DELAY_FAR b h) x.2.2

/-- A held command as the active has it. -/
def State.heldAgree (s : State) (b sl : Nat) (l : List W48) : State :=
  s.setSlot b sl { s.slot b sl with held := l.zipIdx.foldl (fun c x => Tab.set c x.2 (some (x.1, 0)) none) [] }

/-- The standby's Crater takes the active's node states, delays, slot schedule and held commands (R434). -/
def State.branchAgree (s : State) (b : Nat) (x : BranchAgree) : State :=
  let s := s.setPair { s.pair with ran := if x.runs then s.pair.ran ||| BitVec.ofNat 8 (2 ^ b) else s.pair.ran &&& ~~~ BitVec.ofNat 8 (2 ^ b) }
  if !s.brEn b then s
  else
    let s := x.nodes.zipIdx.foldl (fun s y => if y.2 < 24 then s.nodeAgree b y.2 y.1 else s) (s.wr (R.nodeTable_DTOTAL b) x.dtotal)
    x.held.zipIdx.foldl (fun s y => if y.2 < 24 then s.heldAgree b y.2 y.1 else s) s

/-- Present the agreed inputs of a cycle (Table 13.4). -/
def State.agreement (s : State) (r : AgreementRec) : State :=
  let s := s.setPair { s.pair with agreed := some s.cycle, tcyc := r.tcyc }
  let s := r.lps.zipIdx.foldl (fun s (x : LpState × Nat) => if x.2 < 4 then s.lpAgree x.2 x.1 else s) s
  let s := r.qes.zipIdx.foldl (fun s (x : QeState × Nat) => if x.2 < 8 then s.qeAgree x.2 x.1 else s) s
  let s := s.keepMasters
  let s := r.branches.zipIdx.foldl (fun s (x : BranchAgree × Nat) => if x.2 < 8 then s.branchAgree x.2 x.1 else s) s
  if s.switchDue then s.setLahar { s.lahar with bells := r.tokens }
  else
    let s := r.ticks.zipIdx.foldl (fun s (x : Nat × Nat) => if x.2 < 4 then (s.dlRoll x.2 x.1).dlAdvance x.2 x.1 else s) s
    let s := s.cycleTicks
    let s := r.tokens.foldl (fun s x => s.post x.kind.toNat x.src.toNat x.word s.stamp) s
    s.postCycle

/-- AGREEMENT_RECORD (R431): on the standby; one that comes after τ + 4 µs has missed its deadline. -/
def execAgreementRecord (t : Time) (r : AgreementRec) (s : State) : Host.Outcome State Fault Refusal :=
  let s := s.tick t
  .next (if s.isStandby && r.cycle.toNat = s.cycle && s.pair.agreed ≠ some s.cycle then
    if s.phase ≤ nsT 4000 then (s.agreement r).earlyFrames else s.missedExchange
  else s)

/-- AGREEMENT_TIMEOUT (R431): no record by τ + 4 µs. -/
def execAgreementTimeout (t : Time) (s : State) : Host.Outcome State Fault Refusal :=
  let s := s.tick t
  .next (if s.isStandby && s.pair.agreed ≠ some s.cycle && s.phase ≥ nsT 4000 then s.missedExchange else s)

/-- MIRROR_TIMEOUT (R432): writes stamped for this boundary have not arrived by τ + 4 µs. -/
def execMirrorTimeout (t : Time) (s : State) : Host.Outcome State Fault Refusal :=
  let s := s.tick t
  .next (if s.isStandby && s.phase ≥ nsT 4000 then s.missedExchange else s)

/-- FORWARDED_SLOT_DATA (R430, R491): the active's accepted frame, on the standby; before the record of the cycle it waits (R431). -/
def execForwardedSlotData (t : Time) (b : Fin 8) (sl : Fin 24) (words : List W48) (sub : BitVec 128) (s : State) : Host.Outcome State Fault Refusal :=
  let s := s.tick t
  .next (if s.isStandby then
    let s := s.uplinkSub b sl sub
    if s.pair.agreed = some s.cycle then s.forwarded (b, sl, words) else s.setPair { s.pair with early := s.pair.early ++ [((b : Nat), (sl : Nat), words)] }
  else s)

/-! ## Comparison (R438 to R440, R493) -/

/-- Whether the partner's field went out STALE. -/
def State.peerStale (s : State) (b sl : Nat) : Bool := (s.pair.peerMask.getD b 0).getLsbD sl

/-- The fields fresh on both devices, with their records. -/
def State.bothFresh (s : State) : List (Nat × Nat × List W48) := s.pair.frame.filter fun x => !s.peerStale x.1 x.2.1

/-- The digest (R438). -/
def State.ownDigest (s : State) : W64 :=
  crc64 (s.bothFresh.flatMap fun x => BitVec.ofNat 8 x.1 :: BitVec.ofNat 8 x.2.1 :: x.2.2.flatMap fun w => natLe 6 w.toNat)

/-- With both masks at hand the device sends its digest, its field count and its sub-frame CRC (R438, R493). -/
def State.sendDigest (s : State) : State :=
  if s.inLockstep then s.emit (.digest s.ownDigest s.bothFresh.length s.pair.safetyCrc) else s

/-- STALE_MASK_EXCHANGE (R438): the partner's masks; the standby's Sinter counts the active's STALE fields from them (R473). -/
def execStaleMaskExchange (t : Time) (masks : List (BitVec 24)) (s : State) : Host.Outcome State Fault Refusal :=
  let s := s.tick t
  .next (if s.pairMode then
    let s := s.setPair { s.pair with peerMask := masks, maskIn := s.phase ≤ nsT 2000 }
    (if s.pair.claim then s else s.countMask masks).sendDigest
  else s)

/-- One field's divergence in the frame (R439); the answer says whether it reached DIV_LIMIT. -/
def State.diverge (s : State) (b sl : Nat) : State × Bool :=
  let k := b * 24 + sl
  if (s.pair.ownMask.getD b 0).getLsbD sl = s.peerStale b sl then (s.setPair { s.pair with divRun := Tab.set s.pair.divRun k 0 0 }, false)
  else
    let n := Tab.get s.pair.divRun k 0 + 1
    ((s.setPair { s.pair with divRun := Tab.set s.pair.divRun k n 0 }).inc R.pair_DIV_CNT 31 0, decide (n ≥ s.f R.pair_PCFG 23 16))

/-- The divergence of every field of every enabled branch. -/
def State.divergeAll (s : State) : State × Bool :=
  (List.range 192).foldl (fun x k =>
    let b := k / 24
    let sl := k % 24
    if x.1.brEn b && sl < x.1.nSlots b then
      let y := x.1.diverge b sl
      (y.1, x.2 || y.2)
    else x) (s, false)

/-- A mismatch (R440). -/
def State.mismatch (s : State) : State :=
  let s := ((s.inc R.pair_CMPSTAT 31 16).irqB P.pair 8).reportFailure 2
  if s.pair.claim then s.setPair { s.pair with partnerSync := false } else s.leaveStandby

/-- The comparison of a frame (R438 to R440, R493). -/
def State.compare (s : State) (digest : W64) (count : Nat) (safety : W32) : State :=
  let bad : Bool := digest ≠ s.ownDigest || count ≠ s.bothFresh.length || safety ≠ s.pair.safetyCrc
  let x := s.divergeAll
  let s := x.1.inc R.pair_CMPSTAT 15 0
  if bad || x.2 then s.mismatch else s

/-- DIGEST_EXCHANGE (R438 to R440, R493). -/
def execDigestExchange (t : Time) (digest : W64) (count : Nat) (safety : W32) (s : State) : Host.Outcome State Fault Refusal :=
  let s := s.tick t
  .next (if s.pairMode && s.inLockstep then (s.setPair { s.pair with digestIn := s.phase ≤ nsT 4000 }).compare digest count safety else s)

/-! ## PX payload (R420 to R422) -/

/-- B: PX payload bytes per cycle. -/
def State.pxB (s : State) : Nat := 625 * s.tNs / 1000

/-- The fixed load of the enabled branches. -/
def State.pxF (s : State) : Nat :=
  (List.range 8).foldl (fun n b => if s.brEn b then
    (List.range (s.nSlots b)).foldl (fun n sl => n + 6 + 6 * (1 + 6 * s.slotNax b sl + s.slotNacq b sl)) n else n) 256

/-- E_n: what echo on a branch adds (R445). -/
def State.echoLoad (s : State) (b : Nat) : Nat := (s.tNs - s.nitNs b) / 4

/-- A PX fault of the cycle that ends (R421): noted in it, or an exchange of R438 that did not come by its deadline. -/
def State.pxBad (s : State) : Bool := s.pair.cycleFault || !s.calOk 1 || (s.withPartner && !(s.pair.maskIn && s.pair.digestIn))

/-- The PX link is retired: it stays down, and the device that holds no claim leaves LOCKSTEP (R421). -/
def State.retirePx (s : State) : State :=
  let s := s.setPair { s.pair with pxUp := false, partner := none, partnerSync := s.pair.partnerSync && !s.pair.claim }
  if s.pair.claim then s else s.leaveStandby

/-- The PX link over the cycle that ends: a fault or a good event; permanently faulty it is retired (R421). -/
def State.pxCycle (s : State) : State :=
  let bad := s.pxBad
  let s := s.setPair { s.pair with cycleFault := false, maskIn := false, digestIn := false, early := [] }
  if bad then
    let r := s.fdFault 3 0
    if r.2 then r.1.retirePx.failure 14 else r.1
  else s.fdGood 3 0

/-- A standby whose record of the ended cycle never came has missed its deadline (R431). -/
def State.recordCycle (s : State) : State :=
  if s.isStandby && !s.firstCycle && s.pair.agreed ≠ some s.cycle then s.missedExchange else s

/-- An enabled branch in STANDBY whose transmitters the interlock enables begins its first start attempt at the boundary (R334, Table 10.1). -/
def State.standbyStart (s : State) : State :=
  (List.range 8).foldl (fun s b => if s.brEn b && s.bstate b = 6 && s.txEnabled then s.branchStart b else s) s

/-- The link comes up, and the partner reports itself, or goes down (R419); a link that is retired or not calibrated stays down (R421, R607). -/
def State.pxLink (s : State) (up : Bool) (info : PartnerInfo) : State :=
  let on := up && !(s.fdCh 3 0).perm && s.calOk 1
  let s := s.setPair { s.pair with pxUp := on, partner := (if on then some info else none), partnerSync := s.pair.partnerSync && on && info.lockstep }
  if on then s.wr48 R.pair_PEER_SERIAL_LO info.serial else s

/-- PX_LINK_CHANGE (R419, R421): a change of the link, or with retry a transfer that was retransmitted on it. -/
def execPxLinkChange (t : Time) (up : Bool) (info : PartnerInfo) (s : State) (retry : Bool := false) : Host.Outcome State Fault Refusal :=
  let s := s.tick t
  .next (if s.pairInReset then s
  else if retry then s.setPair { s.pair with cycleFault := true }
  else s.pxLink up info)

/-! ## Echo (R445 to R447) -/

def State.paired (s : State) (b : Nat) : Bool := s.b (R.branch_BRCFG b) 2

/-- The standby may enter ECHO on a branch. -/
def State.echoMay (s : State) (b : Nat) : Bool := s.isStandby && s.brEn b && s.paired b && s.bstate b = 6 && !(s.branch b).echoOn && s.calOk 0

/-- Enter ECHO unless PX has no room for it: idle for 8 µs, and the active's stream from the cycle start after. -/
def State.echoStart (s : State) (b : Nat) : State :=
  let l := (List.range 8).foldl (fun n c => if c = b || s.bstate c = 7 || (s.branch c).echoOn then n + s.echoLoad c else n) s.pxF
  if 100 * l > 95 * s.pxB then s.irqB P.pair 14
  else (s.setBranch b { s.branch b with echoOn := true, idleUntil := s.now + nsT 8000 }).emit (.idle b)

def State.pcmdEchoOn (s : State) (b : Nat) : State := if s.echoMay b then s.echoStart b else s

/-- ECHO_ON (R445). -/
def execEchoOn (t : Time) (m : Master) (b : Fin 8) (s : State) : Host.Outcome State Fault Refusal :=
  .next (s.gated t m R.pair_PCMD (BitVec.ofNat 32 (8 + b * 256)) fun s => s.pcmdEchoOn b)

/-- Echo ends at the next cycle start (R447). -/
def State.pcmdEchoOff (s : State) (b : Nat) : State :=
  s.setBranch b { s.branch b with echoOn := false, echoEnd := (s.branch b).echoEnd || s.bstate b = 7 }

/-- ECHO_OFF (R447). -/
def execEchoOff (t : Time) (m : Master) (b : Fin 8) (s : State) : Host.Outcome State Fault Refusal :=
  .next (s.gated t m R.pair_PCMD (BitVec.ofNat 32 (16 + b * 256)) fun s => s.pcmdEchoOff b)

/-- ECHO_AUTO_START (R445): the receiver has missed the active's sync in 2 consecutive cycles. -/
def execEchoAutoStart (t : Time) (b : Fin 8) (s : State) : Host.Outcome State Fault Refusal :=
  let s := s.tick t
  .next (if s.echoMay b && s.b R.pair_PCFG (8 + b) && s.pair.ran.getLsbD b && Tab.get s.pair.missedSync b 0 ≥ 2 then s.echoStart b else s)

/-- ECHO_FORWARDED_FRAME (R446): the active takes a forwarded frame for a slot it has not accepted itself. -/
def execEchoForwardedFrame (t : Time) (b : Fin 8) (sl : Fin 24) (words : List W48) (sub : BitVec 128) (s : State) : Host.Outcome State Fault Refusal :=
  let s := s.tick t
  .next (if s.pairMode && s.pair.claim && s.driven b && !(s.slot b sl).accepted && !s.shutOut b sl && s.phase < nsT (s.tNs - s.nitNs b) then
    let s := s.setSlot b sl { s.slot b sl with accepted := true }
    let s := s.setBranch b { s.branch b with anyAccepted := true }
    let s := match s.hopOf b sl with
      | some h => s.nodeGood b h sl
      | none => s
    let s := (s.uplinkSub b sl sub).slotRequests b sl (words.getD 0 0)
    (s.slotData b sl words).emit (.pxSlot b sl words sub)
  else s)

/-- A branch's echo at a cycle start: the syncs of the ended cycle, the end of echo and its beginning (R445, R447). -/
def State.echoCycle (s : State) (b : Nat) : State :=
  let st := s.bstate b
  if st ≠ 6 && st ≠ 7 then s
  else
    let x := s.branch b
    let seen := if x.sawSync then Tab.get s.pair.seenSync b 0 + 1 else 0
    let miss := if x.sawSync then 0 else Tab.get s.pair.missedSync b 0 + 1
    let s := s.setPair { s.pair with seenSync := Tab.set s.pair.seenSync b seen 0, missedSync := Tab.set s.pair.missedSync b miss 0 }
    let ends := st = 7 && (x.echoEnd || seen ≥ 2)
    let begins := st = 6 && x.echoOn && x.idleUntil ≤ s.now && s.isStandby
    let s := s.setBranch b { x with sawSync := false, echoEnd := false, echoOn := x.echoOn && !begins }
    if ends then s.setBstate b 6 else if begins then s.setBstate b 7 else s

/-! ## Resynchronisation (R448, R449) -/

/-- PCMD.RESYNC (R448). -/
def State.pcmdResync (s : State) : State :=
  if s.pairMode && !s.pair.claim && s.pair.sync = 0 && s.pair.pxUp && s.pair.peerClaim then s.assertSource 7 else s

def execPcmdResync (t : Time) (m : Master) (s : State) : Host.Outcome State Fault Refusal :=
  .next (s.gated t m R.pair_PCMD 4 fun s => s.pcmdResync)

/-- Every operation that is fired is re-fired with its tokens (R449, R165). -/
def State.refireAll (s : State) : State := s.firedOps.foldl (fun s k => s.refireOp k) s

/-- The registers a resynchronisation copies: what software sets on the mirrored pages, the remap table, the servo's rate and the node table but for the branch's
own state (R448). -/
def copiedReg (a : Nat) : Bool :=
  a % 4 = 0 && match pageKind (a / 0x1000), rowOf a with
  | some (k, n), some r =>
    !notMirrored k && (r.acc = .st || r.acc = .rw || (k = .nodeTable && a ≠ R.nodeTable_BSTATE n) || (k = .cell && a = R.cell_REMAP n) ||
      (k = .invarCore && (a = R.invarCore_FREQ || a = R.invarCore_RATE)))
  | _, _ => false

/-- The addressed data of a round (R448, R449). -/
def State.takeRound (s : State) (c : ResyncCopy) : State :=
  let s := c.mem.foldl (fun s (e : BitVec 13 × List Byte) =>
    if e.1.toNat < 0x1000 then s
    else (List.range 512).foldl (fun s i => s.setEcc (4096 * e.1.toNat + 8 * i) .good) (s.setBytes (4096 * e.1.toNat) (e.2.take 4096))) s
  let s := c.regs.foldl (fun s (e : BitVec 25 × W32) => if copiedReg e.1.toNat then s.wr e.1.toNat e.2 else s) s
  c.stage.foldl (fun s (e : BitVec 25 × W32) => if copiedReg e.1.toNat && (rowOf e.1.toNat).any (·.acc = .st) then s.wrStage e.1.toNat e.2 else s) s

/-- Crater's state of a branch as the active has it: its slots and hops. What this device sends and receives itself stays its own. -/
def State.branchCopy (s : State) (b : Nat) (x : BranchSt) : State := s.setBranch b { s.branch b with slots := x.slots, hops := x.hops }

/-- Sinter's state, axis functions and connections, unless it is LATCHED (R492). -/
def State.takeSinter (s : State) (x : ResyncLast) : State :=
  if s.sin.state = 2 then s else (s.setSin { s.sin with axes := x.axes, conns := x.conns }).sinState x.sinState

/-- What else the final round carries (R448, R449). Operations wait to be fired again. -/
def State.takeLast (s : State) (x : ResyncLast) : State :=
  let s := x.pages.foldl (fun s (e : BitVec 11 × PageSt) => match pageKind e.1.toNat with
    | some (k, _) => if notMirrored k then s else s.setPage e.1.toNat e.2
    | none => s) s
  let s := (List.range 8).foldl (fun s b => s.branchCopy b (Tab.get x.br b {})) s
  let s := s.setInv { s.inv with good := x.inv.good, mpd := x.inv.mpd, syncTs := x.inv.syncTs }
  ({ s with lahar := { x.lahar with ready := [] }, lp := x.lp, ax := x.ax, gey := x.gey, masters := x.masters } : State).takeSinter x

/-- What the active sends in the final round besides addressed data. -/
def State.ownLast (s : State) : ResyncLast :=
  { pages := s.pages.map fun e => (BitVec.ofNat 11 e.1, e.2), lahar := s.lahar, br := s.br, inv := s.inv, sinState := s.sin.state, axes := s.sin.axes, conns := s.sin.conns,
    lp := s.lp, ax := s.ax, gey := s.gey, masters := s.masters }

/-- The copy of a round on the device that is COPYING. -/
def State.takeCopy (s : State) (copy : Option ResyncCopy) : State :=
  match copy with
  | none => s
  | some c =>
    let s := s.takeRound c
    match c.last with
    | some x => if s.pair.final then s.takeLast x else s
    | none => s

/-- A round has ended, in which kib KiB were copied, leaving some granules of 4 KiB dirty. -/
def State.roundEnd (s : State) (dirty kib : Nat) : State :=
  let n := s.pair.round + 1
  let s := (s.setF R.pair_RESYNC_STAT 31 16 (min dirty 65535)).setF R.pair_RESYNC_STAT 15 0 (min (s.f R.pair_RESYNC_STAT 15 0 + kib) 65535)
  if s.pair.final then
    let s := s.setPair { s.pair with sync := 2, partnerSync := true, round := n, final := false, agreed := some s.cycle, maskIn := true, digestIn := true }
    if s.pair.claim then (s.setPair { s.pair with round := 0 }).emit (.resync s.ownLast) else (s.irqB P.pair 12).refireAll.cmpPins
  else if dirty ≤ 16 then s.setPair { s.pair with round := n, final := true }
  else if n ≥ 32 then
    let s := s.setPair { s.pair with sync := if s.pair.claim then s.pair.sync else 0, round := if s.pair.claim then 0 else n }
    if s.pair.claim then s else s.irqB P.pair 13
  else s.setPair { s.pair with round := n }

/-- RESYNC_ROUND_END (R449): on the device that is COPYING, which takes what the round carried, and on the active. -/
def execResyncRoundEnd (t : Time) (dirty : Nat) (s : State) (kib : Nat := 0) (copy : Option ResyncCopy := none) :
    Host.Outcome State Fault Refusal :=
  let s := s.tick t
  .next (if s.pairMode && (s.pair.sync = 1 || (s.pair.claim && !s.pair.partnerSync)) then (if s.pair.claim then s else s.takeCopy copy).roundEnd dirty kib else s)

end Sys2Proof.Machine
end

