-- ==== Sys2Proof/Machine/Luavan.lean ====
section
/-! DEFINITION. The Luavan cascade: ports, root election and enumeration, and reads that wait at the root (section 13.8). -/

namespace Sys2Proof.Machine

def State.setLv (s : State) (x : LvSt) : State := { s with lv := x }

/-! ## Ports (R451, R457) -/

/-- Port p is up and not retired. -/
def State.lvUp (s : State) (p : Nat) : Bool := s.b (R.lvPort_LSTAT p) 0 && !s.b (R.STATUS (P.lvPort p)) 3

/-- Whether the rest of the cascade can be reached: through LV1 in a chain, through either port in a ring (R451). -/
def State.lvReach (s : State) : Bool := s.lvUp 1 || (s.b R.lvCommon_LVCFG 1 && s.lvUp 0)

/-- PRESENT and the number of devices present; a change is a change of topology (R453). -/
def State.setPresent (s : State) (ids : List Nat) : State :=
  let w (i : Nat) : W32 := BitVec.ofNat 32 ((List.range 32).foldl (fun n b => if ids.contains (32 * i + b) then n + 2 ^ b else n) 0)
  let changed : Bool := w 0 ≠ s.rd (R.lvCommon_PRESENT 0) || w 1 ≠ s.rd (R.lvCommon_PRESENT 1)
  let s := (s.wr (R.lvCommon_PRESENT 0) (w 0)).wr (R.lvCommon_PRESENT 1) (w 1)
  let s := s.setF R.lvCommon_LVSTAT 22 16 ((List.range 64).filter ids.contains).length
  s.irqIf changed P.lvCommon 9

/-- Where no port is left, only the device itself stays present (R457). -/
def State.lvLost (s : State) : State :=
  if s.b R.lvCommon_LVSTAT 6 && !s.lvReach then s.setPresent [s.f R.lvCommon_LVSTAT 5 0] else s

/-- A line error of port p counts, and a retransmission makes the present cycle a fault of the port (R457). -/
def State.lvError (s : State) (p : Nat) (e : LinkErr) : State :=
  match e with
  | .crc => s.inc (R.lvPort_LCNT p) 15 0
  | .retry => (s.setLv { s.lv with fault := p :: s.lv.fault }).inc (R.lvPort_LCNT p) 31 16

/-- LUAVAN_PORT_LOCK_CHANGE (R457): a change of the lock, a loss of which makes the present cycle a fault of the port, or with err a line error. -/
def execLuavanPortLockChange (t : Time) (p : Fin 2) (up : Bool) (neighbour : Option (BitVec 6)) (s : State) (err : Option LinkErr := none) :
    Host.Outcome State Fault Refusal :=
  let s := s.tick t
  .next (if s.pairInReset then s
  else match err with
  | some e => s.lvError p e
  | none =>
    let up := up && s.calOk 1
    let id : Nat := match neighbour with
      | some n => if up then 2 ^ 22 + n.toNat * 2 ^ 16 else 0
      | none => 0
    let s := s.wr (R.lvPort_LSTAT p) (BitVec.ofNat 32 (b2n up + id))
    let s := if up then s else s.setLv { s.lv with fault := (p : Nat) :: s.lv.fault }
    s.lvLost)

/-- The ports at a cycle start: a fault or a good event (R457, R466); a port that is retired is a failure of class 14 (Table 14.5). An enabled port that failed its calibration has a fault in each cycle (R607). -/
def State.lvCycle (s : State) : State :=
  let f := s.lv.fault
  let s := s.setLv { s.lv with fault := [] }
  (List.range 2).foldl (fun s p =>
    if f.contains p || (s.b R.lvCommon_LVCFG 0 && !s.calOk 1) then
      let r := s.fdFault 2 p
      if r.2 then r.1.lvLost.failure 14 else r.1
    else s.fdGood 2 p) s

/-! ## Root election and enumeration (R452, R453) -/

/-- The lowest ID from 0 that p allows. -/
def lowId (p : Nat → Bool) : Option Nat := (List.range 64).find? p

/-- IDs in use: bound to a serial number, or kept for the other device of a pair. -/
def LvSt.taken (x : LvSt) (i : Nat) : Bool := x.ids.any (·.2 = i) || x.reserved.contains i

/-- The ID of a device reached by the walk: its own from before, the one kept for it, or a new one; a new pair takes two (R453). -/
def LvSt.assign (x : LvSt) (d : FoundDevice) : LvSt :=
  if x.ids.any (·.1 = d.serial) then x
  else if d.paired then
    let side := if d.sideA then 0 else 1
    match x.reserved.find? (· % 2 = side) with
    | some i => { x with ids := x.ids ++ [(d.serial, i)], reserved := x.reserved.erase i }
    | none => match lowId fun i => i % 2 = 0 && !x.taken i && !x.taken (i + 1) with
      | some e => { x with ids := x.ids ++ [(d.serial, e + side)], reserved := x.reserved ++ [e + 1 - side] }
      | none => x
  else match lowId fun i => !x.taken i with
    | some i => { x with ids := x.ids ++ [(d.serial, i)] }
    | none => x

/-- The devices of the walk, the root itself first (R453). -/
def State.walkOrder (s : State) (found : List FoundDevice) : List FoundDevice :=
  let own := s.rd48 R.chip_SERIAL_LO
  if s.b R.lvCommon_LVSTAT 7 && !found.any (·.serial = own) then { serial := own, paired := s.pairMode, sideA := !s.sideB } :: found else found

/-- The walk assigns IDs and shows what is present. -/
def State.enumerate (s : State) (found : List FoundDevice) : State :=
  let l := s.walkOrder found
  let lv := l.foldl LvSt.assign s.lv
  let idOf (n : W48) : Option Nat := (lv.ids.find? fun x => x.1 = n).map (·.2)
  let s := s.setLv lv
  let s := if s.b R.lvCommon_LVSTAT 7 && l.any (fun d => (idOf d.serial).isNone) then s.setB R.lvCommon_LVSTAT 9 true else s
  let s := match idOf (s.rd48 R.chip_SERIAL_LO) with
    | some i => if l.any (·.serial = s.rd48 R.chip_SERIAL_LO) then (s.setF R.lvCommon_LVSTAT 5 0 i).setB R.lvCommon_LVSTAT 6 true else s
    | none => s
  ((s.setPresent (l.filterMap fun d => idOf d.serial)).irqB P.lvCommon 8).vecAll

/-- The lowest serial number of the candidates. -/
def lowSerial (l : List W48) : Option W48 :=
  l.foldl (fun (m : Option W48) x => match m with
    | some y => some (if x.toNat < y.toNat then x else y)
    | none => some x) none

/-- The election among the candidates, this device one of them while its PCI Express link is up. -/
def State.elect (s : State) (cands : List RootCand) : State :=
  let own := s.rd48 R.chip_SERIAL_LO
  let l := cands.map (·.serial)
  match lowSerial (if s.pcie.up then own :: l else l) with
  | none => s.setB R.lvCommon_LVSTAT 7 false
  | some r =>
    let s := s.wr48 R.lvCommon_ROOT_SERIAL_LO r
    let won : Bool := s.pcie.up && r = own
    let lost := s.pcie.up && !won
    let s := ((s.setB R.lvCommon_LVSTAT 7 won).setB R.lvCommon_LVSTAT 8 lost)
    s.irqIf lost P.lvCommon 10

/-- ROOT_ELECTION (R452, R453). A device whose cascade is not enabled takes no part. -/
def execRootElection (t : Time) (cands : List RootCand) (found : List FoundDevice) (s : State) : Host.Outcome State Fault Refusal :=
  let s := s.tick t
  .next (if s.pairInReset || !s.b R.lvCommon_LVCFG 0 then s else (s.elect cands).enumerate found)

/-- PCIE_LINK_CHANGE (R452, R530): with the link down the device is no candidate, and no root until an election. -/
def execPcieLinkChange (t : Time) (up : Bool) (speed width : BitVec 3) (s : State) : Host.Outcome State Fault Refusal :=
  let s := s.tick t
  .next (if s.endpointInReset then s
  else
    let up := up && s.calOk 2
    let s := s.setPcie { s.pcie with up := up, speed := if up then speed else 0, width := if up then width else 0 }
    if up then s else (s.setB R.lvCommon_LVSTAT 7 false).setB R.lvCommon_LVSTAT 8 false)

/-! ## Cascade reads at the root (R454) -/

/-- A cascade access that ends with Unsupported Request status for the host. -/
def State.cascadeUr (s : State) (slot off : Nat) : State :=
  (s.emit (.unsupported .host (slot * 2 ^ 25 + off))).inc R.pcie_PCIE_ERR 7 0

/-- Where the parts of a request of len bytes at off begin and how long they are: one of more than 64 bytes is cut at 64-byte boundaries (R454). -/
def cascParts (off len : Nat) : List (Nat × Nat) :=
  if len ≤ 64 then [(off, len)] else ((List.range 5).map fun i =>
    let a := if i = 0 then off else (off / 64 + i) * 64
    let e := min (off + len) ((off / 64 + i + 1) * 64)
    (a, e - a)).filter fun x => x.2 > 0

def State.dropRead (s : State) (tag : Nat) : State := s.setLv { s.lv with reads := s.lv.reads.filter (·.tag ≠ tag) }

/-- A part of a read has returned; the read completes with the last. -/
def State.readPart (s : State) (x : CascRead) (part : Nat) (data : List Byte) : State :=
  let parts := Tab.ins x.parts part data
  let n := (cascParts x.off x.len).length
  if parts.length ≥ n then
    (s.dropRead x.tag).emit (.readBytes .host (x.slot * 2 ^ 25 + x.off) (parts.flatMap (·.2)))
  else s.setLv { s.lv with reads := s.lv.reads.map fun y => if y.tag = x.tag then { y with parts := parts } else y }

/-- CASCADE_READ_COMPLETION (R454): a part after its read's timeout is discarded. -/
def execCascadeReadCompletion (t : Time) (tag part : Nat) (ok : Bool) (data : List Byte) (s : State) : Host.Outcome State Fault Refusal :=
  let s := s.tick t
  .next (match s.lv.reads.find? (·.tag = tag) with
  | none => s
  | some x => if ok then (if part < (cascParts x.off x.len).length then s.readPart x part data else s) else (s.dropRead tag).cascadeUr x.slot x.off)

/-- CASCADE_READ_TIMEOUT (R454): 2 µs. -/
def execCascadeReadTimeout (t : Time) (tag : Nat) (s : State) : Host.Outcome State Fault Refusal :=
  let s := s.tick t
  .next (match s.lv.reads.find? (·.tag = tag) with
  | none => s
  | some x =>
    if x.since + nsT 2000 ≤ s.now then
      (((s.dropRead tag).inc R.lvCommon_LVERR 15 0).recordFail .cascade x.off false .unmapped).cascadeUr x.slot x.off |>.irqB P.lvCommon 11
    else s)

end Sys2Proof.Machine
end

