-- ==== Sys2Proof/Machine/SinterCmds.lean ====
section
/-! DEFINITION. The commands of the safety island (chapter 14). -/

namespace Sys2Proof.Machine

/-- An event inside Sinter, which nothing but a SYSTEM or CHIP reset stops. -/
def State.sinEvent (s : State) (t : Time) (f : State → State) : State :=
  let s := s.tick t
  if s.systemInReset then s else f s

/-! ## Deadlines and node timeouts -/

/-- NODE_SAFETY_TIMEOUT (R472). -/
def execNodeSafetyTimeout (t : Time) (b : Fin 8) (sl : Fin 24) (s : State) : Host.Outcome State Fault Refusal :=
  .next (s.sinEvent t fun s =>
    if s.nodeTimeout b sl && !s.b (R.sinNode_NSSTAT b sl) 16 then
      let c := s.f (R.sinNode_NSCFG b sl) 30 28
      let s := s.setConn b sl { s.conn b sl with tmoDev := s.devResponse c }
      ((s.setB (R.sinNode_NSSTAT b sl) 16 true).irqB (P.sinNode b) 10).nodeFailure 5 c b sl
    else s)

/-- CMD_MISS (R473): MISS_RUN has reached MISS_LIMIT. -/
def execCmdMiss (t : Time) (b : Fin 8) (sl : Fin 24) (s : State) : Host.Outcome State Fault Refusal :=
  .next (s.sinEvent t fun s =>
    if s.missLevel b sl && !(s.conn b sl).missReported then
      let c := s.f (R.sinNode_NSCFG b sl) 26 24
      ((s.setConn b sl { s.conn b sl with missReported := true, missDev := s.devResponse c }).irqB (P.sinNode b) 11).nodeFailure 1 c b sl
    else s)

/-- The EFD of the summation frame has not left by T - NIT (R474). -/
def State.efdLate (s : State) (b : Nat) : Bool :=
  let br := s.branch b
  br.efdDue && !(br.efdAt.any (· ≤ s.now)) && s.now ≥ s.tau + s.cycleT - nsT (s.nitNs b)

/-- No sync has left within 1.02 × T of the previous one (R474). -/
def State.syncLate (s : State) (b : Nat) : Bool := (s.branch b).syncDue && (s.now - (s.branch b).lastSync) * 100 > 102 * s.cycleT

/-- Whether branch b misses a cycle deadline at this instant that is not counted yet (R474). -/
def State.cycleLate (s : State) (b : Nat) : Bool := s.txEnabled && (s.bstate b = 1 || s.bstate b = 2) && (s.efdLate b || s.syncLate b)

/-- The branch once the miss is counted: each counts once. -/
def State.lateTaken (s : State) (b : Nat) : BranchSt :=
  if s.efdLate b then { s.branch b with efdDue := false } else { s.branch b with syncDue := false }

/-- CYCLE_MISS (R474). -/
def execCycleMiss (t : Time) (b : Fin 8) (s : State) : Host.Outcome State Fault Refusal :=
  .next (s.sinEvent t fun s => if s.cycleLate b then ((s.setBranch b (s.lateTaken b)).inc R.sinCore_CYC_MISS 31 0).failure 0 else s)

/-! ## Axis functions -/

/-- AXCMD.STOP (R476). -/
def execAxcmdStop (t : Time) (m : Master) (a : Fin 128) (s : State) : Host.Outcome State Fault Refusal :=
  .next (s.gated t m (R.sinAxis_AXCMD (a / 32) (a % 32)) 1 fun s => if s.underSinter a then s.stopOwn a else s)

/-- The demands of the pairs an axis follows clear at its ACK once the inputs are released (R485). -/
def State.clearPairs (s : State) (a : Nat) : State :=
  s.setSin { s.sin with pairs := s.sin.pairs.zipIdx.map fun (x, p) =>
    if (trigSelects (s.f (sfcfg a) 3 2) p || trigSelects (s.f (sfcfg a) 5 4) p) && s.pairReleasable p then { x with demand := false, agreed := false } else x }

/-- An ACK of an axis (R480, R481): without a level demand, and in a cycle without a new demand (R479), every event demand ends. -/
def State.axisAck (s : State) (a : Nat) : State :=
  let x := s.sax a
  if s.levelDemand a || x.demandCycle = some s.cycle then s
  else (s.setSax a { x with event := false, sto := false, stopReq := false, ss1t := none, ss1r := none, speed := false }).clearPairs a

/-- AXCMD.ACK (R480). -/
def execAxcmdAck (t : Time) (m : Master) (a : Fin 128) (s : State) : Host.Outcome State Fault Refusal :=
  .next (s.gated t m (R.sinAxis_AXCMD (a / 32) (a % 32)) 2 fun s => if s.underSinter a then s.axisAck a else s)

/-- SS1T_EXPIRE (R476): SS1T cycles after the demand STO is set. -/
def execSs1tExpire (t : Time) (a : Fin 128) (s : State) : Host.Outcome State Fault Refusal :=
  .next (s.sinEvent t fun s =>
    match (s.sax a).ss1t with
    | some c => if s.cycle - c ≥ s.f (R.sinAxis_SS1T (a / 32) (a % 32)) 15 0 then s.axisSto a else s
    | none => s)

/-- SS1R_TMAX (R477). -/
def execSs1rTmax (t : Time) (a : Fin 128) (s : State) : Host.Outcome State Fault Refusal :=
  .next (s.sinEvent t fun s =>
    match (s.sax a).ss1r with
    | some (c, _) => if s.cycle - c ≥ s.f (R.sinAxis_SS1R_LIM (a / 32) (a % 32)) 15 0 then s.axisSto a else s
    | none => s)

/-! ## Outputs -/

/-- An OUTPUT failure. -/
def State.outputFault (s : State) : State := (s.setSin { s.sin with outFault := true }).latchedFailure 9

/-- Whether a feedback level is explained by its output and the allowances of R483. -/
def State.fbOk (s : State) (out fb : Bool) (sw : Time) : Bool :=
  out = fb ||
  (if out then s.now - sw ≤ nsT (10000 * s.f R.sinCore_SCFG 23 16) else s.now - sw ≤ nsT (10000 * s.f R.sinCore_SCFG 15 8))

/-- STO_FEEDBACK_SAMPLE (R483). -/
def execStoFeedbackSample (t : Time) (hs ls : Bool) (s : State) : Host.Outcome State Fault Refusal :=
  .next (s.sinEvent t fun s =>
    let s := s.setSin { s.sin with hsFb := hs, lsFb := ls }
    if s.fbOk s.sin.hs hs s.sin.hsAt && s.fbOk s.sin.ls ls s.sin.lsAt then s else s.outputFault)

/-- OFF_PULSE_TEST_END (R484): after 300 µs the tested output returns high and the test is judged. -/
def execOffPulseTestEnd (t : Time) (passed : Bool) (s : State) : Host.Outcome State Fault Refusal :=
  .next (s.sinEvent t fun s =>
    match s.sin.test with
    | none => s
    | some w =>
      if s.now < s.sin.testAt + nsT 300000 then s
      else
        let s := (s.setSin { s.sin with test := none, testNext := 1 - w, testEnd := s.now }).driveOutputs
        if passed then s.inc R.sinCore_OUTSTAT 31 16 else s.outputFault)

/-- The off-pulse test that a cycle boundary starts (R484). -/
def State.offPulseTest (s : State) : State :=
  let ph := s.cycle * s.cycleT % nsT 20000000
  if s.sin.state = 4 && s.b R.sinCore_SCFG 1 && s.sin.test.isNone && ph = (if s.sideB then nsT 10000000 else 0) then
    (s.setSin { s.sin with test := some s.sin.testNext, testAt := s.now }).driveOutputs
  else s

/-! ## Safety inputs (R485) -/

/-- One input after a sample: a level is accepted after FILT + 1 equal samples. -/
def sampleInput (x : SinInput) (v : Bool) (filt : Nat) : SinInput :=
  let run := if v = x.last then x.run + 1 else 1
  { last := v, run := run, level := if run ≥ filt + 1 then v else x.level }

/-- Whether accepted level v of input i of a pair is its released level. -/
def releasedLevel (anti : Bool) (i : Nat) (v : Bool) : Bool := if i = 1 && anti then !v else v

/-- A pair after its inputs were sampled: demand, discrepancy timing, and the end of a recorded discrepancy. -/
def State.pairAfter (s : State) (p : Nat) (x : SinPair) : SinPair :=
  let c := R.sinCore_SINCFG
  let anti := s.b c (16 * p + 1)
  let r0 := releasedLevel anti 0 ((s.sin.inputs.getD (2 * p) {}).level)
  let r1 := releasedLevel anti 1 ((s.sin.inputs.getD (2 * p + 1) {}).level)
  if !s.b c (16 * p) then { x with active := false, since := none }
  else
    let shown := x.shown || (!r0 && !r1)
    let disc := x.disc && !(shown && r0 && r1)
    { x with active := !(r0 && r1) || disc, demand := x.demand || !(r0 && r1) || disc, at' := if x.demand then x.at' else s.now,
             since := if r0 = r1 then none else some (x.since.getD s.now), disc := disc, shown := x.disc && shown }

/-- The axes a demand of pair p stops. -/
def State.pairStops (s : State) (p : Nat) : State :=
  (s.allAxes.filter fun a => trigSelects (s.f (sfcfg a) 3 2) p).foldl State.stopOwn s

/-- A demand that has newly arisen: DEMAND is set, the partner is told (R491), and outside pair mode its axes stop at once. -/
def State.newDemand (s : State) (p : Nat) : State :=
  let s := s.irqB P.sinCore 8
  if s.pairMode then s else s.pairStops p

/-- SIN_SAMPLE (R485): levels of SIN0 to SIN3 in bits 0 to 3. -/
def execSinSample (t : Time) (levels : BitVec 4) (s : State) : Host.Outcome State Fault Refusal :=
  .next (s.sinEvent t fun s =>
    let inputs := s.sin.inputs.zipIdx.map fun (x, i) => sampleInput x (levels.getLsbD i) (s.f R.sinCore_SINCFG (16 * (i / 2) + 7) (16 * (i / 2) + 4))
    let s := s.setSin { s.sin with inputs := inputs }
    let old := s.sin.pairs
    let s := s.setSin { s.sin with pairs := old.zipIdx.map fun (x, p) => s.pairAfter p x }
    let s := (List.range 2).foldl (fun s p =>
      if (s.sin.pairs.getD p {}).demand && !(old.getD p {}).demand then s.newDemand p else s) s
    if s.pairMode && s.sin.pairs ≠ old then s.emit (.pxSafety ((s.sin.pairs.getD 0 {}).demand) ((s.sin.pairs.getD 1 {}).demand) s.sin.state) else s)

/-- SIN_DISCREPANCY (R485): the inputs of a pair disagree for longer than DISC. The demand is held. -/
def execSinDiscrepancy (t : Time) (p : Fin 2) (s : State) : Host.Outcome State Fault Refusal :=
  .next (s.sinEvent t fun s =>
    let x := s.sin.pairs.getD p {}
    match x.since with
    | some c =>
      if !x.disc && s.now - c > nsT (2000000 * s.f R.sinCore_SINCFG (16 * p + 15) (16 * p + 8)) then
        let s := s.setSin { s.sin with pairs := s.sin.pairs.set p { x with disc := true, shown := false, active := true, demand := true, at' := if x.demand then x.at' else s.now } }
        (s.countDet 10 1).irqB P.sinCore 11
      else s
    | none => s)

/-- At each cycle start in pair mode the OR of both devices' demands decided at least 1 µs before is agreed, and the axes it newly stops enter their function
(R488, R491). -/
def State.agreeDemands (s : State) : State :=
  if !s.pairMode then s
  else
    (List.range 2).foldl (fun s p =>
      let x := s.sin.pairs.getD p {}
      let d := (x.demand && x.at' + nsT 1000 ≤ s.now) || (x.partner && x.partnerAt + nsT 1000 ≤ s.now)
      let s' := s.setSin { s.sin with pairs := s.sin.pairs.set p { x with agreed := x.agreed || d } }
      if d && !x.agreed then s'.pairStops p else s') s

/-- PARTNER_SAFETY_DEMAND (R491). -/
def execPartnerSafetyDemand (t : Time) (d : PartnerSafety) (s : State) : Host.Outcome State Fault Refusal :=
  .next (s.sinEvent t fun s =>
    if !s.pairMode then s
    else
      let pairs := s.sin.pairs.zipIdx.map fun (x, p) => { x with partner := (if p = 0 then d.dem0 else d.dem1), partnerAt := if p = 0 then d.at0 else d.at1 }
      s.setSin { s.sin with pairs := pairs, partnerState := d.state })

/-! ## Failures of the device -/

/-- A CLOCK failure (R486, R506): latched, and the SINTER source is asserted. -/
def State.clockFailure (s : State) : State := ((s.setB R.sinCore_CLKX 16 true).latchedFailure 6).assertSource 6

/-- CHANNEL_DISAGREE (R463). Which channel reads healthy afterwards is not stated, and is free (notes/assumptions/7.md). -/
def execChannelDisagree (t : Time) (s : State) : Host.Outcome State Fault Refusal :=
  .next (s.sinEvent t fun s =>
    ((s.setSin { s.sin with chA := Config.freeBit s.freeCtr, chB := Config.freeBit (s.freeCtr + 1) }).useFree.useFree).latchedFailure 8)

/-- CLOCK_CROSS_CHECK (R486): the RC cycles of a 100 µs window. -/
def execClockCrossCheck (t : Time) (rc : Nat) (s : State) : Host.Outcome State Fault Refusal :=
  .next (s.sinEvent t fun s =>
    let s := s.setF R.sinCore_CLKX 12 0 (min rc 8191)
    if rc < 4704 || rc > 4896 then s.clockFailure else s)

/-- CLOCK_WINDOW_TIMEOUT (R486). -/
def execClockWindowTimeout (t : Time) (s : State) : Host.Outcome State Fault Refusal :=
  .next (s.sinEvent t State.clockFailure)

/-- A SUPPLY failure of a rail: VDD_CORE, VDD_SRAM, VDD_SAFE, VDDA_SD, VDDH_SD or VDDIO. -/
def State.supplyFailure (s : State) (rail : Nat) : State := (s.setB R.sinCore_SUPPLY rail true).latchedFailure 7

/-- The monitor is armed, and the rail is no supply of an unused bank (R620, R621). -/
def State.monitored (s : State) (rail bank : Nat) : Bool := s.sin.armed && !(rail = 5 && s.bankClass bank = .unused)

/-- SUPPLY_EXCURSION (R620): of VDDIO the operand says which bank's. -/
def execSupplyExcursion (t : Time) (rail : Fin 6) (s : State) (bank : Fin 5 := 4) : Host.Outcome State Fault Refusal :=
  .next (s.sinEvent t fun s => if s.monitored rail bank then s.supplyFailure rail else s)

/-- A bank is out of window, or VDDIO_S unused (R621). -/
def State.banksBad (s : State) : Bool := (List.range 5).any fun n => s.bankClass n = .outside || (n = 4 && s.bankClass n = .unused)

/-- Sinter enters HOLD, where the supply monitor is armed (R620, R621). -/
def State.enterHold (s : State) : State :=
  let s := (s.sinState 1).setSin { (s.sinState 1).sin with armed := true }
  if s.banksBad then s.supplyFailure 5 else s

/-- SELFTEST_END (Table 14.7): HOLD, or LATCHED. -/
def execSelftestEnd (t : Time) (passed : Bool) (s : State) : Host.Outcome State Fault Refusal :=
  .next (s.sinEvent t fun s =>
    if s.sin.state = 0 && (s.rst.fuseOk || s.rst.safeBoot) then (if passed then s.enterHold else s.latchedFailure 8) else s)

/-- SINTER_SELF_TEST (R486). -/
def execSinterSelfTest (t : Time) (passed : Bool) (s : State) : Host.Outcome State Fault Refusal :=
  .next (s.sinEvent t fun s => if passed then s else s.latchedFailure 8)

/-! ## Host commands -/

/-- SCMD.ACK (Table 14.7): SAFE becomes RUN when no device-level cause is in force and PARAM_PEND is 0. -/
def State.scmdAck (s : State) : State :=
  if s.sin.state = 3 && !s.deviceCause && !s.sin.paramPend then s.sinState 4 else s

def execScmdAck (t : Time) (m : Master) (s : State) : Host.Outcome State Fault Refusal :=
  .next (s.gated t m R.sinCore_SCMD 1 State.scmdAck)

/-- SCMD.DSTO (class HOST). -/
def execScmdDsto (t : Time) (m : Master) (s : State) : Host.Outcome State Fault Refusal :=
  .next (s.gated t m R.sinCore_SCMD 2 fun s => s.failure 15)

/-- The addresses of the ST registers of page p, ascending. -/
def stRegs (p : Nat) : List Nat :=
  match pageKind p with
  | none => []
  | some (k, _) => (List.range 0x3F0).filterMap fun i =>
      let o := 0x40 + 4 * i
      match findRow k o with
      | some r => if r.acc = .st then some (p * 0x1000 + o) else none
      | none => none

/-- PARAM_CRC (R494). -/
def State.paramCrc (s : State) : W32 :=
  crc32c (([0x30, 0x31, 0x32, 0x33, 0x34, 0x35] ++ (List.range 8).map (0x38 + ·)).flatMap fun p =>
    (stRegs p).flatMap fun a => natLe 4 (s.rd a).toNat)

/-- PARAM_ACK (R494). -/
def State.paramAck (s : State) (val : W32) : State :=
  if s.sin.paramPend && val = s.paramCrc then s.setSin { s.sin with paramPend := false } else s

def execParamAck (t : Time) (m : Master) (val : W32) (s : State) : Host.Outcome State Fault Refusal :=
  .next (s.gated t m R.sinCore_PARAM_ACK val fun s => s.paramAck val)

end Sys2Proof.Machine
end

