-- ==== Sys2Proof/Machine/CommitCheck.lean ====
section
/-! DEFINITION. The checks of a commit, page by page (Tables 2.5, 7.11, 8.9, 9.13, 10.11, 11.8, 12.8, 13.10, 14.11, 17.7, R104, R105, R216, R331, R529,
R602). Each takes the present state s and the view v of what will be active: the page's own latched values, and those of the pages checked with it (R57). -/

namespace Sys2Proof.Machine

/-- A check that failed: the address of the offending register, and the reason. -/
abbrev Chk := Nat × Nat

/-- One check. -/
def chk (bad : Bool) (a r : Nat) : List Chk := if bad then [(a, r)] else []

/-- Reasons of Table 2.5. -/
def rRange : Nat := 2
def rAgree : Nat := 3
def rCapacity : Nat := 4
def rFit : Nat := 5
def rState : Nat := 6
def rDepend : Nat := 8
def rRetired : Nat := 0xA

/-- Whether field [hi:lo] of a register changes. -/
def changes (s v : State) (a hi lo : Nat) : Bool := s.f a hi lo ≠ v.f a hi lo

/-- Whether a register changes. -/
def changed (s v : State) (a : Nat) : Bool := s.rd a ≠ v.rd a

/-- STATE for each of some registers that changes. -/
def frozen (s v : State) (l : List Nat) : List Chk := l.flatMap fun a => chk (changed s v a) a rState

/-- A number outside a range. -/
def outside (x lo hi : Nat) : Bool := x < lo || x > hi

/-- A block of cell memory within its cell's home region in the active graph (R171). -/
def State.inHome (s : State) (c off n : Nat) : Bool := s.graph.isSome && off + n ≤ fld (s.cellCfg c) 3 0 * 0x10000

/-- The size of device shared memory. -/
def sharedSize : Nat := 0x800000

/-- Two address ranges that overlap, given as start and length. -/
def overlaps (x y : Nat × Nat) : Bool := x.1 < y.1 + y.2 && y.1 < x.1 + x.2

/-! ## Cells, axes and line position -/

/-- R104, R105. -/
def chkCell (s v : State) (c : Nat) : List Chk :=
  let a := R.cell_LMAP c
  let loaded := (s.graphOf 0).isSome || (s.graphOf 1).isSome
  chk (v.f a 6 0 > 63 || outside (v.f a 14 8) 1 62 || outside (v.f a 22 16) 1 62) a rRange ++
  chk (noFrame0 (v.rd a)) a rAgree ++
  chk (loaded && changed s v a) a rState ++
  chk (v.f (R.cell_CTL_INIT c) 15 2 ≠ 0) (R.cell_CTL_INIT c) rRange ++
  chk (loaded && changed s v (R.cell_CTL_INIT c)) (R.cell_CTL_INIT c) rState ++
  chk (v.f (R.cell_SPILL_BASE c) 10 0 ≠ 0) (R.cell_SPILL_BASE c) rRange ++
  chk (loaded && changed s v (R.cell_SPILL_BASE c)) (R.cell_SPILL_BASE c) rState

/-- The number of axes of the node in a slot: of its cached record, or of the slot's configuration (R216). -/
def State.nodeNax (s : State) (b sl : Nat) : Nat :=
  match s.nameplate b sl with
  | some np => s.le (np + 0x1C) 1
  | none => s.slotNax b sl

/-- Another bound axis page names the same node and axis. -/
def State.axisTwin (s : State) (a : Nat) : Bool :=
  (List.range 128).any fun o => o ≠ a && s.axBound o && s.f (R.axis_CFG o) 17 8 = s.f (R.axis_CFG a) 17 8

/-- R216. -/
def chkAxis (s v : State) (a : Nat) : List Chk :=
  let cfg := R.axis_CFG a
  let blk := R.axis_BLOCK a
  let on := v.axBound a
  let b := v.axisBranch a
  let sl := v.axisSlot a
  let busy := s.b (R.CTRL (P.axis a)) 8 || s.f (R.axis_STATE a) 2 0 ≠ 0
  chk (v.f cfg 1 0 = 3 || sl > 23) cfg rRange ++
  chk (on && ((v.expOf b sl).isNone || v.axisRecord a ≥ v.nodeNax b sl || v.axisTwin a)) cfg rDepend ++
  chk (busy && changed s v cfg) cfg rState ++
  chk (s.setDrain a && changed s v (R.axis_COEF a)) (R.axis_COEF a) 0x10 ++
  chk (v.f blk 8 0 ≠ 0) blk rRange ++
  chk (on && !v.inHome (v.f blk 26 24) (v.f blk 19 0) 512) blk rDepend ++
  chk (busy && changed s v blk) blk rState

/-- Table 7.11. -/
def chkProfile (s v : State) (a : Nat) : List Chk :=
  let pm := R.axis_PMODE a
  let gc := R.axis_GEAR_CFG a
  let pb := R.axis_PBLOCK a
  let rl := R.axis_RING_LEN a
  let n := v.f rl 10 0
  let kind := v.f gc 9 8
  let idx := v.f gc 6 0
  let ringBusy := s.f (R.axis_RING_STAT a) 15 0 ≠ s.f (R.axis_RING_STAT a) 31 16 || (s.axSt a).res ≠ s.f (R.axis_RING_STAT a) 15 0 ||
    s.b (R.axis_PSTAT a) 5
  chk (v.f pm 2 0 > 4 || (v.b pm 8 && v.f pm 31 16 = 0)) pm rRange ++
  chk (v.f pm 2 0 = 1 && n = 0) pm rAgree ++
  chk (v.rd (R.axis_GEAR_DEN a) = 0) (R.axis_GEAR_DEN a) rAgree ++
  chk ((kind = 0 && idx > 3) || (kind = 1 && idx > 7)) gc rRange ++
  chk (kind ≥ 2 && idx = a) gc rAgree ++
  chk (v.b (R.axis_GEAR_BLEND a) 31) (R.axis_GEAR_BLEND a) rRange ++
  chk (v.b (R.axis_ENG_BLEND a) 31) (R.axis_ENG_BLEND a) rRange ++
  chk (v.f pb 8 0 ≠ 0) pb rRange ++
  chk (v.axBound a && !v.inHome (v.f (R.axis_BLOCK a) 26 24) (v.f pb 19 0) (512 + 32 * n)) pb rDepend ++
  chk ((s.b (R.CTRL (P.axis a)) 8 || s.f (R.axis_STATE a) 2 0 ≠ 0) && changed s v pb) pb rState ++
  chk ((1 ≤ n && n ≤ 63) || n > 1024) rl rRange ++
  chk (ringBusy && changed s v rl) rl rState

/-- More broadcasting sources than the cascade carries (R456). Those of other devices reach this one by no command: beside other devices, whether the count
is passed is free. -/
def State.castFull (s : State) (more : Nat) : Bool := more > 0 && s.f R.lvCommon_LVSTAT 22 16 > 1 && Config.freeBit s.freeCtr

/-- Sources of this device that broadcast. -/
def State.casts (s : State) : Nat := ((List.range 4).filter fun l => s.b (R.lpSrc_LPCFG l) 24).length

def chkLpSrc (s v : State) (l : Nat) : List Chk :=
  let a := R.lpSrc_LPCFG l
  let kind := v.f a 2 0
  let src := v.f a 14 8
  chk (kind > 4 || (kind = 1 && src > 7) || (kind = 3 && src > 63)) a rRange ++
  chk (kind = 2 && (v.rd48 (R.lpSrc_VM_ACC_LO l)).toInt ≤ 0) a rAgree ++
  chk (v.b a 24 && !s.b a 24 && s.castFull (v.casts - s.casts)) a rCapacity ++
  chk ((kind = 1 && s.b (R.STATUS (P.qe (src % 8))) 3) || (kind = 4 && !v.axBound src)) a rDepend ++
  chk (v.f (R.lpSrc_STOP_T l) 15 0 = 0) (R.lpSrc_STOP_T l) rRange

def chkCmp (s v : State) (c : Nat) : List Chk :=
  let a := R.cmp_CMPCFG c
  let lp := v.b a 1
  chk ((v.f a 21 16 ≠ 0 && !lp) || (lp && v.f a 4 2 > 3)) a rRange ++
  chk ((v.b a 5 && lp) || (v.b a 6 && !v.b a 5)) a rAgree ++
  chk ((s.cmp c).list.length ≠ 0 && (changes s v a 4 1 || changes s v a 5 5)) a rState ++
  chk (v.f (R.cmp_PW c) 19 0 = 0) (R.cmp_PW c) rRange

def chkAe (v : State) (n i : Nat) : List Chk :=
  let a := R.ae_AECFG n i
  chk (v.f a 4 3 = 3) a rRange ++ chk (v.f a 31 8 ≠ 0 && v.f a 4 3 = 0) a rAgree

def chkQe (s v : State) (q : Nat) : List Chk :=
  let a := R.qe_MOD_M1 q
  let held := (List.range 8).any fun c =>
    v.b (R.cmp_CMPCFG c) 0 && !v.b (R.cmp_CMPCFG c) 1 && v.b (R.cmp_CMPCFG c) 5 && v.f (R.cmp_CMPCFG c) 4 2 = q && (s.cmp c).list.length ≠ 0
  chk (v.rd a = 0) a rRange ++ chk (changed s v a && held) a rDepend

/-! ## Crater -/

/-- R331, R455. The root's CYCLE reaches another device by no command: whether it differs is free. -/
def chkCrater (s v : State) : List Chk :=
  let on (b : Nat) : Bool := s.brEn b && v.brEn b
  let cyc := changes s v R.crater_CYCLE 2 0
  chk (v.f R.crater_CYCLE 2 0 > 4) R.crater_CYCLE rRange ++
  chk (cyc && v.pairMode && v.tNs ≥ 31250 && (List.range 8).any (fun b => v.brEn b && v.paired b && v.eSum b + 10200 > v.tNs)) R.crater_CYCLE rFit ++
  chk (cyc && (List.range 8).any on) R.crater_CYCLE rState ++
  chk (cyc && s.b R.lvCommon_LVSTAT 6 && !s.b R.lvCommon_LVSTAT 7 && Config.freeBit s.freeCtr) R.crater_CYCLE rDepend ++
  chk ((List.range 8).any fun b => on b && s.branchCell b ≠ v.branchCell b) R.crater_ROUTE rState ++
  chk ((List.range 8).any fun b => s.cellRetired (v.branchCell b)) R.crater_ROUTE rDepend

/-- S_s + L. -/
def State.slotDone (s : State) (b sl : Nat) : Nat := s.slotNs b sl + 4 * s.slotLen b

/-- Slot s of Table 9.13, its REL and its SLOT conditions. -/
def chkSlot (v : State) (b sl : Nat) : List Chk :=
  let rel := R.branch_REL b sl
  let cfg := R.branch_SLOT_CFG b sl
  let nax := v.slotNax b sl
  let nacq := v.slotNacq b sl
  chk (v.relNs b sl % 4 ≠ 0) rel rRange ++
  chk (v.lag b = 1 && ((sl = 0 && v.relNs b 0 < 348) || (sl + 1 < v.nSlots b && v.relNs b (sl + 1) < v.relNs b sl + 4 * v.flen b) ||
    v.relNs b sl < v.slotDone b sl)) rel rAgree ++
  chk (nax > 4 || nacq > 4) cfg rRange ++
  chk (28 + 36 * nax + 6 * nacq > v.slotLen b || 26 + 12 * nax > v.flen b) cfg rAgree

/-- A commit of REL against the nodes that are integrated (R321, R351). -/
def chkRel (s v : State) (b : Nat) : List Chk :=
  if (List.range 24).any fun sl => changed s v (R.branch_REL b sl) then
    (List.range 24).flatMap fun h =>
      let sl := s.f (R.nodeTable_NODE_STATE b h) 8 4
      chk (3 ≤ s.nodeState b h && s.nodeState b h ≤ 5 && !v.delayFits b sl (s.dHop4 b h)) (R.branch_REL b sl) rFit
  else []

/-- Table 9.13, with R359, R419, R422 and R444. -/
def chkBranch (s v : State) (b : Nat) : List Chk :=
  let cfg := R.branch_BRCFG b
  let sc := R.branch_SLOTCFG b
  let fc := R.branch_FIELDCFG b
  let n := v.nSlots b
  let room := v.tNs - v.nitNs b
  let kept := s.brEn b && v.brEn b
  chk (v.pairMode && v.brEn b && !v.paired b && (!s.brEn b || s.paired b)) cfg rDepend ++
  chk (kept && changed s v cfg) cfg rState ++
  chk (v.brEn b && s.b (R.STATUS (P.branch b)) 3) cfg rRetired ++
  chk (outside n 1 24 || outside (v.f sc 13 8) 4 32 || outside (v.f sc 22 16) 4 64) sc rRange ++
  chk (v.staticEnd b + 4 * v.msBytes b * (v.miniSlots b 256 + v.admMs b) > room || (v.pairMode && 4 * v.pxF > 3 * v.pxB)) sc rFit ++
  chk (kept && changed s v sc) sc rState ++
  chk (v.firstNs b < 1500 || v.firstNs b % 4 ≠ 0) (R.branch_FIRST b) rRange ++
  chk (kept && changed s v (R.branch_FIRST b)) (R.branch_FIRST b) rState ++
  chk (outside (v.f fc 3 0) 3 16) fc rRange ++
  chk (v.eSum b + 1080 > room || (v.pairMode && v.brEn b && v.paired b && v.tNs ≥ 31250 && v.eSum b + 10200 > v.tNs)) fc rFit ++
  chk (kept && changed s v fc) fc rState ++
  chk (v.admMs b > 8) (R.branch_DYNCFG b) rRange ++
  chk (kept && changed s v (R.branch_DYNCFG b)) (R.branch_DYNCFG b) rState ++
  chk (v.nitNs b < 1000 || v.nitNs b % 4 ≠ 0) (R.branch_NIT b) rRange ++
  chk (kept && changed s v (R.branch_NIT b)) (R.branch_NIT b) rState ++
  chk (v.f (R.branch_BRBUF b) 13 0 ≠ 0) (R.branch_BRBUF b) rRange ++
  chk (!v.inHome (v.branchCell b) (v.f (R.branch_BRBUF b) 19 0) 0x4000) (R.branch_BRBUF b) rDepend ++
  (if kept then frozen s v ([R.branch_BRBUF b, R.branch_MSGBUF b] ++ (List.range 24).map (R.branch_SLOT_CFG b)) else []) ++
  (List.range n).flatMap (chkSlot v b) ++ chkRel s v b

/-- Table 10.11. -/
def chkNodeTable (s v : State) (b : Nat) : List Chk :=
  let valid (h : Nat) : Bool := v.b (R.nodeTable_EXP_CTL b h) 24
  let slotOf (h : Nat) : Nat := v.f (R.nodeTable_EXP_CTL b h) 20 16
  chk (v.brEn b && changed s v (R.nodeTable_NPCACHE b)) (R.nodeTable_NPCACHE b) rState ++
  (List.range 24).flatMap fun h =>
    let ctl := R.nodeTable_EXP_CTL b h
    let later (p : Nat → Bool) : Bool := (List.range 24).any fun o => o > h && p o
    chk (valid h && v.rd (R.nodeTable_EXP_VENDOR b h) = 0) (R.nodeTable_EXP_VENDOR b h) rRange ++
    chk (slotOf h > 23) ctl rRange ++
    chk ((valid h && later fun o => valid o && slotOf o = slotOf h) || (!valid h && later valid)) ctl rAgree ++
    chk (valid h && slotOf h ≥ v.nSlots b) ctl rDepend ++
    (if s.nodeState b h = 0 || s.nodeState b h = 7 then []
     else frozen s v [R.nodeTable_EXP_VENDOR b h, R.nodeTable_EXP_TYPE b h, R.nodeTable_EXP_SERIAL_LO b h, ctl])

/-! ## Geyser -/

/-- A result ring's place in device shared memory. -/
def State.ringSpan (s : State) (r : Nat) : Nat × Nat := (s.f (R.geyCommon_RING_CFG r) 22 12 * 0x1000, 64 * s.ringLen r)

def chkGeyCommon (s v : State) : List Chk :=
  (List.range 8).flatMap fun r =>
    let a := R.geyCommon_RING_CFG r
    let en (x : State) (i : Nat) : Bool := x.b (R.geyCommon_RING_CFG i) 8
    let wm := s.f (R.geyCommon_RING_WM r) 16 0
    let hit := (List.range 8).any fun o => o > r && en v o && overlaps (v.ringSpan r) (v.ringSpan o)
    let named := (List.range 256).any fun c => v.gEn c && v.f (gMode c) 26 24 = r
    chk (outside (v.f a 3 0) 4 16) a rRange ++
    chk (en v r && ((v.ringSpan r).1 + (v.ringSpan r).2 > sharedSize || hit)) a rAgree ++
    chk (changed s v a && ((en s r && en v r) || named)) a rState ++
    chk (wm = 0 || wm > v.ringLen r) (R.geyCommon_RING_WM r) rRange

/-- What a channel claims of the budget (R384). -/
def State.gClaim (s : State) (c : Nat) : Nat := if !s.gEn c || s.gState c = 4 then 0 else if s.gAngle c then s.f (gMode c) 31 28 else 1

/-- The first channel of a page whose claim, after those of the other pages and of the channels before it, goes beyond the budget. -/
def State.gBeyond (s : State) (n : Nat) : Option Nat :=
  let other := (List.range 256).foldl (fun x c => if c / 64 = n then x else x + s.gClaim c) 0
  let go := (List.range 64).foldl (fun (x : Nat × Option Nat) i =>
    let y := x.1 + s.gClaim (64 * n + i)
    (y, if x.2.isNone && y > s.gBudget.1 && s.gClaim (64 * n + i) > 0 then some (64 * n + i) else x.2)) (other, none)
  go.2

def chkGeyChan (s v : State) (c : Nat) : List Chk :=
  let n := c / 64
  let i := c % 64
  let src := gSrc c
  let mode := gMode c
  let on := v.gEn c
  let revBad := (v.rd48 (R.geyChan_REV_LO n i)).toInt ≤ 0
  let blkrev := v.b mode 12
  let ax := v.f src 22 16
  let srcBad := if v.f src 1 0 = 0 then v.f src 12 10 ≥ 2 * (if v.f src 9 5 < 24 then v.slotNacq (v.f src 4 2) (v.f src 9 5) else 0)
    else !v.axBound ax || (v.f src 25 24 = 1 && v.f (R.axis_CFG ax) 1 0 ≠ 0) || (v.f src 25 24 = 2 && v.f (R.axis_CFG ax) 1 0 = 2)
  let kept := s.gEn c && on
  chk (v.f src 1 0 > 1 || v.f src 31 26 > 40) src rRange ++
  chk (on && srcBad) src rDepend ++
  chk (kept && changed s v src) src rState ++
  chk (outside (v.f mode 11 8) 6 12 || outside (v.f mode 19 16) 6 16 || outside (v.f mode 31 28) 1 8) mode rRange ++
  chk (((v.gAngle c || blkrev) && revBad) || (blkrev && v.gAngle c && v.gRevs c * v.gPts c > 65536)) mode rAgree ++
  chk (v.gBeyond n = some c) mode rCapacity ++
  chk (on && !v.b (R.geyCommon_RING_CFG (v.f mode 26 24)) 8) mode rDepend ++
  chk (kept && changes s v mode 31 1) mode rState ++
  chk (on && s.gState c = 4) mode rRetired ++
  (if kept then frozen s v [R.geyChan_ANCHOR_LO n i, R.geyChan_ANCHOR_HI n i, R.geyChan_REV_LO n i, R.geyChan_REV_HI n i] else []) ++
  chk (v.gRevs c = 0) (R.geyChan_REVS n i) rRange ++
  chk (kept && changed s v (R.geyChan_REVS n i)) (R.geyChan_REVS n i) rState

def chkGeyTrig (s v : State) (u : Nat) : List Chk :=
  let cfg := R.geyTrig_TCFG u
  let snap := R.geyTrig_SNAP u
  let busy := 1 ≤ s.tState u && s.tState u ≤ 3
  chk (v.f cfg 12 11 = 0 || v.f cfg 14 13 = 3) cfg rRange ++
  chk (v.tPost u = 0) (R.geyTrig_PREPOST u) rRange ++
  chk (v.tPre u + v.tPost u > v.tLen u) (R.geyTrig_PREPOST u) rAgree ++
  chk (outside (v.f snap 3 0) 6 16) snap rRange ++
  chk (v.f snap 22 12 * 0x1000 + 4 * v.tLen u > sharedSize) snap rAgree ++
  chk (v.f (R.geyTrig_TMO u) 15 0 = 0) (R.geyTrig_TMO u) rRange ++
  (if busy then frozen s v [cfg, R.geyTrig_LEVEL u, R.geyTrig_HYST u, R.geyTrig_PREPOST u, snap, R.geyTrig_TMO u] else [])

/-! ## Invar, pair and Luavan -/

def chkInvar (s v : State) : List Chk :=
  let trim := (v.rd R.invarCore_FREQ_TRIM).toInt
  chk (v.f R.invarCore_CFG 24 16 > 500) R.invarCore_CFG rRange ++
  chk (v.f R.invarCore_CFG 1 0 = 2 && s.b R.lvCommon_LVSTAT 7) R.invarCore_CFG rDepend ++
  chk (v.f R.invarCore_STEP_LIMIT 19 0 > 1000000) R.invarCore_STEP_LIMIT rRange ++
  chk (v.f R.invarCore_STEP_WIN 15 0 < 16) R.invarCore_STEP_WIN rRange ++
  chk (trim > rateMax || trim < -rateMax) R.invarCore_FREQ_TRIM rRange ++
  chk (outside (v.f R.invarCore_PPS_CFG 24 16) 1 500) R.invarCore_PPS_CFG rRange

def chkPtp (v : State) : List Chk :=
  let d := sfld (v.rd R.invarPtp_PTPCFG) 23 16
  chk (v.f R.invarPtp_PTPCFG 15 12 > 8 || d < -7 || d > 4) R.invarPtp_PTPCFG rRange ++
  chk (v.f R.invarCore_CFG 1 0 = 1 && v.rd R.invarPtp_MASTER_CLK_W0 = 0 && v.rd R.invarPtp_MASTER_CLK_W1 = 0) R.invarPtp_MASTER_CLK_W0 rDepend

/-- The conditions of R419 under which pair mode cannot begin. -/
def State.noPartner (s : State) : Bool :=
  !s.pair.pxUp || (match s.pair.partner with
  | none => true
  | some p => p.sideA ≠ s.sideB || !p.revB0)

def chkPair (s v : State) : List Chk :=
  let cfg := R.pair_PCFG
  let span (r : Nat) : Nat × Nat := (v.f (R.pair_RMAP r) 10 0, v.f (R.pair_RMAP r) 27 16)
  chk (v.f cfg 23 16 = 0) cfg rRange ++
  chk (v.pairMode && (4 * v.pxF > 3 * v.pxB ||
    (v.tNs ≥ 31250 && (List.range 8).any fun b => v.brEn b && v.paired b && v.eSum b + 10200 > v.tNs))) cfg rFit ++
  chk (s.pair.sync = 1 && changes s v cfg 0 0) cfg rState ++
  chk (v.pairMode && !s.pairMode && s.noPartner) cfg rDepend ++
  (List.range 8).flatMap fun r =>
    let a := R.pair_RMAP r
    chk ((span r).2 > 2048 || (span r).1 + (span r).2 > 2048) a rRange ++
    chk ((List.range 8).any fun o => o > r && overlaps (span r) (span o)) a rAgree ++
    chk (s.pair.sync = 1 && changed s v a) a rState

def chkLv (s v : State) : List Chk :=
  let a := R.lvCommon_LVCFG
  chk (s.b a 0 && v.b a 0 && changes s v a 1 1) a rState ++ chk (v.b a 1 && !s.b (R.lvPort_LSTAT 1) 22) a rDepend

/-! ## Sinter -/

def chkSinCore (v : State) : List Chk :=
  let pairBad (p : Nat) : Bool := v.b R.sinCore_SINCFG (16 * p) && outside (v.f R.sinCore_SINCFG (16 * p + 15) (16 * p + 8)) 1 250
  chk (outside (v.f R.sinCore_SCFG 15 8) 1 28 || outside (v.f R.sinCore_SCFG 23 16) 1 100) R.sinCore_SCFG rRange ++
  chk (pairBad 0 || pairBad 1) R.sinCore_SINCFG rRange

/-- A response is permitted for class k (Table 14.5). -/
def respPermitted (k c : Nat) : Bool :=
  match k with
  | 0 => c = 3 || c = 4
  | 1 | 5 => true
  | 3 | 4 | 14 => c = 0 || c = 3 || c = 4
  | 12 => c = 0 || c = 2 || c = 3 || c = 4
  | 13 => c = 0 || c = 2 || c = 4
  | _ => c = fld (resetOf (R.sinClass_RESP k)) 2 0

def chkSinClass (v : State) : List Chk :=
  ((List.range 9).flatMap fun c =>
    let a := R.sinClass_FDCFG c
    chk (v.f a 4 0 > 24 || v.f a 15 8 = 0) a rRange) ++
  (List.range 16).flatMap fun k => chk (!respPermitted k (v.f (R.sinClass_RESP k) 2 0)) (R.sinClass_RESP k) rRange

/-- TRIG or SLS_TRIG names a SIN pair whose EN is 0 (R500). -/
def State.namesOff (s : State) (trig : Nat) : Bool := (List.range 2).any fun p => trigSelects trig p && !s.b R.sinCore_SINCFG (16 * p)

/-- The node of axis a cannot carry its functions (R475). -/
def State.noSafeNode (s : State) (a : Nat) : Bool :=
  let b := s.axisBranch a
  let sl := s.axisSlot a
  let cfg := s.rd (sfcfg a)
  !s.axBound a || !s.safetyNode b sl || (match s.nameplate b sl with
  | none => true
  | some np =>
    let caps := s.ncaps np
    !bit caps 1 || (!bit caps 2 && (fld cfg 1 0 = 2 || ((bit cfg 6 || fld cfg 5 4 ≠ 0) && fld cfg 9 8 = 2))) || (!bit caps 3 && (bit cfg 6 || fld cfg 5 4 ≠ 0)))

def chkSinAxis (v : State) (a : Nat) : List Chk :=
  let n := a / 32
  let i := a % 32
  let cfg := v.rd (sfcfg a)
  let lim := R.sinAxis_SS1R_LIM n i
  chk (fld cfg 1 0 = 3 || fld cfg 9 8 = 3) (sfcfg a) rRange ++
  chk (v.namesOff (fld cfg 3 2) || v.namesOff (fld cfg 5 4)) (sfcfg a) rAgree ++
  chk (bit cfg 16 && v.noSafeNode a) (sfcfg a) rDepend ++
  chk (v.f (R.sinAxis_SS1T n i) 15 0 = 0) (R.sinAxis_SS1T n i) rRange ++
  chk (v.f (R.sinAxis_SS1R n i) 15 0 = 0 || v.f (R.sinAxis_SS1R n i) 27 16 > 2047) (R.sinAxis_SS1R n i) rRange ++
  chk (v.f lim 15 0 = 0 || v.f lim 27 16 > 2047) lim rRange ++
  chk (outside (v.f (R.sinAxis_SLS n i) 11 0) 1 2047) (R.sinAxis_SLS n i) rRange

/-- The cached record of a slot's node does not fit its connection (Table 14.11). -/
def State.safeAreaBad (s : State) (b sl : Nat) : Bool :=
  match s.nameplate b sl with
  | none => true
  | some np => crc32c (s.bytes (np + 0xC0) 0x3C) ≠ BitVec.ofNat 32 (s.le (np + 0xFC) 4) || s.le (np + 0xC0) 4 ≠ (s.rd (R.sinNode_NSID b sl)).toNat ||
    !bit (s.ncaps np) 0

def respNode (c : Nat) : Bool := c = 1 || c = 3 || c = 4

def chkSinNode (v : State) (b sl : Nat) : List Chk :=
  let a := R.sinNode_NSCFG b sl
  if v.b a 0 then
    chk (v.f a 15 8 = 0 || v.f a 23 16 = 0 || !respNode (v.f a 26 24) || !respNode (v.f a 30 28)) a rRange ++
    chk (v.safeAreaBad b sl) a rDepend ++ chk (v.rd (R.sinNode_NSID b sl) = 0) (R.sinNode_NSID b sl) rRange
  else []

/-! ## Reset, DMA, CAN, Ethernet and performance -/

def chkReset (v : State) : List Chk := chk (v.f R.reset_WDOG_CFG 31 16 = 0) R.reset_WDOG_CFG rRange

def chkDma (s v : State) (c : Nat) : List Chk :=
  let cfg := R.dma_CH_CFG c
  let kept := s.b cfg 0 && v.b cfg 0
  chk (outside (v.f cfg 7 4) 4 12) cfg rRange ++
  chk (kept && changes s v cfg 7 4) cfg rState ++
  chk (v.f (R.dma_RING_W0 c) 11 0 ≠ 0) (R.dma_RING_W0 c) rRange ++
  (if kept then frozen s v [R.dma_RING_W0 c, R.dma_RING_W1 c] else [])

/-- CAN clocks in a bit of the nominal or the data phase (R559). -/
def State.nomBit (s : State) (n : Nat) : Nat :=
  let w := R.can_NBT n
  (s.f w 7 0 + 1) * (s.f w 15 8 + s.f w 22 16 + 3)
def State.dataBit (s : State) (n : Nat) : Nat :=
  let w := R.can_DBT n
  (s.f w 4 0 + 1) * (s.f w 9 5 + s.f w 13 10 + 3)

/-- A TX buffer whose record asks for a CAN FD frame. -/
def State.fdBuffer (s : State) (n b : Nat) : Bool := s.mbMode n b = 2 && s.le (s.mbAddr n b + 4) 1 / 16 % 2 = 1

def chkCan (s v : State) (n : Nat) : List Chk :=
  let cfg := R.can_CCFG n
  let nbt := R.can_NBT n
  let dbt := R.can_DBT n
  let kept := s.canEn n && v.canEn n
  chk ((v.b cfg 3 && (v.nomBit n < 640 || v.f nbt 15 8 < 2)) || (!v.b cfg 2 && (List.range 64).any (v.fdBuffer n))) cfg rAgree ++
  chk (kept && changes s v cfg 2 2) cfg rState ++
  chk (v.canEn n && s.canRetired n) cfg rRetired ++
  chk (v.f nbt 29 23 > v.f nbt 22 16 || v.f nbt 15 8 = 0 || v.nomBit n < 80 || v.nomBit n > 8000) nbt rRange ++
  chk (kept && changed s v nbt) nbt rState ++
  chk (v.f dbt 17 14 > v.f dbt 13 10 || v.dataBit n < 10) dbt rRange ++
  (if kept then frozen s v [dbt, R.can_MBBASE n] else []) ++
  (List.range 64).flatMap fun b =>
    chk (v.mbMode n b = 3) (R.can_MB_ID n b) rRange ++
    (if s.mbBit R.can_TXREQ n b || s.mbBit R.can_RXFULL n b then frozen s v [R.can_MB_ID n b, R.can_MB_MASK n b] else [])

def chkEth (s v : State) (n : Nat) : List Chk :=
  let cfg := R.eth_ECFG n
  let rx := R.eth_RXRING n
  let tx := R.eth_TXRING n
  let span (a : Nat) : Nat × Nat := (v.f a 22 12 * 0x1000, 2048 * 2 ^ v.f a 3 0)
  let mb : Nat × Nat := (v.f (R.eth_MBX_BASE n) 22 15 * 0x8000, 0x8000)
  let past (x : Nat × Nat) : Bool := x.1 + x.2 > sharedSize
  let kept := s.b cfg 0 && v.b cfg 0
  chk (kept && changes s v cfg 1 1) cfg rState ++
  chk (v.b (R.eth_MAC_HI n) 8) (R.eth_MAC_HI n) rRange ++
  chk (outside (v.f rx 3 0) 4 10) rx rRange ++
  chk (past (span rx) || overlaps (span rx) (span tx) || overlaps (span rx) mb) rx rAgree ++
  chk (kept && changed s v rx) rx rState ++
  chk (outside (v.f tx 3 0) 4 10) tx rRange ++
  chk (past (span tx) || overlaps (span tx) mb) tx rAgree ++
  (if kept then frozen s v [tx, R.eth_MBX_BASE n] else [])

def chkPerfCommon (v : State) : List Chk :=
  let win (b l : Nat) : List Chk :=
    chk (v.f b 2 0 ≠ 0) b rRange ++ chk ((v.rd b).toNat > (v.rd l).toNat) b rAgree ++ chk (v.f l 2 0 ≠ 0) l rRange
  win R.perfCommon_WIN0_BASE R.perfCommon_WIN0_LIMIT ++ win R.perfCommon_WIN1_BASE R.perfCommon_WIN1_LIMIT

def chkPerfCell (v : State) (c : Nat) : List Chk :=
  chk (outside (v.f (R.perfCell_BW_CFG c) 19 0) 1 1000000) (R.perfCell_BW_CFG c) rRange ++
  ((List.range 6).flatMap fun p =>
    let a := R.perfCell_BWF c p
    chk (v.f a 19 16 = 0 || v.f a 10 8 = 0) a rRange) ++
  (List.range 4).flatMap fun l => (List.range 8).flatMap fun i => chk (v.f (R.perfCell_PSEL c l i) 10 8 = 0) (R.perfCell_PSEL c l i) rRange

/-! ## The page's checks -/

/-- Every check of a page. -/
def pageChecks (s v : State) (k : PageKind) (n : Nat) : List Chk :=
  match k with
  | .reset => chkReset v
  | .invarCore => chkInvar s v
  | .invarPtp => chkPtp v
  | .sinCore => chkSinCore v
  | .sinClass => chkSinClass v
  | .sinAxis => (List.range 32).flatMap fun i => chkSinAxis v (32 * n + i)
  | .sinNode => (List.range 24).flatMap fun sl => chkSinNode v n sl
  | .dma => (List.range 16).flatMap (chkDma s v)
  | .lpSrc => (List.range 4).flatMap (chkLpSrc s v)
  | .cmp => (List.range 8).flatMap (chkCmp s v)
  | .ae => (List.range 128).flatMap (chkAe v n)
  | .qe => chkQe s v n
  | .geyCommon => chkGeyCommon s v
  | .geyChan => (List.range 64).flatMap fun i => chkGeyChan s v (64 * n + i)
  | .geyTrig => (List.range 16).flatMap (chkGeyTrig s v)
  | .crater => chkCrater s v
  | .branch => chkBranch s v n
  | .nodeTable => chkNodeTable s v n
  | .pair => chkPair s v
  | .lvCommon => chkLv s v
  | .can => chkCan s v n
  | .eth => chkEth s v n
  | .perfCommon => chkPerfCommon v
  | .perfCell => chkPerfCell v n
  | .cell => chkCell s v n
  | .axis => chkAxis s v n ++ chkProfile s v n
  | .chip | .fuse | .pcie | .router | .msix | .xlCommon | .xlCell | .lahar | .invarEv | .lvPort | .engine => []

/-- The failing check at the lowest word offset (R56). -/
def lowestChk : List Chk → Option Chk
  | [] => none
  | x :: r => match lowestChk r with
    | some y => if y.1 < x.1 then some y else some x
    | none => some x

/-- Whether the checks consult a free bit (R455, R456). -/
def usesFree (k : PageKind) : Bool := k = .crater || k = .lpSrc

end Sys2Proof.Machine
end

