-- ==== Sys2Proof/Machine/DmaBase.lean ====
section
/-! DEFINITION. The DMA channels' rings, commands and states (section 16.3): what needs no transfer. -/

namespace Sys2Proof.Machine

/-! ## Descriptors (Table 16.2) -/

/-- A field of n bytes of a descriptor. -/
def dle (d : List Byte) (o n : Nat) : Nat := leNat ((d.drop o).take n)

def descOp (d : List Byte) : Nat := dle d 0 1
def descIrq (d : List Byte) : Bool := dle d 0 4 / 256 % 2 = 1
def descXd (d : List Byte) : Bool := dle d 0 4 / 1024 % 2 = 1
def descXs (d : List Byte) : Bool := dle d 0 4 / 2048 % 2 = 1
def descCtx (d : List Byte) : Nat := dle d 0 4 / 65536 % 64
def descLen (d : List Byte) : Nat := dle d 4 3
def descSeg (d : List Byte) : Nat := dle d 4 4 % 512
def descAxis (d : List Byte) : Nat := dle d 4 4 / 65536 % 128
def descH (d : List Byte) : Nat := dle d 8 8
def descD (d : List Byte) : Nat := dle d 16 8
def isRing (d : List Byte) : Bool := descOp d = 4

/-! ## Channels -/

def State.dmaCh (s : State) (c : Nat) : DmaCh := Tab.get s.dma c {}

def State.setDma (s : State) (c : Nat) (x : DmaCh) : State := { s with dma := Tab.set s.dma c x {} }

/-- CH_STAT.STATE: 0 OFF, 1 IDLE, 2 RUN, 3 WAIT, 4 STOPPED, 5 HALTED. -/
def State.chState (s : State) (c : Nat) : Nat := s.f (R.dma_CH_STAT c) 2 0
def State.setChState (s : State) (c st : Nat) : State := s.setF (R.dma_CH_STAT c) 2 0 st

def State.chEn (s : State) (c : Nat) : Bool := s.b (R.dma_CH_CFG c) 0
def State.chHead (s : State) (c : Nat) : Nat := s.f (R.dma_HEAD c) 15 0
def State.chTail (s : State) (c : Nat) : Nat := s.f (R.dma_TAIL c) 15 0
def State.chSize (s : State) (c : Nat) : Nat := 2 ^ s.f (R.dma_CH_CFG c) 7 4

/-- The host address of descriptor number i (R538). -/
def State.descAddr (s : State) (c i : Nat) : W64 :=
  BitVec.ofNat 64 ((s.rd (R.dma_RING_W0 c)).toNat + (s.rd (R.dma_RING_W1 c)).toNat * 2 ^ 32 + 32 * (i % s.chSize c))

/-- Show the number of the descriptor in service, its elements landed, and the elements of all channels in flight (R557). -/
def State.dmaShow (s : State) (c : Nat) : State :=
  let s := s.wr (R.dma_CUR c) (BitVec.ofNat 32 (s.chHead c + 65536 * min (s.dmaCh c).landed 65535))
  s.setF R.dma_DMA_STAT 4 0 (s.dma.foldl (fun n e => n + e.2.elems.length) 0)

/-- The channel is IDLE, or runs while descriptors are handed over. -/
def State.dmaGo (s : State) (c : Nat) : State := s.setChState c (if s.chTail c = s.chHead c then 1 else 2)

/-- Drop the progress of the descriptor in service. -/
def State.dmaDrop (s : State) (c : Nat) : State := ((s.setDma c {}).wr (R.dma_BYTES c) 0).dmaShow c

/-- An element boundary of a channel with no element in flight: EN 0 leaves it OFF (R546), a STOP leaves it STOPPED (R545). -/
def State.dmaSettle (s : State) (c : Nat) : State :=
  let x := s.dmaCh c
  if !x.elems.isEmpty then s
  else if !s.chEn c then (s.dmaDrop c).setChState c 0
  else if x.stop then (s.setDma c { x with stop := false }).setChState c 4
  else s

/-- A commit of the DMA page has taken effect (R546). -/
def State.dmaCommit (s : State) (c : Nat) (was : Bool) : State :=
  if was && !s.chEn c then s.dmaSettle c
  else if !was && s.chEn c then (s.dmaDrop c).dmaGo c
  else s

/-- A write of TAIL (R538). -/
def State.tailWrite (s : State) (c : Nat) (v : Nat) : State :=
  if (v + 65536 - s.chHead c) % 65536 > s.chSize c then s.hwSetBits (R.dma_CH_STAT c) 0x10000
  else
    let s := s.setF (R.dma_TAIL c) 15 0 v
    if s.chState c = 1 then s.dmaGo c else s

/-- TAIL_WRITE (R538). -/
def execTailWrite (t : Time) (m : Master) (c : Fin 16) (val : BitVec 16) (s : State) : Host.Outcome State Fault Refusal :=
  .next (s.gated t m (R.dma_TAIL c) (val.setWidth 32) fun s => s.tailWrite c val.toNat)

/-- The write-back word of Table 16.3. -/
def writeBack (status detail bytes : Nat) : List Byte := natLe 8 (1 + status * 16 + detail * 256 + bytes * 65536)

/-- Write the descriptor at HEAD back and advance HEAD. -/
def State.descDone (s : State) (c status detail bytes : Nat) : State :=
  let s := s.emit (.hostWrite (s.descAddr c (s.chHead c) + 24) (writeBack status detail bytes))
  (s.incMod (R.dma_HEAD c) 15 0).dmaDrop c

/-- Halting status and detail no longer in force. -/
def State.dmaClear (s : State) (c : Nat) : State := (s.setF (R.dma_CH_STAT c) 7 4 0).setF (R.dma_CH_STAT c) 15 8 0

/-- A refused command (R545). -/
def State.chReject (s : State) (c : Nat) : State := s.hwSetBits (R.dma_CH_STAT c) 0x20000

/-- Whether a channel takes commands. -/
def State.chHeld (s : State) (c : Nat) : Bool := s.chState c = 4 || s.chState c = 5

/-- RESUME (R545): after a DESC halt the descriptor is read again. -/
def State.chResume (s : State) (c : Nat) : State :=
  if !s.chHeld c then s.chReject c
  else
    let s := if s.chState c = 5 && s.f (R.dma_CH_STAT c) 7 4 = 1 then s.dmaDrop c else s
    (s.dmaClear c).dmaGo c

/-- STOP (R545): it takes effect at the next element boundary. -/
def State.chStop (s : State) (c : Nat) : State :=
  if s.chState c = 2 || s.chState c = 3 then (s.setDma c { s.dmaCh c with stop := true }).dmaSettle c
  else if s.chHeld c then s else s.chReject c

/-- SKIP (R545): the descriptor is written back, with its interrupt where it asks for one (Table 16.2). -/
def State.chSkip (s : State) (c : Nat) : State :=
  if !s.chHeld c then s.chReject c
  else if s.chTail c = s.chHead c then s.dmaGo c
  else
    let st := if s.chState c = 4 then 6 else s.f (R.dma_CH_STAT c) 7 4
    let d := if s.chState c = 4 then 0 else s.f (R.dma_CH_STAT c) 15 8
    let irq := (s.dmaCh c).desc.any descIrq
    (((s.descDone c st d (s.f (R.dma_BYTES c) 23 0)).irqIf irq P.dma (8 + c)).dmaClear c).dmaGo c

/-- RESET (R545). -/
def State.chReset (s : State) (c : Nat) : State :=
  if !s.chHeld c then s.chReject c
  else (((s.setF (R.dma_TAIL c) 15 0 (s.chHead c)).dmaDrop c).dmaClear c).setChState c 1

def execChCmdResume (t : Time) (m : Master) (c : Fin 16) (s : State) : Host.Outcome State Fault Refusal :=
  .next (s.gated t m (R.dma_CH_CMD c) 1 fun s => s.chResume c)
def execChCmdStop (t : Time) (m : Master) (c : Fin 16) (s : State) : Host.Outcome State Fault Refusal :=
  .next (s.gated t m (R.dma_CH_CMD c) 2 fun s => s.chStop c)
def execChCmdSkip (t : Time) (m : Master) (c : Fin 16) (s : State) : Host.Outcome State Fault Refusal :=
  .next (s.gated t m (R.dma_CH_CMD c) 4 fun s => s.chSkip c)
def execChCmdReset (t : Time) (m : Master) (c : Fin 16) (s : State) : Host.Outcome State Fault Refusal :=
  .next (s.gated t m (R.dma_CH_CMD c) 8 fun s => s.chReset c)

end Sys2Proof.Machine
end

