-- ==== Sys2Proof/Machine/Eth.lean ====
section
/-! DEFINITION. The Ethernet ports, their rings and mailboxes, forwarding, and MDIO (section 17.5, R413). -/

namespace Sys2Proof.Machine

def State.ethSt (s : State) (n : Nat) : EthSt := Tab.get s.eth n {}

def State.setEth (s : State) (n : Nat) (x : EthSt) : State := { s with eth := Tab.set s.eth n x {} }

def State.ethEn (s : State) (n : Nat) : Bool := s.b (R.eth_ECFG n) 0

/-- BRIDGE, in page 0 only (R581). -/
def State.ethBridge (s : State) : Bool := s.b (R.eth_ECFG 0) 3

/-! ## Frames as bytes -/

/-- n bytes of a frame from o, most significant first. -/
def beAt (f : List Byte) (o n : Nat) : Nat := (List.range n).foldl (fun v i => v * 256 + (f.getD (o + i) 0).toNat) 0

/-- n bytes of a number, most significant first. -/
def natBe (n x : Nat) : List Byte := (natLe n x).reverse

/-- Replace bytes from o. -/
def putBytes (f : List Byte) (o : Nat) (l : List Byte) : List Byte := f.take o ++ l ++ f.drop (o + l.length)

def ethDst (f : List Byte) : Nat := beAt f 0 6
def ethType (f : List Byte) : Nat := beAt f 12 2

/-- The MAC of a port as a 48-bit number, octet 0 most significant. -/
def State.ethMac (s : State) (n : Nat) : Nat := (s.rd (R.eth_MAC_HI n)).toNat % 65536 * 2 ^ 32 + (s.rd (R.eth_MAC_LO n)).toNat

/-- Where the PTP message lies in a frame of transport tr: 0 IEEE 802.3, 1 UDP/IPv4 to an event or general port (R410). -/
def ptpAt (f : List Byte) (tr : Bool) : Option Nat :=
  if !tr then (if ethType f = 0x88F7 then some 14 else none)
  else
    let ip := (f.getD 14 0).toNat
    let u := 14 + ip % 16 * 4
    if ethType f = 0x0800 && ip / 16 = 4 && f.getD 23 0 = 17 && (beAt f (u + 2) 2 = 319 || beAt f (u + 2) 2 = 320) then some (u + 8) else none

/-- A PTP event message: Sync, Delay_Req, Pdelay_Req or Pdelay_Resp. -/
def ptpEvent (f : List Byte) (o : Nat) : Bool := (f.getD o 0).toNat % 16 < 4

/-- The PTP event message of either transport in a frame (R413). -/
def anyEvent (f : List Byte) : Option (Nat × Bool) :=
  match ptpAt f false, ptpAt f true with
  | some o, _ => if ptpEvent f o then some (o, false) else none
  | none, some o => if ptpEvent f o then some (o, true) else none
  | none, none => none

/-- A 16-bit sum with end-around carry. -/
def onesAdd (x y : Nat) : Nat := if x + y > 65535 then x + y - 65535 else x + y

/-- A UDP checksum after four 16-bit words changed from a to b. -/
def udpFix (c : Nat) (a b : List Nat) : Nat :=
  let x := a.foldl (fun v w => onesAdd v (65535 - w)) (65535 - c)
  65535 - b.foldl onesAdd x

/-- The correctionField of the message at o grows by d; a non-zero UDP checksum follows (R413). -/
def correctAt (f : List Byte) (o : Nat) (udp : Bool) (d : Int) : List Byte :=
  let old := beAt f (o + 8) 8
  let new := (BitVec.ofInt 64 (old + d)).toNat
  let g := putBytes f (o + 8) (natBe 8 new)
  let c := beAt f (o - 2) 2
  if udp && c ≠ 0 then
    let ws (x : Nat) : List Nat := (List.range 4).map fun i => x / 65536 ^ i % 65536
    putBytes g (o - 2) (natBe 2 (udpFix c (ws old) (ws new)))
  else g

/-! ## Rings (R575) -/

/-- Ring length and slot address of a ring register. -/
def State.ethRingLen (s : State) (reg : Nat) : Nat := 2 ^ s.f reg 3 0
def State.ethRingSlot (s : State) (reg i : Nat) : Nat := sharedAddr (s.f reg 22 12 * 0x1000) + i % s.ethRingLen reg * 2048

/-- The mailbox slots (R577). -/
def State.mbxRxSlot (s : State) (n i : Nat) : Nat := sharedAddr (s.f (R.eth_MBX_BASE n) 22 15 * 0x8000) + 2048 * i
def State.mbxTxSlot (s : State) (n i : Nat) : Nat := s.mbxRxSlot n 0 + 16384 + 2048 * i

/-- The ingress timestamp of a frame at the pins, in units of 2^-16 ns (R412). -/
def State.ingress (s : State) (f : EthFrame) : W64 :=
  (f.stamp ++ f.frac : BitVec 64) + BitVec.ofInt 64 (sfld (s.rd R.invarPtp_TS_ADJ) 15 0 * 65536)

/-- A slot with a received frame: only PTP event messages carry a timestamp (R412, R575). -/
def slotBytes (f : EthFrame) (at' : W64) : List Byte :=
  let ev := (anyEvent f.bytes).isSome
  natLe 4 (f.bytes.length + b2n ev * 2 ^ 17) ++ List.replicate 4 (0 : Byte) ++ natLe 6 (if ev then at'.toNat / 65536 else 0) ++ List.replicate 2 (0 : Byte) ++ f.bytes

/-- A frame for the host receive ring (R575). -/
def State.ethToHost (s : State) (n : Nat) (f : EthFrame) : State :=
  let wr := s.rd (R.eth_RX_WR n)
  if (wr - s.rd (R.eth_RX_RD n)).toNat = s.ethRingLen (R.eth_RXRING n) then (s.inc (R.eth_CNT n) 7 0).irqB (P.eth n) 10
  else ((s.storeBytes (s.ethRingSlot (R.eth_RXRING n) wr.toNat) (slotBytes f (s.ingress f))).wr (R.eth_RX_WR n) (wr + 1)).irqB (P.eth n) 8

/-- A frame for the mailbox (R577). -/
def State.ethToMbx (s : State) (n : Nat) (f : EthFrame) : State :=
  match (List.range 8).find? fun i => !s.b (R.eth_MBX_RX n) i with
  | some i => ((s.storeBytes (s.mbxRxSlot n i) (slotBytes f (s.ingress f))).hwSetBits (R.eth_MBX_RX n) (BitVec.ofNat 32 (2 ^ i))).irqB (P.eth n) 11
  | none => s.inc (R.eth_CNT n) 23 16

/-! ## Sending (R575 to R577) -/

/-- The next frame of a port in the order of R576. -/
def EthSt.pick (x : EthSt) : EthSt :=
  if x.cur.isSome then x
  else match x.events, x.fwd, x.host with
    | f :: r, _, _ => { x with events := r, cur := some f }
    | [], f :: r, _ => { x with fwd := r, cur := some f }
    | [], [], f :: r => { x with host := r, cur := some f }
    | [], [], [] => x

/-- Start the next frame of an enabled port. -/
def State.ethPick (s : State) (n : Nat) : State := if s.ethEn n then s.setEth n (s.ethSt n).pick else s

/-- A frame is queued for the other port (R576). -/
def State.ethForward (s : State) (n : Nat) (f : EthFrame) : State :=
  if !s.ethBridge || ethDst f.bytes = s.ethMac n then s
  else
    let o := 1 - n
    let x := s.ethSt o
    let ev := (anyEvent f.bytes).isSome
    let e := EthTx.forward f.bytes (s.ingress f) ev
    if x.events.length + x.fwd.length ≥ 16 then s.inc (R.eth_CNT n) 15 8
    else (s.setEth o (if ev then { x with events := x.events ++ [e] } else { x with fwd := x.fwd ++ [e] })).ethPick o

/-- Classification (Table 17.4). -/
def State.ethClassify (s : State) (n : Nat) (f : EthFrame) : State :=
  let d := ethDst f.bytes
  let own : Bool := d = s.ethMac n
  let group : Bool := d = 2 ^ 48 - 1 || (d / 2 ^ 40 % 2 = 1 && s.b (R.eth_ECFG n) 4)
  if (ptpAt f.bytes (s.b R.invarPtp_PTPCFG 8)).isSome then (s.ethToHost n f).ethForward n f
  else if s.b (R.eth_MBX_CFG n) 16 && ethType f.bytes = s.f (R.eth_MBX_CFG n) 15 0 && own then s.ethToMbx n f
  else if own then s.ethToHost n f
  else if group then (s.ethToHost n f).ethForward n f
  else s.ethForward n f

/-- A PTP message at ETH`PORT` of a type that Invar does not use: it is counted (R411). -/
def State.ptpOther (s : State) (n : Nat) (f : EthFrame) : State :=
  match ptpAt f.bytes (s.b R.invarPtp_PTPCFG 8) with
  | some o =>
    let k := (f.bytes.getD o 0).toNat % 16
    if s.timeSrc = 1 && !s.coreInReset && n = s.ptpPort && k ≠ 0 && k ≠ 8 && k ≠ 9 then s.ptpForeign else s
  | none => s

/-- ETH_FRAME_RECEIVE (R573, R574). Invar's part of a Sync, Follow_Up or Delay_Resp comes as the message's own command. -/
def execEthFrameReceive (t : Time) (n : Fin 2) (f : EthFrame) (s : State) : Host.Outcome State Fault Refusal :=
  let s := s.tick t
  .next (if !s.ethEn n then s
  else if !f.fcsGood || f.len > 1522 then s.inc (R.eth_CNT n) 31 24
  else (s.ptpOther n f).ethClassify n f)

/-- The egress timestamp of a frame of len bytes and its FCS that ends now, at 8 ns per byte, in units of 2^-16 ns (R412). -/
def State.egress (s : State) (len : Nat) : W64 :=
  BitVec.ofNat 64 (s.devTime s.now) + BitVec.ofInt 64 ((sfld (s.rd R.invarPtp_TS_ADJ) 31 16 - 8 * (len + 4)) * 65536)

/-- A slot's frame has been sent: its timestamp when asked for. -/
def State.slotSent (s : State) (n a : Nat) : State :=
  let h := BitVec.ofNat 32 (s.le a 4)
  let len := fld h 10 0
  let s := s.emit (.ethFrame n (s.bytes (a + 16) len))
  let s := if bit h 16 then s.storeBytes a (natLe 4 (setFld h 17 17 1).toNat ++ s.bytes (a + 4) 4 ++ natLe 6 ((s.egress len).toNat / 65536) ++ s.bytes (a + 14) 2) else s
  s.irqB (P.eth n) 9

/-- A forwarded frame has been sent: an event message with its residence time added (R413). -/
def State.forwardSent (s : State) (n : Nat) (f : List Byte) (stamp : W64) : State :=
  match anyEvent f with
  | some (o, udp) =>
    if s.b R.invarPtp_PTPCFG 9 then
      (s.emit (.ethFrame n (correctAt f o udp (s.egress f.length - stamp).toInt))).inc R.invarPtp_TC_CNT 31 0
    else s.emit (.ethFrame n f)
  | none => s.emit (.ethFrame n f)

/-- The frame being sent ends. -/
def State.ethSent (s : State) (n : Nat) (x : EthTx) : State :=
  let s := match x with
    | .forward f st _ => s.forwardSent n f st
    | .ring i => (s.slotSent n (s.ethRingSlot (R.eth_TXRING n) i)).incMod (R.eth_TX_RD n) 31 0
    | .mailbox i => (s.slotSent n (s.mbxTxSlot n i)).setB (R.eth_MBX_TX n) i false
  (s.setEth n { s.ethSt n with cur := none }).ethPick n

/-- ETH_FRAME_SENT (R575). -/
def execEthFrameSent (t : Time) (n : Fin 2) (s : State) : Host.Outcome State Fault Refusal :=
  let s := s.tick t
  .next (match (s.ethSt n).cur with
  | some x => s.ethSent n x
  | none => s)

/-! ## The host's commands -/

/-- RX_RD_WRITE (R575). -/
def execRxRdWrite (t : Time) (m : Master) (n : Fin 2) (val : W32) (s : State) : Host.Outcome State Fault Refusal :=
  .next (s.gated t m (R.eth_RX_RD n) val fun s => s.wr (R.eth_RX_RD n) val)

def State.ethRefuse (s : State) (n : Nat) : State := s.irqB (P.eth n) 13

/-- A write of TX_WR hands frames over, unless it passes the ring's length or moves back (R575). -/
def State.txWr (s : State) (n : Nat) (val : W32) : State :=
  let rd := s.rd (R.eth_TX_RD n)
  let wr := s.rd (R.eth_TX_WR n)
  let k := (val - rd).toNat
  if k > s.ethRingLen (R.eth_TXRING n) || k < (wr - rd).toNat then s.ethRefuse n
  else
    let x := s.ethSt n
    let new := (List.range (val - wr).toNat).map fun i => EthTx.ring ((wr.toNat + i) % 2 ^ 32)
    ((s.wr (R.eth_TX_WR n) val).setEth n { x with host := x.host ++ new }).ethPick n

/-- TX_WR_WRITE (R575). -/
def execTxWrWrite (t : Time) (m : Master) (n : Fin 2) (val : W32) (s : State) : Host.Outcome State Fault Refusal :=
  .next (s.gated t m (R.eth_TX_WR n) val fun s => s.txWr n val)

/-- MBX_RX_FREE (R577). -/
def execMbxRxFree (t : Time) (m : Master) (n : Fin 2) (bits : Byte) (s : State) : Host.Outcome State Fault Refusal :=
  .next (s.gated t m (R.eth_MBX_RX n) (bits.setWidth 32) fun s => s.w1c (R.eth_MBX_RX n) (bits.setWidth 32))

/-- One bit of an MBX_TX write; a slot already pending is not asked for again (R577). -/
def State.mbxTx (s : State) (n i : Nat) : State :=
  if s.b (R.eth_MBX_TX n) i then s
  else
    let x := s.ethSt n
    (s.setB (R.eth_MBX_TX n) i true).setEth n { x with host := x.host ++ [.mailbox i] }

def State.mbxTxs (s : State) (n : Nat) (bits : Nat) : State := (((List.range 8).filter bits.testBit).foldl (fun s i => s.mbxTx n i) s).ethPick n

/-- MBX_TX (R577). -/
def execMbxTx (t : Time) (m : Master) (n : Fin 2) (bits : Byte) (s : State) : Host.Outcome State Fault Refusal :=
  .next (s.gated t m (R.eth_MBX_TX n) (bits.setWidth 32) fun s => s.mbxTxs n bits.toNat)

/-- MDIO_CMD starts a transaction; while one runs it is discarded (R581). -/
def State.mdioCmd (s : State) (val : W32) : State :=
  if s.mdio.isSome then s.ethRefuse 0 else ({ s with mdio := some val }).setB (R.eth_MDIO_STAT 0) 16 true

/-- MDIO_CMD (R581). -/
def execMdioCmd (t : Time) (m : Master) (val : W32) (s : State) : Host.Outcome State Fault Refusal :=
  .next (s.gated t m (R.eth_MDIO_CMD 0) val fun s => s.mdioCmd val)

/-- MDIO_DONE (R573): BUSY falls, and a read's data show. -/
def execMdioDone (t : Time) (data : BitVec 16) (s : State) : Host.Outcome State Fault Refusal :=
  let s := s.tick t
  .next (match s.mdio with
  | some w =>
    let s := ({ s with mdio := none }).setB (R.eth_MDIO_STAT 0) 16 false
    if bit w 10 then s else s.setF (R.eth_MDIO_STAT 0) 15 0 data.toNat
  | none => s)

/-- ETH_LINK_CHANGE (R573). -/
def execEthLinkChange (t : Time) (n : Fin 2) (up aneg : Bool) (s : State) : Host.Outcome State Fault Refusal :=
  let s := s.tick t
  .next (if s.blockInReset (0x0C + n) then s
  else
    let up := up && s.calOk 3
    let a := R.eth_LSTAT n
    let was := s.b a 0
    let s := (s.setB a 0 up).setB a 1 (up && aneg)
    let s := if was && !up then s.inc a 31 16 else s
    s.irqIf (was ≠ up) (P.eth n) 12)

/-- A commit of an Ethernet page has taken effect. -/
def State.ethCommit (s : State) (n : Nat) : State := s.ethPick n

end Sys2Proof.Machine
end

