-- ==== Sys2Proof/Machine/Perf.lean ====
section
/-! DEFINITION. Performance counter commands: windows, freezing and overflow (chapter 18). -/

namespace Sys2Proof.Machine

def State.setPerf (s : State) (x : PerfSt) : State := { s with perf := x }

/-- Bring the slot counts of every engine up to date. -/
def State.slotsAll (s : State) : State := (List.range 32).foldl (fun s e => s.slots e (s.eng e).slotClass) s

/-- The length of cell c's window (R593). -/
def State.bwLen (s : State) (c : Nat) : Time := s.f (R.perfCell_BW_CFG c) 19 0 * 12000

/-- Port p of cell c at the end of a window. -/
def State.bwClose (s : State) (c p : Nat) : State :=
  let v := s.rd (R.perfCell_BW_CUR c p)
  let s := s.wr (R.perfCell_BW_LAST c p) v
  let s := if v.toNat > (s.rd (R.perfCell_BW_PEAK c p)).toNat then s.wr (R.perfCell_BW_PEAK c p) v else s
  s.wr (R.perfCell_BW_CUR c p) 0

/-- The window of cell c ends (R593); that of a retired cell is its last (R584). -/
def State.bwEnd (s : State) (c : Nat) : State :=
  let s := (List.range 6).foldl (fun s p => s.bwClose c p) s
  let cfg := R.perfCell_BW_CFG c
  let s := s.incMod cfg 31 28
  let s := s.irqIf (s.b cfg 25) (P.perfCell c) 12
  s.setPerf { s.perf with since := Tab.set s.perf.since c (Tab.get s.perf.since c 0 + s.bwLen c) 0,
                          stopped := if s.b (R.STATUS (cellPage c)) 3 then c :: s.perf.stopped else s.perf.stopped }

/-- BW_WINDOW_END (R593). -/
def execBwWindowEnd (t : Time) (c : Fin 8) (s : State) : Host.Outcome State Fault Refusal :=
  let s := s.tick t
  .next (if s.b (R.perfCell_BW_CFG c) 24 && !s.frozen && !s.perf.stopped.contains c && Tab.get s.perf.since c 0 + s.bwLen c ≤ s.now then s.bwEnd c else s)

/-- Counting stops, or resumes with each window where it stopped (R596). -/
def State.setFreeze (s : State) (on : Bool) : State :=
  let s := s.slotsAll
  if on = s.frozen then s
  else if on then (s.setPerf { s.perf with frozenAt := s.now }).setB R.perfCommon_PCTL 0 true
  else
    let d := s.now - s.perf.frozenAt
    (s.setPerf { s.perf with since := (List.range 8).foldl (fun x c => Tab.set x c (Tab.get x c 0 + d) 0) s.perf.since }).setB R.perfCommon_PCTL 0 false

/-- FREEZE (R596). -/
def execFreeze (t : Time) (m : Master) (on : Bool) (s : State) : Host.Outcome State Fault Refusal :=
  .next (s.gated t m R.perfCommon_PCTL (BitVec.ofNat 32 (b2n on)) fun s => s.setFreeze on)

/-- The value of an engine's ECYC, not reduced (R585). -/
def State.ecycRaw (s : State) (e : Nat) : Nat :=
  if (Tab.get s.perf.ecycKept e none).isSome then 0
  else match Tab.get s.perf.ecycFrom (e / 4) none with
    | some k => ecyc s.now - k
    | none => 0

/-- A counter that has wrapped sets its OVF bit, and its interrupt when asked (R594); ECYC sets OVF.ECYC (R585). -/
def State.counterWrap (s : State) (e i : Nat) : State :=
  let c := e / 4
  let l := e % 4
  if i < 8 then
    if s.perf.wraps.contains (e * 9 + i) then
      let s := s.setPerf { s.perf with wraps := s.perf.wraps.filter (· ≠ e * 9 + i) }
      let s := s.hwSetBits (R.perfCell_OVF c l) (BitVec.ofNat 32 (2 ^ i))
      s.irqIf (s.b (R.perfCell_PSEL c l i) 17) (P.perfCell c) (8 + l)
    else s
  else
    let n := s.ecycRaw e / 2 ^ 64
    if n > Tab.get s.perf.ecycWraps e 0 then
      (s.setPerf { s.perf with ecycWraps := Tab.set s.perf.ecycWraps e n 0 }).hwSetBits (R.perfCell_OVF c l) 0x100
    else s

/-- COUNTER_OVERFLOW (R594). -/
def execCounterOverflow (t : Time) (e : Fin 32) (i : CounterIdx) (s : State) : Host.Outcome State Fault Refusal :=
  let s := (s.tick t).slots e ((s.tick t).eng e).slotClass
  .next (s.counterWrap e i)

def State.clrPeak (s : State) (c : Nat) : State := (List.range 6).foldl (fun s p => s.wr (R.perfCell_BW_PEAK c p) 0) s

/-- CLR_PEAK (R593). -/
def execClrPeak (t : Time) (m : Master) (c : Fin 8) (s : State) : Host.Outcome State Fault Refusal :=
  .next (s.gated t m (R.CTRL (P.perfCell c)) (s.rd (R.CTRL (P.perfCell c)) ||| 0x100) fun s => s.clrPeak c)

/-- A commit of a cell performance page that changed BW_CFG or a filter starts a new window (R593); under FREEZE that window begins when counting resumes (R596). -/
def State.bwRestart (s : State) (c : Nat) : State :=
  let s := (List.range 6).foldl (fun s p => s.wr (R.perfCell_BW_CUR c p) 0) s
  s.setPerf { s.perf with since := Tab.set s.perf.since c (if s.frozen then s.perf.frozenAt else s.now) 0 }

/-- A commit of a cell performance page has taken effect (R593, R595). -/
def State.perfCommit (s : State) (c : Nat) (old : State) : State :=
  let ch (a m : Nat) : Bool := (s.rd a).toNat % m ≠ (old.rd a).toNat % m
  if ch (R.perfCell_BW_CFG c) (2 ^ 28) || (List.range 6).any (fun p => ch (R.perfCell_BWF c p) (2 ^ 32)) then s.bwRestart c else s

end Sys2Proof.Machine
end

