-- ==== Sys2Proof/Machine/Commit.lean ====
section
/-! DEFINITION. Staged fields, commit and group commit, and the write lock (sections 2.4 and 2.5). -/

namespace Sys2Proof.Machine

/-- The bits of an ST register. -/
def stMask (a : Nat) : Option W32 :=
  match rowOf a with
  | some r => if r.acc = .st then some (BitVec.ofNat 32 r.mask) else none
  | none => none

/-- The entries of a register table that lie in a page. -/
def ofPage (t : Tab W32) (p : Nat) : Tab W32 := t.filter fun e => e.1 / 0x1000 = p

/-- The state with captured values active on a page: the ST fields alone change (R50). -/
def State.withLatch (s : State) (p : Nat) (l : Tab W32) : State :=
  ((ofPage s.regs p ++ l).map (·.1)).foldl (fun s a =>
    match stMask a with
    | some m => s.wr a ((s.rd a &&& ~~~ m) ||| (Tab.get l a (resetOf a) &&& m))
    | none => s) s

/-- Copy every active value of a page into its stage (R58). -/
def State.unstage (s : State) (p : Nat) : State :=
  ((ofPage s.regs p ++ ofPage s.stage p).map (·.1)).foldl (fun s a =>
    match stMask a with
    | some m => s.wrStage a (s.rd a &&& m)
    | none => s) s

/-- Whether a page has ST fields, and whether it permits an immediate commit (R47). -/
def staged (p : Nat) : Bool := match pageKind p with
  | some (k, _) => pageCaps k % 2 = 1
  | none => false
def permitsImmed (p : Nat) : Bool := match pageKind p with
  | some (k, _) => pageCaps k / 2 % 2 = 1
  | none => false
def lockable (p : Nat) : Bool := match pageKind p with
  | some (k, _) => pageCaps k / 4 % 2 = 1
  | none => false

/-- Whether the pair mirrors a page (R432). -/
def mirrors (p : Nat) : Bool := match pageKind p with
  | some (k, _) => !notMirrored k
  | none => false

/-- Set COMMIT_STAT but for SEQ. -/
def State.commitStat (s : State) (p st reason field : Nat) : State :=
  let a := R.COMMIT_STAT p
  s.wr a (BitVec.ofNat 32 (st + reason * 256 + field * 65536 + s.f a 31 28 * 2 ^ 28))

/-- An unlocked page locks again (R66). -/
def State.relock (s : State) (p : Nat) : State := s.setPage p { s.page p with unlocked := false }

/-- A rejected request (R50, R56, R66). -/
def State.rejectCommit (s : State) (p reason field : Nat) : State := ((s.commitStat p 4 reason field).irqB p 1).relock p

/-- The reason and the field a failing check reports: RETIRED names no field (R56). -/
def chkReport (c : Chk) : Nat × Nat := (c.2, if c.2 = rRetired then 0 else c.1 % 0x1000 / 4)

/-- The checks of page p, with view v of what will be active: the failing one to report. -/
def State.checkPage (s v : State) (p : Nat) (imm : Bool) : Option (Nat × Nat) :=
  if imm && !permitsImmed p then some (7, 0)
  else match pageKind p with
    | some (k, n) => (lowestChk (pageChecks s v k n)).map chkReport
    | none => none

/-- Whether a commit of a page waits for a boundary although an immediate one was asked for (R433). -/
def State.atBoundary (s : State) (p : Nat) : Bool := s.pairMode && mirrors p

/-! ## COMMIT -/

/-- GO or ARM: BUSY while a check is in progress or a commit is pending; otherwise the stage is captured and its check begins (R50, R55, R61, R62, R636). -/
def State.commitRequest (s : State) (p : Nat) (arm imm : Bool) : State :=
  let x := s.page p
  if !staged p then s
  else if x.check.isSome || x.pend.isSome then s.rejectCommit p 1 0
  else s.setPage p { x with check := some { arm := arm, imm := imm && !arm, since := s.now }, checkLatch := ofPage s.stage p, armed := x.armed && arm }

/-- DISCARD (R58). -/
def State.commitDiscard (s : State) (p : Nat) : State :=
  if !staged p then s
  else
    let s := s.unstage p
    if (s.page p).armed then (s.setPage p { s.page p with armed := false }).commitStat p 0 0 0 else s

/-- A write of COMMIT: more than one request is rejected, none has no effect (R637). -/
def State.commitWrite (s : State) (p : Nat) (w : W32) : State :=
  let n := b2n (bit w 0) + b2n (bit w 1) + b2n (bit w 2)
  if !staged p || n = 0 then s
  else if n > 1 then s.rejectCommit p 2 7
  else if bit w 2 then s.commitDiscard p
  else s.commitRequest p (bit w 1) (bit w 4)

/-- COMMIT_GO (R50). -/
def execCommitGo (t : Time) (m : Master) (p : Fin 2048) (imm : Bool) (s : State) : Host.Outcome State Fault Refusal :=
  .next (s.gated t m (R.COMMIT p) (if imm then 0x11 else 1) fun s => s.commitRequest p false imm)

/-- COMMIT_ARM (R61). -/
def execCommitArm (t : Time) (m : Master) (p : Fin 2048) (s : State) : Host.Outcome State Fault Refusal :=
  .next (s.gated t m (R.COMMIT p) 2 fun s => s.commitRequest p true false)

/-- COMMIT_DISCARD (R58). -/
def execCommitDiscard (t : Time) (m : Master) (p : Fin 2048) (s : State) : Host.Outcome State Fault Refusal :=
  .next (s.gated t m (R.COMMIT p) 4 fun s => s.commitDiscard p)

/-- COMMIT_CONFLICT (R637). -/
def execCommitConflict (t : Time) (m : Master) (p : Fin 2048) (val : W32) (s : State) : Host.Outcome State Fault Refusal :=
  .next (s.gated t m (R.COMMIT p) val fun s => s.commitWrite p val)

/-- The armed pages, lowest address first. -/
def State.armedPages (s : State) : List Nat := (s.pages.filter fun (e : Nat × PageSt) => e.2.armed).map (·.1)

/-- The view of an ARM of page p: the pages armed already belong to the same group, so that their latched values count (R57). -/
def State.armedView (s : State) (p : Nat) : State := (s.armedPages.filter (· ≠ p)).foldl (fun v q => v.withLatch q (s.page q).armLatch) s

/-- The check in progress ends (R50, R61, R62, R636). -/
def State.endCheck (s : State) (p : Nat) (c : Check) : State :=
  let x := s.page p
  let fail := s.checkPage ((if c.arm then s.armedView p else s).withLatch p x.checkLatch) p c.imm
  let s := if p = P.crater || p = P.lpSrc then s.useFree else s
  let s := s.setPage p { x with check := none, checkLatch := [], armed := x.armed && !(c.arm && fail.isSome) }
  match fail with
  | some r => s.rejectCommit p r.1 r.2
  | none =>
    if c.arm then (s.setPage p { s.page p with armed := true, armLatch := x.checkLatch }).commitStat p 2 0 0
    else
      let wait := s.atBoundary p
      let w : Pend := { imm := c.imm && !wait, since := if c.imm && wait then s.now else c.since, group := false }
      (s.setPage p { s.page p with pend := some w, latch := x.checkLatch }).commitStat p 1 0 0

/-- COMMIT_CHECK_END (R50, R636). -/
def execCommitCheckEnd (t : Time) (p : Fin 2048) (s : State) : Host.Outcome State Fault Refusal :=
  let s := s.tick t
  .next (match (s.page p).check with
  | some c => s.endCheck p c
  | none => s)

/-! ## What a commit changes in a block -/

/-- Sinter waits for PARAM_ACK in SAFE (R494). Its state code leaves SELFTEST, HOLD and LATCHED only as Table 14.7 says. -/
def State.sinCommit (s : State) : State :=
  let s := (s.setSin { s.sin with paramPend := true }).irqB P.sinCore 14
  if s.sin.state = 4 then s.sinState 3 else s

/-- An axis that comes under Sinter, or whose TRIG changes, while a pair it selects demands has a stop demand (R476). -/
def State.axisCommit (s : State) (a : Nat) (old : State) : State :=
  if s.underSinter a && s.rd (sfcfg a) ≠ old.rd (sfcfg a) && (List.range 2).any (fun p => trigSelects (s.f (sfcfg a) 3 2) p && s.pairDemand p) then s.stopOwn a
  else s

/-- A connection that a commit has just enabled starts anew. -/
def State.connCommit (s : State) (b sl : Nat) (old : State) : State :=
  if s.safetyNode b sl && !old.safetyNode b sl then s.setConn b sl {} else s

/-- A commit of the pair page: without EN the device leaves the pair (R429); the transmitters are judged anew. -/
def State.pairCommit (s : State) (old : State) : State :=
  if old.pairMode && !s.pairMode then (s.leaveStandby.setPair { s.leaveStandby.pair with sync := 0, partnerSync := false, final := false, round := 0 }).txReview
  else s.pairHold

/-- A commit of a branch page (R334, R443). An unpaired branch has no D_total (Table 10.10). -/
def State.branchCommit (s : State) (b : Nat) (old : State) : State :=
  let s := if s.brEn b && !old.brEn b then s.branchStart b else if old.brEn b && !s.brEn b then s.branchOff b else s
  if !s.b (R.branch_BRCFG b) 2 then (s.wr (R.nodeTable_DTOTAL b) 0).wr (R.pair_FARFIT b) 0
  else if (List.range 24).any fun sl => s.rd (R.branch_REL b sl) ≠ old.rd (R.branch_REL b sl) then
    let s := (s.measured b).foldl (fun s h => s.setFar b h) s
    s.setFarfit b
  else s

/-- Some registers of a unit have changed. -/
def State.differs (s old : State) (l : List Nat) : Bool := l.any fun a => s.rd a ≠ old.rd a

/-- What the block does at the boundary, or the instant, at which a commit of its page takes effect. -/
def State.commitEffect (s : State) (old : State) (k : PageKind) (n : Nat) : State :=
  let each (m : Nat) (f : State → Nat → State) : State := (List.range m).foldl f s
  match k with
  | .reset => if s.rd R.reset_WDOG_CFG ≠ old.rd R.reset_WDOG_CFG then s.wdogRestart else s
  | .invarCore => s.invCommit (old.rd R.invarCore_CFG)
  | .invarEv => each 64 fun s u => if s.differs old [R.invarEv_DUE_LO u, R.invarEv_DUE_HI u, R.invarEv_PERIOD u, R.invarEv_ECFG u] then s.evCommit u old else s
  | .sinCore | .sinClass => s.sinCommit
  | .sinAxis => ((List.range 32).foldl (fun s i => s.axisCommit (32 * n + i) old) s).sinCommit
  | .sinNode => ((List.range 24).foldl (fun s sl => s.connCommit n sl old) s).sinCommit
  | .dma => each 16 fun s c => s.dmaCommit c (old.chEn c)
  | .lpSrc => each 4 fun s l => s.lpCommit l (old.rd (R.lpSrc_LPCFG l))
  | .cmp => each 8 fun s c => s.cmpCommit c old
  | .ae => each 128 fun s i => if s.differs old [R.ae_X_LO n i, R.ae_X_HI n i, R.ae_AECFG n i] then s.aeCommit (128 * n + i) old else s
  | .qe => if s.rd (R.qe_MOD_M1 n) ≠ old.rd (R.qe_MOD_M1 n) then s.qeModCommit n else s
  | .geyChan => each 64 fun s i => s.gCommit (64 * n + i) (old.gEn (64 * n + i))
  | .branch => s.branchCommit n old
  | .pair => s.pairCommit old
  | .can => s.canCommit n old
  | .eth => s.ethCommit n
  | .perfCell => s.perfCommit n old
  | .axis => s.axCommit n old
  | _ => s

/-- A pending commit takes effect: the latched values become active together (R52, R54, R66), and with the last page of a group GCOMMIT_STAT reads DONE (R62). -/
def State.takeEffect (s : State) (p : Nat) (w : Pend) : State :=
  match pageKind p with
  | none => s
  | some (k, n) =>
    let s := if k = .perfCell then s.slotsAll else s
    let old := s
    let x := s.page p
    let s := (s.withLatch p x.latch).setPage p { x with pend := none, latch := [], unlocked := false }
    let s := ((s.commitStat p 3 0 0).incMod (R.COMMIT_STAT p) 31 28).irqB p 0
    let s := s.commitEffect old k n
    if w.group && !(s.pages.any fun (e : Nat × PageSt) => match e.2.pend with
      | some y => y.group
      | none => false) then s.wr R.chip_GCOMMIT_STAT 3 else s

/-- Whether a pending commit is due at a boundary at instant x (R52). -/
def Pend.due (w : Pend) (x : Time) : Bool := !w.imm && x ≥ w.since + 2048

/-- COMMIT_TAKE_EFFECT (R52): at the first boundary that comes 128 engine cycles or more after GO. -/
def execCommitTakeEffect (t : Time) (p : Fin 2048) (s : State) : Host.Outcome State Fault Refusal :=
  let s := s.tick t
  .next (match (s.page p).pend with
  | some w => if (s.cycleDue && w.due s.now) || (s.cycling && w.due s.tau) then s.takeEffect p w else s
  | none => s)

/-- COMMIT_IMMEDIATE (R54). -/
def execCommitImmediate (t : Time) (p : Fin 2048) (s : State) : Host.Outcome State Fault Refusal :=
  let s := s.tick t
  .next (match (s.page p).pend with
  | some w => if w.imm then s.takeEffect p w else s
  | none => s)

/-- Every commit due at the boundary, in the order of the pages. -/
def State.takeDue (s : State) : State :=
  s.pages.foldl (fun s (e : Nat × PageSt) => match e.2.pend with
    | some w => if w.due s.now then s.takeEffect e.1 w else s
    | none => s) s

/-! ## Group commit (R61, R62) -/

/-- The outcome of the group check for each armed page: none where it passes. -/
def State.groupChecks (s : State) (l : List Nat) (imm : Bool) : List (Nat × Option (Nat × Nat)) :=
  if imm && l.any (fun p => !permitsImmed p) then l.map fun p => (p, if permitsImmed p then none else some (7, 0))
  else
    let v := l.foldl (fun v p => v.withLatch p (s.page p).armLatch) s
    l.map fun p => (p, s.checkPage v p imm)

/-- A page of a group that has passed becomes PENDING. -/
def State.groupPend (s : State) (p : Nat) (imm : Bool) : State :=
  let x := s.page p
  (s.setPage p { x with armed := false, pend := some { imm := imm && !s.atBoundary p, since := s.now, group := true }, latch := x.armLatch, armLatch := [] }).commitStat p 1 0 0

/-- A page of a group that has failed: its own reason, or GROUP_ABORT. -/
def State.groupFail (s : State) (r : Nat × Option (Nat × Nat)) : State :=
  let s := s.setPage r.1 { s.page r.1 with armed := false, armLatch := [] }
  match r.2 with
  | some x => s.rejectCommit r.1 x.1 x.2
  | none => s.rejectCommit r.1 9 0

/-- GCOMMIT.GO. -/
def State.groupGo (s : State) (imm : Bool) : State :=
  let l := s.armedPages
  if l.isEmpty then s.wr R.chip_GCOMMIT_STAT 0xB04
  else
    let rs := s.groupChecks l imm
    let s := s.useFree
    match rs.find? fun r => r.2.isSome with
    | some (p, some r) => (rs.foldl State.groupFail s).wr R.chip_GCOMMIT_STAT (BitVec.ofNat 32 (4 + r.1 * 256 + p * 65536))
    | _ => (l.foldl (fun s p => s.groupPend p imm) s).wr R.chip_GCOMMIT_STAT 1

/-- A write of GCOMMIT. -/
def State.gcommitWrite (s : State) (w : W32) : State := if bit w 0 then s.groupGo (bit w 4) else s

/-- GCOMMIT_GO (R61). -/
def execGcommitGo (t : Time) (m : Master) (imm : Bool) (s : State) : Host.Outcome State Fault Refusal :=
  .next (s.gated t m R.chip_GCOMMIT (if imm then 0x11 else 1) fun s => s.groupGo imm)

/-! ## The write lock (R63 to R66, R641) -/

/-- The limit between the two keys: 65,536 engine cycles. -/
def keyLimit : Time := 65536 * 16

/-- A page of Sinter unlocks only while every axis is safe (R494). -/
def State.mayUnlock (s : State) (p : Nat) : Bool :=
  match pageKind p with
  | some (.sinCore, _) | some (.sinClass, _) | some (.sinAxis, _) | some (.sinNode, _) => s.safeAll
  | _ => true

/-- A write of LOCK. -/
def State.lockWrite (s : State) (p : Nat) (w : W32) : State :=
  let x := s.page p
  if !lockable p then s
  else if w = 0xA5C3 then s.setPage p { x with key1 := some s.now }
  else
    let opens : Bool := w = 0x3C5A && s.mayUnlock p && (match x.key1 with
      | some k => s.now - k ≤ keyLimit
      | none => false)
    s.setPage p { x with key1 := none, unlocked := opens }

/-- LOCK_KEY1 (R65, R641). -/
def execLockKey1 (t : Time) (m : Master) (p : Fin 2048) (s : State) : Host.Outcome State Fault Refusal :=
  .next (s.gated t m (R.LOCK p) 0xA5C3 fun s => s.lockWrite p 0xA5C3)

/-- LOCK_KEY2 (R65, R494). -/
def execLockKey2 (t : Time) (m : Master) (p : Fin 2048) (s : State) : Host.Outcome State Fault Refusal :=
  .next (s.gated t m (R.LOCK p) 0x3C5A fun s => s.lockWrite p 0x3C5A)

/-- LOCK_OTHER_VALUE (R65, R66). -/
def execLockOtherValue (t : Time) (m : Master) (p : Fin 2048) (val : W32) (s : State) : Host.Outcome State Fault Refusal :=
  .next (s.gated t m (R.LOCK p) val fun s => s.lockWrite p val)

/-- UNLOCK_TIMEOUT (R65): more than 65,536 engine cycles since the first key. -/
def execUnlockTimeout (t : Time) (p : Fin 2048) (s : State) : Host.Outcome State Fault Refusal :=
  let s := s.tick t
  .next (match (s.page p).key1 with
  | some k => if s.now - k > keyLimit then s.setPage p { s.page p with key1 := none } else s
  | none => s)

/-! ## ERR_INFO (R68) -/

/-- A write of ERR_INFO: with VALID, COUNT is cleared too. -/
def State.errInfoWrite (s : State) (w : W32) : State :=
  if bit w 0 && s.w1cBits R.chip_ERR_INFO 1 ≠ 0 then (s.setB R.chip_ERR_INFO 0 false).setF R.chip_ERR_INFO 15 8 0 else s

/-- ERR_INFO_CLEAR (R68). -/
def execErrInfoClear (t : Time) (m : Master) (s : State) : Host.Outcome State Fault Refusal :=
  .next (s.gated t m R.chip_ERR_INFO 1 fun s => s.errInfoWrite 1)

end Sys2Proof.Machine
end

