-- ==== Sys2Proof/Machine/Pads.lean ====
section
/-! DEFINITION. Pads, GPIO and the two-wire master (section 19.6). -/

namespace Sys2Proof.Machine

/-- GPIO_SET (R615). -/
def execGpioSet (t : Time) (m : Master) (bits : BitVec 16) (s : State) : Host.Outcome State Fault Refusal :=
  .next (s.gated t m R.chip_GPIO_SET (bits.setWidth 32) fun s => s.wr R.chip_GPIO_OUT (s.rd R.chip_GPIO_OUT ||| bits.setWidth 32))

/-- GPIO_CLR (R615). -/
def execGpioClr (t : Time) (m : Master) (bits : BitVec 16) (s : State) : Host.Outcome State Fault Refusal :=
  .next (s.gated t m R.chip_GPIO_CLR (bits.setWidth 32) fun s => s.wr R.chip_GPIO_OUT (s.rd R.chip_GPIO_OUT &&& ~~~ (bits.setWidth 32 : W32)))

/-- The stored bits of a PAD register (Table 19.7). -/
def padMask : W32 := 0x7F7

/-- PAD_WRITE (R613). -/
def execPadWrite (t : Time) (m : Master) (k : Fin 64) (val : W32) (s : State) : Host.Outcome State Fault Refusal :=
  .next (s.gated t m (R.chip_PAD k) val fun s => s.wr (R.chip_PAD k) (val &&& padMask))

/-- The two-wire command in progress ends. -/
def State.twiEnd (s : State) : State := (({ s with twi := none }).setB R.chip_TWI_STAT 8 false).irqB P.chip 8

/-- TWI_CMD starts a command; while one runs, or with EN 0, it is discarded (R616). -/
def State.twiCmd (s : State) (val : W32) : State :=
  if s.twi.isSome || !s.b R.chip_TWI_CFG 0 then s.hwSetBits R.chip_TWI_STAT 0x8000
  else ({ s with twi := some val }).setB R.chip_TWI_STAT 8 true

/-- TWI_CMD (R616). -/
def execTwiCmd (t : Time) (m : Master) (val : W32) (s : State) : Host.Outcome State Fault Refusal :=
  .next (s.gated t m R.chip_TWI_CMD val fun s => s.twiCmd val)

/-- What the command in progress leaves: a byte sent with its acknowledge, or a byte received. -/
def State.twiResult (s : State) (w : W32) (acked : Bool) (rx : Byte) : State :=
  if bit w 10 then s.setF R.chip_TWI_STAT 7 0 rx.toNat
  else
    let s := s.setB R.chip_TWI_STAT 9 acked
    if acked then s else s.hwSetBits R.chip_TWI_STAT 0x1000

/-- TWI_DONE (R616): the command ends, or is given up because SDA read low where the master released it. -/
def execTwiDone (t : Time) (acked : Bool) (rx : Byte) (arbLost : Bool) (s : State) : Host.Outcome State Fault Refusal :=
  let s := s.tick t
  .next (match s.twi with
  | some w => (if arbLost then s.hwSetBits R.chip_TWI_STAT 0x2000 else s.twiResult w acked rx).twiEnd
  | none => s)

/-- TWI_TIMEOUT (R616): a slave has held SCL low for 25 ms. -/
def execTwiTimeout (t : Time) (s : State) : Host.Outcome State Fault Refusal :=
  let s := s.tick t
  .next (if s.twi.isSome then (s.hwSetBits R.chip_TWI_STAT 0x4000).twiEnd else s)

/-- The I/O bank of pad k, from 0 (Table 19.1). -/
def padBank (k : Nat) : Nat :=
  if k < 12 || (24 ≤ k && k < 28) || 62 ≤ k then 0 else if k < 32 then 1 else if k < 56 then 2 else 3

/-- The pad serves its function: EN, in a bank that is in use (Table 19.7, R621). -/
def State.padServes (s : State) (k : Nat) : Bool := bit (s.rd (R.chip_PAD k)) 0 && s.bankClass (padBank k) ≠ .unused

/-- The level at which the block drives the output pad k: a compare output (R279), PPS_OUT, a GPIO with its OE; none for another pad. -/
def State.padDrive (s : State) (k : Nat) : Option Bool :=
  if 24 ≤ k && k < 32 then some (s.cmpLevel (k - 24) (s.cmp (k - 24)).pulse.isSome)
  else if k = 63 then some s.inv.ppsOut
  else if 32 ≤ k && k < 48 && s.b R.chip_GPIO_OE (k - 32) then some (s.b R.chip_GPIO_OUT (k - 32))
  else none

/-- Bit i of GPIO_IN and LEVEL of pad k: high while the pad does not serve its function (R613), the driven level of a pin the device drives, and otherwise
whatever the board drives, which is free. -/
def State.padLevel (s : State) (k : Nat) : Bool :=
  let p := s.rd (R.chip_PAD k)
  if !s.padServes k then true
  else if (k = 52 || k = 53) && bit p 8 then bit p 10 && Config.freeChoice s.freeCtr k
  else if bit p 8 then (if bit p 9 then bit p 10 else Config.freeChoice s.freeCtr k)
  else (s.padDrive k).getD (Config.freeChoice s.freeCtr k)

end Sys2Proof.Machine
end

