-- ==== Sys2Proof/Machine/Read.lean ====
section
/-! DEFINITION. What a read of a register returns: the values computed when they are read, staged views, and the shadows of R45, R397 and R601. -/

namespace Sys2Proof.Machine

/-! ## The header (Tables 2.3 and 2.4) -/

/-- ID.INST: the branch, axis, cell, engine or channel of the page, and otherwise its number within the region (notes/assumptions/41.md). -/
def pageInst (k : PageKind) (n p : Nat) : Nat :=
  match k with
  | .branch | .nodeTable | .axis | .cell | .engine | .qe | .perfCell | .xlCell => n
  | _ => p % 16

/-- The fault disposition class and channel of a page that shows one (Table 14.1). -/
def pageFd (k : PageKind) (n : Nat) : Option (Nat × Nat) :=
  match k with
  | .branch => some (1, n)
  | .lvPort => some (2, n)
  | .pair => some (3, 0)
  | .engine => some (4, n)
  | .cell => some (5, n)
  | .qe => some (6, n)
  | .can => some (8, n)
  | _ => none

def State.readFdisp (s : State) (k : PageKind) (n : Nat) : W32 :=
  match pageFd k n with
  | some (c, ch) => (s.fdCh c ch).word
  | none => 0

/-- A number for each kind of page, to which the free type codes are applied (notes/assumptions/4.md). -/
def pageTypeIx : PageKind → Nat
  | .chip => 0
  | .reset => 1
  | .fuse => 2
  | .invarCore => 3
  | .invarPtp => 4
  | .invarEv => 5
  | .sinCore => 6
  | .sinClass => 7
  | .sinAxis => 8
  | .sinNode => 9
  | .pcie => 10
  | .router => 11
  | .msix => 12
  | .dma => 13
  | .xlCommon => 14
  | .xlCell => 15
  | .lahar => 16
  | .lpSrc => 17
  | .cmp => 18
  | .ae => 19
  | .qe => 20
  | .geyCommon => 21
  | .geyChan => 22
  | .geyTrig => 23
  | .crater => 24
  | .branch => 25
  | .nodeTable => 26
  | .pair => 27
  | .lvCommon => 28
  | .lvPort => 29
  | .can => 30
  | .eth => 31
  | .perfCommon => 32
  | .perfCell => 33
  | .cell => 34
  | .engine => 35
  | .axis => 36

/-- A code that is not yet used: x, or when it is, the lowest that is not. -/
def freshCode (l : List Nat) (x : Nat) : Nat := if l.contains x then ((List.range 64).find? fun y => !l.contains y).getD 0 else x

/-- The codes of the kinds of page from the chip page's PART on: free, but unique (R47, notes/assumptions/4.md). -/
def pageCodes : Nat → List Nat
  | 0 => [0x1280]
  | n + 1 => pageCodes n ++ [freshCode (pageCodes n) (Config.pageType (n + 1)).toNat]

/-- ID.TYPE; PART of the chip page. -/
def pageTypeOf (k : PageKind) : Nat := (pageCodes 36).getD (pageTypeIx k) 0

/-- ID. -/
def idWord (k : PageKind) (n p : Nat) : W32 := BitVec.ofNat 32 (0xB0 + pageInst k n p * 256 + pageTypeOf k * 65536)

def State.readHeader (s : State) (k : PageKind) (n p o : Nat) : W32 :=
  match o with
  | 0x000 => idWord k n p
  | 0x004 => BitVec.ofNat 32 (pageCaps k)
  | 0x00C => setFld (s.rd (p * 0x1000 + 0xC)) 2 0 (b2n (s.page p).pend.isSome + 2 * b2n (s.page p).armed + 4 * b2n (s.locked k p))
  | 0x024 => s.readFdisp k n
  | 0x028 => BitVec.ofNat 32 (b2n (s.locked k p) + 2 * b2n (s.locked k p && (s.page p).key1.isSome))
  | _ => s.rd (p * 0x1000 + o)

/-! ## Registers computed when they are read -/

def State.readChip (s : State) (o : Nat) : Option W32 :=
  if o = 0xA0 then some (BitVec.ofNat 32 ((List.range 16).foldl (fun v i => v + b2n (s.padLevel (32 + i)) * 2 ^ i) 0))
  else if o = 0xA8 || o = 0xAC then some (s.rd R.chip_GPIO_OUT)
  else if 0x100 ≤ o && o < 0x200 then
    let k := (o - 0x100) / 4
    some (s.rd (R.chip_PAD k) ||| BitVec.ofNat 32 (b2n (s.padLevel k) * 65536))
  else none

/-- Milliseconds the watchdog has left, 0 while it is stopped (Table 15.10). -/
def State.wdogLeft (s : State) : Nat :=
  match s.wdogElapsed with
  | some d => s.f R.reset_WDOG_CFG 31 16 - d / 12000000
  | none => 0

def State.readReset (s : State) (o : Nat) : Option W32 :=
  match o with
  | 0x04C => some (setFld (setFld (s.rd R.reset_RST_STAT) 8 8 (b2n (s.rst.exitStep ≠ 0))) 14 12 s.rst.exitStep)
  | 0x054 => some (BitVec.ofNat 32 s.wdogLeft)
  | _ => none

/-- A half of a 48-bit value: 0 the low register, 1 the high one, sign-extended (R44). -/
def half48 (v : W48) (h : Nat) : W32 := BitVec.ofInt 32 (if h = 0 then v.toInt else v.toInt / 2 ^ 32)

def State.readInvar (s : State) (o : Nat) : Option W32 :=
  match o with
  | 0x058 => some (setFld (s.rd R.invarCore_STAT) 15 8 s.missedMeas)
  | 0x070 => some (half48 s.nsNow 0)
  | 0x074 => some (half48 s.nsNow 1)
  | 0x078 => some (half48 (s.secAt s.now).1 0)
  | 0x07C => some (half48 (s.secAt s.now).1 1)
  | 0x080 => some (BitVec.ofNat 32 (s.devTime s.now % 65536))
  | _ => none

/-- SAFE_OK (R490): both channels healthy and the state SAFE or RUN. -/
def State.safeOk (s : State) : Bool := s.sin.chA && s.sin.chB && (s.sin.state = 3 || s.sin.state = 4)

def State.readSinter (s : State) (o : Nat) : Option W32 :=
  let x := s.sin
  let pr (p : Nat) : SinPair := x.pairs.getD p {}
  match o with
  | 0x050 => some (BitVec.ofNat 32 (x.state + b2n s.safeAll * 8 + b2n s.safeOk * 16 + b2n x.chA * 32 + b2n x.chB * 64 + b2n x.paramPend * 128 + x.cause * 256))
  | 0x054 => some (setFld (s.rd R.sinCore_OUTSTAT) 5 0
      (b2n x.hs + b2n x.ls * 2 + b2n x.hsFb * 4 + b2n x.lsFb * 8 + b2n x.test.isSome * 16 + b2n x.outFault * 32))
  | 0x058 => some (BitVec.ofNat 32 ((List.range 4).foldl (fun v i => v + b2n (x.inputs.getD i {}).level * 2 ^ i) 0 +
      b2n (pr 0).demand * 0x100 + b2n (pr 1).demand * 0x200 + b2n (pr 0).disc * 0x400 + b2n (pr 1).disc * 0x800 +
      b2n (pr 0).agreed * 0x1000 + b2n (pr 1).agreed * 0x2000))
  | 0x064 => some s.paramCrc
  | _ => none

def State.readSinAxis (s : State) (n o : Nat) : Option W32 :=
  if 0x100 ≤ o && o % 32 = 0x14 then
    let a := n * 32 + (o - 0x100) / 32
    let x := s.sax a
    some (BitVec.ofNat 32 (s.axState a + b2n (s.slsActive a) * 8 + b2n x.speed * 16 + b2n x.torqueOff * 32 + x.spd.toNat * 2 ^ 20))
  else none

def State.readPcie (s : State) (o : Nat) : Option W32 :=
  let x := s.pcie
  if o = 0x40 then some (BitVec.ofNat 32 (b2n x.up + x.speed.toNat * 2 + x.width.toNat * 16 + b2n x.busMaster * 128 + b2n x.memEn * 256 + b2n x.d3hot * 512))
  else none

def State.readRouter (s : State) (o : Nat) : Option W32 :=
  if o = 0x40 || o = 0x44 then
    some (BitVec.ofNat 32 ((List.range 32).foldl (fun v i => v + b2n (s.vecAsserted ((o - 0x40) * 8 + i)) * 2 ^ i) 0))
  else none

def State.readMsix (s : State) (o : Nat) : Option W32 :=
  if o = 0xC00 then some (s.pcie.pba.setWidth 32) else if o = 0xC04 then some (BitVec.ofNat 32 (s.pcie.pba.toNat / 2 ^ 32)) else none

/-- OP_STATE of operation i of the active graph (Table 5.11). -/
def State.opStateWord (s : State) (i : Nat) : W32 :=
  match s.graph with
  | none => 0
  | some g =>
    if i ≥ g.ops.length then 0
    else
      let x := s.opSt (opKey s.bankNo i)
      let inS := x.phase = 2 || x.phase = 3
      let toks := (List.range 8).foldl (fun v p => v + (match g.feed i p with
        | some j => b2n (s.tok j).isSome
        | none => 0) * 2 ^ p) 0
      BitVec.ofNat 32 (x.phase + s.execCell (s.opRec (opKey s.bankNo i)).cell * 16 + (if inS then x.eng % 4 else 0) * 256 +
        (if inS then x.depth else 0) * 1024 + toks * 2 ^ 12 + min x.aborts 255 * 2 ^ 20 + x.code * 2 ^ 28)

def State.readLahar (s : State) (o : Nat) : Option W32 :=
  if o = 0x060 then some (s.opStateWord (s.f R.lahar_OP_QUERY 11 0)) else none

/-- CHSTAT shows the fault level of its channel (Table 11.6). -/
def State.readGeyChan (s : State) (n o : Nat) : Option W32 :=
  let c := (o - 0x100) / 32
  if 0x100 ≤ o && o % 32 = 0x1C then some (setFld (s.rd (R.geyChan_CHSTAT n c)) 15 8 (s.fdCh 7 (64 * n + c)).level) else none

def State.readCrater (s : State) (o : Nat) : Option W32 :=
  if o = 0x048 then
    some (BitVec.ofNat 32 ((List.range 8).foldl (fun v b => v + b2n (s.brEn b) * 2 ^ b + b2n (s.driven b || s.bstate b = 7) * 2 ^ (8 + b)) 0))
  else none

def State.readBranch (s : State) (b o : Nat) : Option W32 :=
  let x := s.branch b
  match o with
  | 0x068 => some (setFld (s.rd (R.branch_DQ_STAT b)) 4 0 x.txq.length)
  | 0x06C => some (BitVec.ofNat 32 (x.rxq.length + (x.rxq.head?.elim 0 (·.buf)) * 256 + b2n (x.rxq.length = 16) * 65536))
  | 0x070 => some (match x.rxq.head? with
    | some m => BitVec.ofNat 32 (m.len + m.slot * 2 ^ 16 + m.ms * 2 ^ 24)
    | none => 0)
  | _ => none

def State.readNode (s : State) (b o : Nat) : Option W32 :=
  if 0x300 ≤ o && o % 16 = 0xC then some (s.nodeFd b ((o - 0x300) / 16)) else none

def State.readPair (s : State) (o : Nat) : Option W32 :=
  let x := s.pair
  match o with
  | 0x048 => some (BitVec.ofNat 32 (s.role + x.sync * 4 + b2n s.sideB * 16 + b2n x.claim * 32 + b2n x.peerClaim * 64 + b2n x.intlkHigh * 128 +
      b2n s.txEnabled * 256 + b2n x.pxUp * 512 + b2n x.intlkFault * 1024 +
      ((List.range 8).foldl (fun v b => v + b2n (s.bstate b = 7 || (s.branch b).echoOn) * 2 ^ b) 0) * 2 ^ 16 + x.round * 2 ^ 24))
  | 0x05C => some (BitVec.ofNat 32 ((s.pxF + 7) / 8 + 3 * s.pxB / 32 * 65536))
  | _ => none

/-- LVSTAT [30:24]: at the root the sources that broadcast; those of other devices reach this one by no command, so that beside other devices it is free. -/
def State.castShown (s : State) : Nat :=
  if !s.b R.lvCommon_LVSTAT 7 then 0
  else if s.f R.lvCommon_LVSTAT 22 16 ≤ 1 then s.casts
  else (Config.freeW32 s.freeCtr).toNat % 128

def State.readLuavan (s : State) (o : Nat) : Option W32 :=
  if o = 0x044 then some (setFld (s.rd R.lvCommon_LVSTAT) 30 24 s.castShown) else none

/-- LDELAY while the link is up is measured, and free (notes/assumptions/42.md). -/
def State.readLvPort (s : State) (p o : Nat) : Option W32 :=
  if o = 0x044 then some (if s.b (R.lvPort_LSTAT p) 0 then Config.freeW32 s.freeCtr &&& 0xFFFFF else 0) else none

def State.readPerf (s : State) (c o : Nat) : Option W32 :=
  if 0x100 ≤ o && o < 0x500 then
    let e := c * 4 + (o - 0x100) / 0x100
    if o % 0x100 = 0 then some (BitVec.ofNat 32 (s.ecycOf e))
    else if o % 0x100 = 4 then some (BitVec.ofNat 32 (s.ecycOf e / 2 ^ 32))
    else none
  else none

def State.readCell (s : State) (c o : Nat) : Option W32 :=
  if o = 0x088 then
    let w := setFld (s.rd (R.cell_COPY_STAT c)) 29 16 (s.copyLines c)
    some (if (s.copyInto c).any fun x => x.bad.any fun b => b < s.copied x then setFld w 2 2 1 else w)
  else none

/-- STATE.RUN (Table 3.14): RETIRED, IDLE, STALL while an issue slot is open behind a far load, after DONE or in a spill or read-back, or RUN. -/
def State.engRun (s : State) (e : Nat) : Nat :=
  let g := s.eng e
  if !s.engUp e then 3 else if g.servs.isEmpty then 0
  else if g.slotAt ≤ ecyc s.now && (g.slotClass = 2 || g.slotClass = 3 || g.slotClass = 4) then 2 else 1

def State.readEngine (s : State) (e o : Nat) : Option W32 :=
  let g := s.eng e
  match o with
  | 0x040 => some (BitVec.ofNat 32 (s.engRun e + s.inService e * 4 + b2n (g.servs.length = 3 || g.mode = 2) * 16 + b2n (g.servs.length ≥ 2) * 32))
  | 0x044 => some (match s.top e with
    | some v => BitVec.ofNat 32 (v.key % 4096 + (s.opRec v.key).ctx * 65536 + 2 ^ 31)
    | none => 0)
  | 0x048 => some (match s.top e with
    | some _ => BitVec.ofNat 32 (g.ad % 8192)
    | none => 0)
  | _ => none

/-- RING_CREDIT.DMA_WAIT (R235): a channel waits for credit of the axis's ring. -/
def State.ringWaits (s : State) (a : Nat) : Bool :=
  (List.range 16).any fun c => s.chState c = 3 && (s.dmaCh c).desc.any fun d => isRing d && descAxis d = a

def State.readAxis (s : State) (a o : Nat) : Option W32 :=
  if o = 0x140 then some (setFld (s.rd (R.axis_RING_CREDIT a)) 17 17 (b2n (s.ringWaits a))) else none

/-- Registers whose value is computed when they are read. -/
def State.computed (s : State) (k : PageKind) (n o : Nat) : Option W32 :=
  match k with
  | .chip => s.readChip o
  | .reset => s.readReset o
  | .invarCore => s.readInvar o
  | .sinCore => s.readSinter o
  | .sinAxis => s.readSinAxis n o
  | .pcie => s.readPcie o
  | .router => s.readRouter o
  | .msix => s.readMsix o
  | .lahar => s.readLahar o
  | .geyChan => s.readGeyChan n o
  | .crater => s.readCrater o
  | .branch => s.readBranch n o
  | .nodeTable => s.readNode n o
  | .pair => s.readPair o
  | .lvCommon => s.readLuavan o
  | .lvPort => s.readLvPort n o
  | .perfCell => s.readPerf n o
  | .cell => s.readCell n o
  | .engine => s.readEngine n o
  | .axis => s.readAxis n o
  | _ => none

/-! ## One register -/

/-- What a row of the register tables reads as: WO reads 0, staged bits show the stage while STAGE_VIEW is set (R10), and an upper half is sign-extended. -/
def State.readRow (s : State) (r : RegRow) (a : Nat) : W32 :=
  let v := s.rd a
  let v := if r.acc = .wo then 0
    else if r.acc = .st && s.b (R.CTRL (a / 0x1000)) 0 then
      (s.rdStage a &&& BitVec.ofNat 32 r.mask) ||| (v &&& ~~~ BitVec.ofNat 32 r.mask)
    else v
  if r.sx then BitVec.ofInt 32 (sfld v 15 0) else v

/-- The live value of a register; an unused offset reads 0 (R11). -/
def State.regRead (s : State) (a : Nat) : W32 :=
  match pageKind (a / 0x1000) with
  | none => 0
  | some (k, n) =>
    let o := a % 0x1000
    match rowOf a with
    | none => 0
    | some r =>
      if o < 0x40 then (if r.acc = .wo && o ≠ 0x28 then 0 else s.readHeader k n (a / 0x1000) o)
      else match s.computed k n o with
        | some v => v
        | none => s.readRow r a

/-! ## Reads by a master -/

/-- Whether a read of a register fails, and its state then (R40, R513, R522, R532). -/
def State.readGate (s : State) (m : Master) (a : Nat) : State × Bool :=
  match pageKind (a / 0x1000) with
  | none => (s.failAccess m a false .unmapped, false)
  | some (k, n) =>
    if s.rst.safeBoot && !diagnosticPage k then (s.failAccess m a false .unmapped, false)
    else if s.pageInReset k n then (s.isolate m a false, false)
    else (s, true)

/-- The registers a 32-bit read of a captures: the _HI of a _LO (R45), the time registers of NOW_NS_LO (R397), ECYC_W1 of ECYC_W0 (R601). -/
def captures (a : Nat) : List Nat :=
  if a = R.invarCore_NOW_NS_LO then [0x20074, 0x20078, 0x2007C, 0x20080]
  else match pageKind (a / 0x1000) with
  | some (.perfCell, _) => if 0x100 ≤ a % 0x1000 && a % 0x1000 < 0x500 && a % 0x100 = 0 then [a + 4] else hiOf a
  | _ => hiOf a
where
  hiOf (a : Nat) : List Nat :=
    match rowOf (a + 4) with
    | some r => if r.sx then [a + 4] else []
    | none => []

/-- Where a master's shadow for a page is kept. -/
def shadowKey (m : Master) (a : Nat) : Nat := masterCode m * 2048 + a / 0x1000

def State.shadow (s : State) (m : Master) (a : Nat) : List (Nat × W32) := Tab.get s.shadows (shadowKey m a) []

def State.setShadow (s : State) (m : Master) (a : Nat) (l : List (Nat × W32)) : State :=
  { s with shadows := Tab.set s.shadows (shadowKey m a) l [] }

/-- Counters that are kept lazily are brought up to date before their page is read (R589). -/
def State.beforeRead (s : State) (a : Nat) : State :=
  match pageKind (a / 0x1000) with
  | some (.perfCell, c) => (List.range 4).foldl (fun s l => s.slots (c * 4 + l) (s.eng (c * 4 + l)).slotClass) s
  | _ => s

/-- A 32-bit read: the shadow held for the register, released by it, or the live value. A _LO read live captures what goes with it; one answered from a shadow (NOW_SEC_LO
after NOW_NS_LO, R397) captures nothing anew, so that its _HI stays that of the same tick (notes/assumptions/12.md). -/
def State.read32 (s : State) (m : Master) (a : Nat) : State × W32 :=
  let s := s.beforeRead a
  let sh := s.shadow m a
  match sh.find? (·.1 = a) with
  | some x => ((s.setShadow m a (sh.filter (·.1 ≠ a))).useFree, x.2)
  | none =>
    let c := captures a
    let v := s.regRead a
    let s := if c.isEmpty then s else s.setShadow m a ((c.map fun b => (b, s.regRead b)) ++ sh.filter fun x => !c.contains x.1)
    (s.useFree, v)

/-- A 64-bit read: both registers from one engine cycle. -/
def State.read64 (s : State) (a : Nat) : State × W64 :=
  let s := s.beforeRead a
  (s.useFree, BitVec.ofNat 64 ((s.regRead a).toNat + (s.regRead (a + 4)).toNat * 2 ^ 32))

/-- A 32-bit read of a register by a master, answered to it. -/
def State.readReg (s : State) (t : Time) (m : Master) (a : Nat) : State :=
  let s := s.tick t
  if !s.barOpen m then s.barRefuse m a false
  else
    let g := s.readGate m a
    if g.2 then
      let r := g.1.read32 m a
      r.1.emit (.readData m a (r.2.setWidth 64))
    else g.1

/-- LO_READ_SHADOW (R45). -/
def execLoReadShadow (t : Time) (m : Master) (addr : BitVec 25) (s : State) : Host.Outcome State Fault Refusal :=
  .next (if (captures addr.toNat).isEmpty then s.tick t else s.readReg t m addr.toNat)

/-- HI_READ (R45). -/
def execHiRead (t : Time) (m : Master) (addr : BitVec 25) (s : State) : Host.Outcome State Fault Refusal :=
  .next (if (captures (addr.toNat - 4)).isEmpty || addr.toNat < 4 then s.tick t else s.readReg t m addr.toNat)

/-- ECYC_W0_READ (R601). -/
def execEcycW0Read (t : Time) (m : Master) (e : Fin 32) (s : State) : Host.Outcome State Fault Refusal :=
  .next (s.readReg t m (R.perfCell_ECYC_W0 (e / 4) (e % 4)))

/-- NOW_NS_LO_READ (R397). -/
def execNowNsLoRead (t : Time) (m : Master) (s : State) : Host.Outcome State Fault Refusal :=
  .next (s.readReg t m R.invarCore_NOW_NS_LO)

end Sys2Proof.Machine
end

