-- ==== Sys2Proof/Machine/Route.lean ====
section
/-! DEFINITION. Accesses of masters to device addresses: the effect of a register write by its row, and reads and writes of the memory ranges of Table 2.1
with the failures of R40. -/

namespace Sys2Proof.Machine

/-! ## Register writes (R10, R41) -/

/-- Perform f when bit i of a written word is 1. -/
def State.onBit (s : State) (v : W32) (i : Nat) (f : State → State) : State := if bit v i then f s else s

/-- The page header's registers with an effect (R47, R49). CTRL stores its page's bits and clears counts. -/
def State.writeHeader (s : State) (m : Master) (k : PageKind) (n p o : Nat) (v : W32) : State :=
  match o with
  | 0x008 =>
    let s := s.wr (R.CTRL p) (v &&& BitVec.ofNat 32 (pageCtrlMask k))
    s.onBit v 8 fun s => match k with
      | .lahar => s.laharClear
      | .cell => s.cellClear n
      | .crater => s.craterClrCnt
      | .branch => s.branchClrCnt n
      | .nodeTable => s.nodeClrCnt n
      | .geyCommon => s.geyClear
      | .perfCell => s.clrPeak n
      | _ => s
  | 0x010 =>
    let s := if k = .reset && bit v 8 then s.wdogKick m else s
    (s.w1c (R.IRQ_STAT p) (v &&& BitVec.ofNat 32 (pageIrqMask k))).pageIrq p
  | 0x014 => (s.wr (R.IRQ_EN p) (v &&& BitVec.ofNat 32 (pageIrqMask k))).pageIrq p
  | 0x018 => s.irq p ((v &&& BitVec.ofNat 32 (pageIrqMask k)).toNat)
  | 0x01C => s.commitWrite p v
  | 0x028 => s.lockWrite p v
  | 0x02C => s.wr (p * 0x1000 + 0x2C) v
  | _ => s

def State.writeChip (s : State) (o : Nat) (v : W32) : Option State :=
  match o with
  | 0x040 => some (s.gcommitWrite v)
  | 0x04C => some (s.errInfoWrite v)
  | 0x0A8 => some (s.wr R.chip_GPIO_OUT (s.rd R.chip_GPIO_OUT ||| (v &&& 0xFFFF)))
  | 0x0AC => some (s.wr R.chip_GPIO_OUT (s.rd R.chip_GPIO_OUT &&& ~~~ (v &&& 0xFFFF)))
  | 0x0C4 => some (s.twiCmd v)
  | _ => none

def State.writeReset (s : State) (o : Nat) (v : W32) : Option State :=
  match o with
  | 0x044 => some (s.rstReq (fld v 2 0) (fld v 12 8))
  | 0x048 => some (s.rstHold v)
  | _ => none

def State.writeInvar (s : State) (o : Nat) (v : W32) : Option State :=
  if o = 0x054 then
    let s := s.onBit v 0 fun s => s.setB R.invarCore_STAT 5 true
    let s := s.onBit v 1 State.invLatch
    some (s.onBit v 2 fun s => s.setInv { s.inv with secSet := true })
  else none

def State.writeSinter (s : State) (o : Nat) (v : W32) : Option State :=
  match o with
  | 0x048 => some ((s.onBit v 0 State.scmdAck).onBit v 1 fun s => s.failure 15)
  | 0x04C => some (s.paramAck v)
  | _ => none

def State.writeSinAxis (s : State) (n o : Nat) (v : W32) : Option State :=
  if 0x100 ≤ o && o % 32 = 0x18 then
    let a := n * 32 + (o - 0x100) / 32
    let s := s.onBit v 0 fun s => if s.underSinter a then s.stopOwn a else s
    some (s.onBit v 1 fun s => if s.underSinter a then s.axisAck a else s)
  else none

def State.writeRouter (s : State) (o : Nat) (v : W32) : Option State :=
  match o with
  | 0x048 => some (s.vecArm 0 v)
  | 0x04C => some (s.vecArm 1 v)
  | 0x050 => some (s.remotePendClear 0 v)
  | 0x054 => some (s.remotePendClear 1 v)
  | _ => if 0x100 ≤ o && o < 0xC00 then some (s.wr (P.router * 0x1000 + o) (v &&& 0xBFBFBFBF)).vecAll else none

def State.writeMsix (s : State) (o : Nat) (v : W32) : Option State :=
  if 0x800 ≤ o && o < 0xC00 && o % 16 = 0xC then some ((s.wr (P.msix * 0x1000 + o) (v &&& 1)).vecUpdate ((o - 0x800) / 16)) else none

def State.writeDma (s : State) (o : Nat) (v : W32) : Option State :=
  if o < 0x100 then none
  else
    let c := (o - 0x100) / 64
    match (o - 0x100) % 64 with
    | 0x10 => some (s.tailWrite c (fld v 15 0))
    | 0x18 => some ((((s.onBit v 0 fun s => s.chResume c).onBit v 1 fun s => s.chStop c).onBit v 2 fun s => s.chSkip c).onBit v 3 fun s => s.chReset c)
    | _ => none

def State.writeLahar (s : State) (o : Nat) (v : W32) : Option State :=
  match o with
  | 0x044 => some (((s.onBit v 0 State.load).onBit v 1 State.activate).onBit v 2 State.loadClear)
  | 0x054 => some (s.doorbell (fld v 7 0))
  | 0x058 => some (s.refire (fld v 11 0))
  | _ => if 0x070 ≤ o && o < 0x0B0 then some (s.flowEn ((o - 0x070) / 4) v) else none

def State.writeCmp (s : State) (o : Nat) (v : W32) : Option State :=
  if o < 0x40 || o ≥ 0x140 then none
  else
    let c := (o - 0x40) / 32
    match (o - 0x40) % 32 with
    | 0x08 => some (s.setCmp c { s.cmp c with lo := v })
    | 0x0C => some (s.cmpPush c v)
    | 0x10 => some ((s.onBit v 0 fun s => s.cmpFlush c).onBit v 1 fun s => s.cmpPulse c false)
    | _ => none

def State.writeTrig (s : State) (o : Nat) (v : W32) : Option State :=
  if 0x100 ≤ o && o < 0x500 && o % 64 = 0x18 then
    let u := (o - 0x100) / 64
    some ((((s.onBit v 0 fun s => s.tcArm u).onBit v 1 fun s => s.tcAck u).onBit v 2 fun s => s.tcStop u).onBit v 3 fun s => s.tcForce u)
  else none

def State.writeBranch (s : State) (b o : Nat) (v : W32) : Option State :=
  match o with
  | 0x060 => some (s.dqPush b v)
  | 0x074 => some (s.onBit v 0 fun s => s.uqPop b)
  | _ => none

def State.writeNode (s : State) (b o : Nat) (v : W32) : Option State :=
  if o = 0x048 then
    let h := fld v 12 8
    some (match fld v 1 0 with
      | 1 => s.admitGo b
      | 2 => if h < 24 then s.releaseHop b h else s
      | 3 => if h < 24 then s.reintegrate b h else s
      | _ => s)
  else none

def State.writePair (s : State) (o : Nat) (v : W32) : Option State :=
  if o = 0x044 then
    let b := fld v 10 8
    let s := (s.onBit v 0 State.pcmdClaim).onBit v 1 State.pcmdRelease
    some (((s.onBit v 2 State.pcmdResync).onBit v 3 fun s => s.pcmdEchoOn b).onBit v 4 fun s => s.pcmdEchoOff b)
  else none

def State.writeCan (s : State) (n o : Nat) (v : W32) : Option State :=
  match o with
  | 0x050 => some (s.onBit v 0 fun s => s.canRecover n)
  | 0x058 => some (s.txreqs n false v)
  | 0x05C => some (s.txreqs n true v)
  | 0x060 => some (s.txcans n false v)
  | 0x064 => some (s.txcans n true v)
  | _ => none

def State.writeEth (s : State) (n o : Nat) (v : W32) : Option State :=
  match o with
  | 0x060 => some (s.txWr n v)
  | 0x074 => some (s.mbxTxs n (fld v 7 0))
  | 0x080 => if n = 0 then some (s.mdioCmd v) else some s
  | _ => none

def State.writeAxis (s : State) (a o : Nat) (v : W32) : Option State :=
  match o with
  | 0x104 => some (let c := fld v 2 0
      if c = 0 || c = 7 then s else s.axSet a c)
  | 0x138 => some (s.ringPut a (fld v 8 0))
  | _ => none

/-- Writes with an effect of their own. -/
def State.writeSpecial (s : State) (k : PageKind) (n o : Nat) (v : W32) : Option State :=
  match k with
  | .chip => s.writeChip o v
  | .reset => s.writeReset o v
  | .invarCore => s.writeInvar o v
  | .sinCore => s.writeSinter o v
  | .sinAxis => s.writeSinAxis n o v
  | .router => s.writeRouter o v
  | .msix => s.writeMsix o v
  | .dma => s.writeDma o v
  | .xlCommon => if o = 0x040 then some (s.tlbInvWrite v) else none
  | .xlCell => if o = 0x048 then some (s.onBit v 0 fun s => s.fltClear n) else none
  | .lahar => s.writeLahar o v
  | .cmp => s.writeCmp o v
  | .qe => if o = 0x048 then some (s.onBit v 0 fun s => s.setB (R.qe_QSTAT n) 10 true) else none
  | .geyTrig => s.writeTrig o v
  | .branch => s.writeBranch n o v
  | .nodeTable => s.writeNode n o v
  | .pair => s.writePair o v
  | .can => s.writeCan n o v
  | .eth => s.writeEth n o v
  | .perfCommon => if o = 0x040 then some ((s.wr R.perfCommon_PCTL (setFld (s.rd R.perfCommon_PCTL) 1 1 (fld v 1 1))).setFreeze (bit v 0)) else none
  | .engine => if o = 0x04C then some (s.onBit v 0 fun s => s.trapClear n) else if o = 0x060 then some (s.eccClear n v) else none
  | .axis => s.writeAxis n o v
  | _ => none

/-- A write of a register by its access type (R10): the bits of its mask are stored, staged or cleared; the rest has no effect (R11). -/
def State.writeRow (s : State) (r : RegRow) (a : Nat) (v : W32) : State :=
  let w := v &&& BitVec.ofNat 32 r.mask
  match r.acc with
  | .rw => s.wr a w
  | .st => s.wrStage a w
  | .w1c => s.w1c a w
  | _ => s

/-- The effect of a write of the register at a that its page accepts. -/
def State.regWrite (s : State) (m : Master) (a : Nat) (v : W32) : State :=
  match pageKind (a / 0x1000) with
  | none => s
  | some (k, n) =>
    let o := a % 0x1000
    if o < 0x40 then s.writeHeader m k n (a / 0x1000) o v
    else match s.writeSpecial k n o v with
      | some s' => s'
      | none => match rowOf a with
        | some r => s.writeRow r a v
        | none => s

/-- A 32-bit write by a master: through the gate, and then its effect. -/
def State.write32 (s : State) (m : Master) (a : Nat) (v : W32) : State :=
  let g := s.gate m a v
  if g.2 then g.1.regWrite m a v else g.1

/-- Whether a whole page refuses a write before its registers are looked at. -/
def State.pageShut (s : State) (m : Master) (a : Nat) : Bool :=
  match pageKind (a / 0x1000) with
  | none => true
  | some (k, n) => (s.rst.safeBoot && (!diagnosticPage k || k = .sinCore)) || s.pageInReset k n || (s.pairDiscards m && !notMirrored k)

/-- Whether the write lock discards a write of the register at a (R64), or flash boot holds its pad (R614). -/
def State.regShut (s : State) (a : Nat) : Bool :=
  (match pageKind (a / 0x1000) with
  | some (k, _) => s.locked k (a / 0x1000) && a % 0x1000 ≠ 0x28 && a % 0x1000 ≠ 0x10
  | none => false) || s.padHeld a

/-- A write of a register that nothing refuses: carried to the standby, and its effect. -/
def State.regPass (s : State) (m : Master) (a : Nat) (v : W32) : State :=
  let mir : Bool := s.pairMirrors m && mirrors (a / 0x1000)
  (if mir then s.emit (.mirrored a 4 (v.setWidth 64)) else s).regWrite m a v

/-- The half of a 64-bit write at a that is discarded is recorded once for the access (R41, R64). -/
def State.halfRefused (s : State) (m : Master) (a : Nat) : State :=
  let lock : Bool := (!s.padHeld a && s.regShut a) || (!s.padHeld (a + 4) && s.regShut (a + 4))
  (s.recordFail m a true .locked).irqIf lock (a / 0x1000) 3

/-- A 64-bit write acts on both registers as one access (R41). -/
def State.write64 (s : State) (m : Master) (a : Nat) (v : W64) : State :=
  if s.pageShut m a then (s.gate m a (v.setWidth 32)).1
  else
    let lo := s.regShut a
    let hi := s.regShut (a + 4)
    let s := if a % 0x1000 = 0x28 then s else s.breakKey (a / 0x1000)
    let s := if lo || hi then s.halfRefused m a else s
    let s := if lo then s else s.regPass m a (v.setWidth 32)
    if hi then s else s.regPass m (a + 4) (BitVec.ofNat 32 (v.toNat / 2 ^ 32))

/-! ## Failures of an access (R40, R35, R37) -/

/-- How an access that is not performed ends: failed under R40, answered by the wrapper of a block in reset, or at a double-bit error (R639). -/
inductive BusErr where
  | failed (k : FailKind)
  | isolated
  | ecc
  deriving DecidableEq, Repr

/-- Why one access of n bytes fails by its address, size or alignment (Table 2.1, R36, R37, R640). -/
def State.accessFail (s : State) (a n : Nat) (write : Bool) : Option FailKind :=
  let even := a % n = 0
  if a ≥ 0x02000000 then some .unmapped
  else if a < 0x00800000 then
    if (pageKind (a / 0x1000)).isNone then some .unmapped else if (n = 4 || n = 8) && even then none else some .size
  else if a < 0x01000000 then
    if a % 0x40000 ≥ 0x30000 then some .unmapped else if (n = 8 || (n = 4 && !write)) && even then none else some .size
  else if (s.phys a).isNone then some .retired
  else if (n = 1 || n = 2 || n = 4 || n = 8) && even then none else some .size

/-- The master's answer where an access meets a double-bit error (R639). -/
def State.eccResponse (s : State) (m : Master) (a : Nat) (write : Bool) : State := (s.meetEcc (s.physD a)).failResponse m a write

/-! ## One access -/

/-- A write by a master into engine data memory: the word holds what was written, whatever frame it lies in (R84). -/
def State.noteData (s : State) (a : Nat) : State :=
  if a % 0x40000 < 0x20000 then s.noteWord ((a - 0x00800000) / 0x40000) (a % 0x40000 / 8) else s

/-- The number of a kernel's STAT word (Tables 6.6, 6.9 and 6.11). -/
def statWord (k : Nat) : Option Nat :=
  match k with
  | 1 | 2 => some 5
  | 3 => some 7
  | 4 => some 8
  | _ => none

/-- Whether a location is the STAT word of a kernel of the active graph (R197). -/
def State.isStat (s : State) (p : Nat) : Bool :=
  match s.graph with
  | none => false
  | some g => g.ops.any fun r =>
    match (if r.program then none else statWord r.code) with
    | none => false
    | some n => match s.walk (r.param + BitVec.ofNat 48 (8 * n)) 1 (s.ptRoot s.bankNo r.ctx) 4 with
      | .leaf pte big => leafCheck pte big (r.param + BitVec.ofNat 48 (8 * n)) false false = .ok { host := false, addr := p }
      | _ => false

/-- A host write of a STAT word clears it (R197). -/
def State.clearStat (s : State) (m : Master) (a : Nat) : State := if m = .host && s.isStat (a - a % 8) then s.wr64 (s.physD (a - a % 8)) 0 else s

/-- A write of n bytes to a memory range that R40 allows. In a command window a narrower write keeps the rest of what the location reads. A write narrower than its location that meets a double-bit error is not performed (R39, R17). -/
def State.storeMem (s : State) (m : Master) (a n v : Nat) (pbit : Nat := 0) : State × Option BusErr :=
  let s := s.bwCell (masterCode m) 1 1 a pbit
  match s.windowAt a with
  | some (b, sl, i) =>
    let old := natLe 8 ((s.windowRead b sl i).signExtend 64).toNat
    let new := old.take (a % 8) ++ natLe n v ++ old.drop (a % 8 + n)
    (s.windowWrite b sl i (s.openFrame b sl) (BitVec.ofNat 48 (leNat new)), none)
  | none =>
    let p := s.physD a
    let s := s.copyTouch a
    if a < 0x01000000 then (((s.wr64 p ((BitVec.ofNat 48 v).signExtend 64).toNat).noteData a), none)
    else if n = 8 then ((s.wr64 p v).clearStat m a, none)
    else if s.eccAt p ≠ .good then (s.eccResponse m a true, some .ecc)
    else ((s.setBytes p (natLe n v)).clearStat m a, none)

/-- A write of n bytes by a master other than an engine's drain. -/
def State.busWrite (s : State) (m : Master) (a n v : Nat) (pbit : Nat := 0) : State × Option BusErr :=
  match s.accessFail a n true with
  | some k => (s.failAccess m a true k, some (.failed k))
  | none =>
    if a < 0x00800000 then
      let e : Option BusErr := if s.isolated a then some .isolated else if s.rst.safeBoot && s.pageShut m a then some (.failed .unmapped) else none
      (if n = 4 then s.write32 m a (BitVec.ofNat 32 v) else s.write64 m a (BitVec.ofNat 64 v), e)
    else if s.isolated a then (s.isolate m a true, some .isolated)
    else if s.rst.safeBoot then (s.failAccess m a true .unmapped, some (.failed .unmapped))
    else if s.pairDiscards m then (s.recordFail m a true .locked, none)
    else
      let r := s.storeMem m a n v pbit
      (if s.pairMirrors m && r.2.isNone then r.1.emit (.mirrored a n (BitVec.ofNat 64 v)) else r.1, r.2)

/-- A read of n bytes by a master. -/
def State.busRead (s : State) (m : Master) (a n : Nat) (pbit : Nat := 0) : State × Except BusErr Nat :=
  match s.accessFail a n false with
  | some k => (s.failAccess m a false k, .error (.failed k))
  | none =>
    if a < 0x00800000 then
      let g := s.readGate m a
      if g.2 then
        if n = 4 then (let r := g.1.read32 m a; (r.1, .ok r.2.toNat)) else (let r := g.1.read64 a; (r.1, .ok r.2.toNat))
      else (g.1, .error (if s.isolated a then .isolated else .failed .unmapped))
    else if s.isolated a then (s.isolate m a false, .error .isolated)
    else if s.rst.safeBoot then (s.failAccess m a false .unmapped, .error (.failed .unmapped))
    else
      let s := s.bwCell (masterCode m) 0 1 a pbit
      match s.windowAt a with
      | some (b, sl, i) => (s, .ok (leNat ((natLe 8 ((s.windowRead b sl i).signExtend 64).toNat).drop (a % 8) |>.take n)))
      | none =>
        let p := s.physD a
        let s := s.copyTouch a
        if s.eccAt p ≠ .good then (s.eccResponse m a false, .error .ecc)
        else (s, .ok (s.le p n))

/-! ## Sequences of accesses (R531, R541) -/

/-- The naturally aligned accesses of at most 8 bytes that a range of n bytes contains, in ascending address: address and size. -/
def pieces (a : Nat) : Nat → Nat → List (Nat × Nat)
  | 0, _ => []
  | _, 0 => []
  | fuel + 1, n =>
    let k := if a % 8 = 0 && 8 ≤ n then 8 else if a % 4 = 0 && 4 ≤ n then 4 else if a % 2 = 0 && 2 ≤ n then 2 else 1
    (a, k) :: pieces (a + k) fuel (n - k)

/-- Write bytes as a sequence of accesses. -/
def State.busWrites (s : State) (m : Master) (data : List Byte) (base pbit : Nat) (l : List (Nat × Nat)) : State :=
  l.foldl (fun s x => (s.busWrite m x.1 x.2 (leNat ((data.drop (x.1 - base)).take x.2)) pbit).1) s

/-- Read bytes as a sequence of accesses, up to the first error and its address. -/
def State.busReads (s : State) (m : Master) (pbit : Nat) : List (Nat × Nat) → State × Except (BusErr × Nat) (List Byte)
  | [] => (s, .ok [])
  | (a, k) :: r =>
    match s.busRead m a k pbit with
    | (s, .error e) => (s, .error (e, a))
    | (s, .ok v) =>
      match s.busReads m pbit r with
      | (s, .error e) => (s, .error e)
      | (s, .ok l) => (s, .ok (natLe k v ++ l))

/-- Whether one write would not be performed. -/
def State.writeBad (s : State) (a n : Nat) : Bool :=
  (s.accessFail a n true).isSome || s.isolated a || (0x01000000 ≤ a && n < 8 && (s.windowAt a).isNone && s.eccAt (s.physD a) ≠ .good)

/-! ## Writes by masters (R10, R40) -/

def sizeBytes : AccSize → Nat
  | .b1 => 1
  | .b2 => 2
  | .b4 => 4
  | .b8 => 8

/-- A write by the host while BAR accesses are closed is refused by the function itself (R532). -/
def State.masterWrite (s : State) (m : Master) (a n v : Nat) : State :=
  if s.barOpen m then (s.busWrite m a n v).1 else s.barRefuse m a true

/-! ## Command window (R308) -/

/-- The target frame of a write (R308). -/
def State.targetFrame (s : State) (w : WindowWriter) (b sl : Nat) : Nat :=
  match w with
  | .engine e => (match s.top e with
    | some v => if v.key = runtimeKey then s.openFrame b sl else (s.opSt v.key).pair.cyc + s.lag b - 1
    | none => s.openFrame b sl)
  | .other _ => s.openFrame b sl

/-- COMMAND_WINDOW_WRITE (R308). A branch that is not enabled has no command store, and the write goes to memory. -/
def execCommandWindowWrite (t : Time) (w : WindowWriter) (b : Fin 8) (sl : Fin 24) (r : Fin 4) (loc1 : Bool) (v : W48) (s : State) :
    Host.Outcome State Fault Refusal :=
  let s := s.tick t
  let a := s.ioArea b + 0x3000 + 64 * sl + 16 * r + 8 * b2n loc1
  .next (if !s.brEn b || s.blockInReset b then
    (match w with
     | .engine _ => (s.busWrite .engine a 8 (v.signExtend 64).toNat).1
     | .other m => s.masterWrite m a 8 (v.signExtend 64).toNat)
  else match w with
    | .engine _ => s.windowWrite b sl (2 * r + b2n loc1) (s.targetFrame w b sl) v
    | .other m =>
      if !s.barOpen m then s.barRefuse m a true
      else if s.pairDiscards m then s.recordFail m a true .locked
      else
        let s := s.windowWrite b sl (2 * r + b2n loc1) (s.targetFrame w b sl) v
        if s.pairMirrors m then s.emit (.mirrored a 8 (v.signExtend 64)) else s)

/-! ## REGISTER_WRITE -/

/-- REGISTER_WRITE (R10, R40): one access to the device address space. -/
def execRegisterWrite (t : Time) (m : Master) (addr : BitVec 25) (size : AccSize) (val : W64) (s : State) : Host.Outcome State Fault Refusal :=
  .next ((s.tick t).masterWrite m addr.toNat (sizeBytes size) val.toNat)

end Sys2Proof.Machine
end

