-- ==== Sys2Proof/Machine/Kernel.lean ====
section
/-! DEFINITION. The drain of a commit buffer and far reads (R163, R164), and how a kernel operation runs: its reads, its writes through the commit buffer, its parameter block, its traps and its end (sections 6.2 and 6.4,
R642). -/

namespace Sys2Proof.Machine

/-! ## The drain (R90, R163, R308) -/

/-- One drained write. To a command window it carries the operation's target frame; a write that meets a page locked or a bank retired since is discarded
and recorded as R64 or R40 states. -/
def State.drainWrite (s : State) (e key : Nat) (x : CEnt) : State :=
  let s := (s.perfEv e 0x24 1 x.at'.off).bwEngine e 1 1 x.at'
  let v := (x.val.signExtend 64).toNat
  if x.at'.host then s.emit (.hostWrite (BitVec.ofNat 64 x.at'.addr) (natLe 8 v))
  else
    match s.windowAt x.at'.addr with
    | some (b, sl, i) => s.windowWrite b sl i (if key = runtimeKey then s.openFrame b sl else (s.opSt key).pair.cyc + s.lag b - 1) x.val
    | none => (s.busWrite .engine x.at'.addr 8 v).1

/-- Whether two operations are connected by an arc or belong to one atomic flow (R164). -/
def State.connected (s : State) (k l : Nat) : Bool :=
  k / 4096 = l / 4096 &&
  match s.graphOf (k / 4096) with
  | none => false
  | some g =>
    let i := k % 4096
    let j := l % 4096
    g.arcs.any (fun a => a.kind = 0 && ((a.src = i && a.dstOp = j) || (a.src = j && a.dstOp = i))) ||
    (match (g.ops.getD i noOp).flow with
     | some f => (g.ops.getD j noOp).flow = some f && (g.flows.getD f (false, false)).1
     | none => false)

/-- Every write of the drain at depth d of engine e lands. -/
def State.drainAll (s : State) (e d : Nat) (v : Serv) : State :=
  v.cbuf.foldl (fun s x => s.drainWrite e v.key x) (s.setServ e d { v with cbuf := [] })

/-- What operation k sees at a place that an operation which drains at depth d of engine e writes (R164): connected to it, all of the drain or none of it; otherwise
the write or not, and once the write from then on. Which is a free choice. -/
def State.settleOf (s : State) (k : Nat) (p : Phys) (e d : Nat) : State × Option W48 :=
  match s.servAt e d with
  | none => (s, none)
  | some v =>
    match (if v.draining then v.cbuf.find? (·.at' = p) else none) with
    | none => (s, none)
    | some x =>
      if x.seen && !s.connected v.key k then (s, some x.val)
      else
        let now := Config.freeBit s.freeCtr
        let s := s.useFree
        if !now then (s, none)
        else if s.connected v.key k then (s.drainAll e d v, none)
        else (s.setServ e d { v with cbuf := v.cbuf.map fun y => if y.at' = p then { y with seen := true } else y }, some x.val)

/-- What operation k sees at a place of the writes that drain: the word of the latest drain it sees, or none where memory holds what it sees. -/
def State.settleDrains (s : State) (k : Nat) (p : Phys) : State × Option W48 :=
  (List.range 32).foldl (fun r e => (List.range (r.1.eng e).servs.length).foldl (fun r d =>
    let x := r.1.settleOf k p e d
    (x.1, match x.2 with
      | some w => some w
      | none => r.2)) r) (s, none)

/-! ## Far reads of an engine -/

/-- The data of a far load of operation k that passed its checks; none when the access ends with an error. Host memory holds what the host put there. -/
def State.engRead (s : State) (k : Nat) (p : Phys) : State × Option W64 :=
  if p.host then (s.useFree.emit (.hostRead (BitVec.ofNat 64 p.addr) 8), some ((Config.freeW48 s.freeCtr).setWidth 64))
  else
    let y := s.settleDrains k p
    let r := y.1.busRead .engine p.addr 8
    (r.1, match y.2, r.2 with
      | some w, _ => some (w.signExtend 64)
      | none, .ok v => some (BitVec.ofNat 64 v)
      | none, .error _ => none)

/-! ## The kernel's world -/

/-- A kernel operation as it runs: engine, depth, key, record, the word of input port 0, and whether that is a slot token. -/
structure KEnv where
  e : Nat
  d : Nat
  key : Nat
  op : OpRec
  w0 : W48
  slot : Bool
  deriving DecidableEq, Repr

/-- A kernel's run: it ends early when it traps, with the state the trap leaves. -/
abbrev K := OptionT (StateM State)

def kGet : K State := OptionT.mk fun s => (some s, s)
def kSet (s : State) : K Unit := OptionT.mk fun _ => (some (), s)

/-- A trap of the kernel; TRAP_PC reads 0 (R642). -/
def KEnv.trap (x : KEnv) {α : Type} (code : Nat) (va : W48) : K α := OptionT.mk fun s => (none, s.trap x.e x.d code 0 va.toNat)

/-- ILLEGAL at an offending word (R195). -/
def KEnv.illegal (x : KEnv) {α : Type} (va : W48) : K α := x.trap 1 va

def KEnv.check (x : KEnv) (ok : Bool) (va : W48) : K Unit := if ok then pure () else x.illegal va

/-- Translate an address; a fault traps with FAR_FAULT and is recorded, and a double-bit error of a table traps with FAR_ERROR (R90, R554, R642). -/
def KEnv.phys (x : KEnv) (va : W48) (write : Bool) : K Phys := OptionT.mk fun s =>
  let c := s.opCtx x.key
  let s := if s.tlbLook (x.e / 4) c.1 c.2.1 va write c.2.2 = .miss then s.perfEv x.e 0x23 1 none else s
  let r := s.translate (x.e / 4) c.1 c.2.1 va write c.2.2
  match r.2 with
  | .ok p => (match r.1.farFail p with
    | some k => (none, r.1.farTrap x.e x.d 0 va p write k)
    | none => (some p, r.1))
  | .fault code lv => (none, (r.1.recordFlt x.e x.key va code lv write c.2.2).trap x.e x.d 4 0 va.toNat)
  | _ => (none, r.1.trap x.e x.d 5 0 va.toNat)

/-- Read a place: the operation's own store to it, or its content (R88). -/
def KEnv.readAt (x : KEnv) (va : W48) (p : Phys) : K W64 := OptionT.mk fun s =>
  let s := (s.perfEv x.e 0x20 1 p.off).bwEngine x.e 0 1 p
  match (s.servAt x.e x.d).bind fun v => v.cbuf.find? (·.at' = p) with
  | some y => (some (y.val.signExtend 64), s)
  | none =>
    let r := s.engRead x.key p
    match r.2 with
    | some w => (some w, r.1)
    | none => (none, r.1.trap x.e x.d 5 0 va.toNat)

/-- Enter a write into the commit buffer; a 65th location traps (R162). -/
def KEnv.storeAt (x : KEnv) (va : W48) (p : Phys) (v : W48) : K Unit := OptionT.mk fun s =>
  match s.servAt x.e x.d with
  | none => (none, s)
  | some y =>
    match cbufPut y.cbuf { at' := p, va := va, val := v, seq := y.seq } with
    | some l => (some (), (s.setServ x.e x.d { y with cbuf := l, seq := y.seq + 1 }).perfEv x.e 0x21 1 p.off)
    | none => (none, s.trap x.e x.d 5 0 va.toNat)

def KEnv.read (x : KEnv) (va : W48) : K W64 := do
  let p ← x.phys va false
  x.readAt va p

def KEnv.write (x : KEnv) (va v : W48) : K Unit := do
  let p ← x.phys va true
  x.storeAt va p v

/-- A 48-bit word: bits [63:48] are ignored (R38). -/
def KEnv.read48 (x : KEnv) (va : W48) : K W48 := do
  let w ← x.read va
  pure (w.setWidth 48)

/-! ## Parameter blocks (R194, R195) -/

/-- The address of word n of the parameter block. -/
def KEnv.word (x : KEnv) (n : Nat) : W48 := x.op.param + BitVec.ofNat 48 (8 * n)

/-- Location n of a block at an address. -/
def at8 (a : W48) (n : Nat) : W48 := a + BitVec.ofNat 48 (8 * n)

/-- Read a configuration word whose bits outside the mask must be 0. -/
def KEnv.config (x : KEnv) (va : W48) (mask : Nat) : K W64 := do
  let w ← x.read va
  x.check (w &&& ~~~ BitVec.ofNat 64 mask = 0) va
  pure w

/-- Read pointer word n (R194): REL adds bits [19:0] of the slot token where it is allowed; 0 means none where it is allowed. -/
def KEnv.ptr (x : KEnv) (n : Nat) (rel none0 : Bool) : K (Option W48) := do
  let w ← x.read (x.word n)
  let a : W48 := w.setWidth 48
  x.check (fld w 62 48 = 0 && (!bit w 63 || (rel && x.slot)) && (bit w 63 || a ≠ 0 || none0)) (x.word n)
  pure (if bit w 63 then some (a + BitVec.ofNat 48 (x.w0.toNat % 2 ^ 20)) else if a = 0 then none else some a)

/-- A pointer that may not be 0. -/
def KEnv.ptr! (x : KEnv) (n : Nat) (rel : Bool := false) : K W48 := do
  let p ← x.ptr n rel false
  pure (p.getD 0)

/-- ENABLED of the sample, and the set it names (R186). -/
def KEnv.enabled (x : KEnv) : Bool := x.slot || bit x.w0 1
def KEnv.setB (x : KEnv) : Bool := !x.slot && bit x.w0 0

/-- The coefficient set the sample selects, by the pointers in words n and n + 1. -/
def KEnv.coefs (x : KEnv) (n : Nat) : K W48 := do
  let a ← x.ptr! n
  let b ← x.ptr (n + 1) false true
  match (if x.setB then b else some a) with
  | some c => pure c
  | none => x.illegal (x.word (n + 1))

/-- An input signal, read through an optional pointer (R195); it counts as 0 without one, and while ENABLED is 0 when the kernel keeps state (R187). -/
def KEnv.signal (x : KEnv) (live : Bool) (p : Option W48) : K W48 :=
  match p with
  | some a => do
    let v ← x.read48 a
    pure (if live then v else 0)
  | none => pure 0

/-! ## STAT (R197) -/

/-- What a run notes in STAT: bits [5:0], and how often a result saturated. -/
structure Noted where
  bits : Nat := 0
  sats : Nat := 0
  deriving DecidableEq, Repr

/-- Update STAT at word n: it is written only when a bit is newly set or the count advances. -/
def KEnv.stat (x : KEnv) (n : Nat) (o : Noted) : K Unit := do
  let w ← x.read48 (x.word n)
  let old := w.toNat % 64
  let bits := old ||| (o.bits ||| b2n (o.sats > 0))
  let c := fld w 31 16
  let cnt := min (c + o.sats) 65535
  if bits = old && cnt = c then pure () else x.write (x.word n) (BitVec.ofNat 48 (bits + cnt * 65536))

/-! ## Running a kernel -/

/-- Whether port 0 of an operation is fed by a slot arc (R186). -/
def State.slotFed (s : State) (key : Nat) : Bool :=
  match s.graphOf (key / 4096) with
  | some g => (match g.feed (key % 4096) 0 with
    | some i => (match g.arcs[i]? with
      | some a => a.kind = 1
      | none => false)
    | none => false)
  | none => false

/-- The environment of the operation at the top of an engine. -/
def State.kenv (s : State) (e : Nat) (v : Serv) : KEnv :=
  { e := e, d := s.topDepth e, key := v.key, op := s.opRec v.key, slot := s.slotFed v.key,
    w0 := match (s.opSt v.key).toks with
      | t :: _ => t.word
      | [] => 0 }

/-- Whether engine e has at its top an operation that has entered service and not begun. -/
def State.fresh (s : State) (e : Nat) (v : Serv) : Bool :=
  s.engUp e && !s.cellInReset (e / 4) && (s.eng e).mode = 0 && v.key ≠ runtimeKey && !v.ended && !v.draining && v.bank.idx = 0

/-- A run has ended: the words it posts stand ready and the operation waits for its drain (R131, R186). -/
def State.kernelEnd (s : State) (x : KEnv) (posts : Tab W48) : State :=
  match s.servAt x.e x.d with
  | some v => (s.setServ x.e x.d { v with posted := posts, ended := true }).slots x.e 3
  | none => s

/-- The word of port 0 on every output port (R186, R218). -/
def KEnv.passOn (x : KEnv) : Tab W48 := (List.range x.op.nOut).foldl (fun t i => Tab.set t i x.w0 0) []

/-- Run body on the fresh operation at the top of engine e if it is one that `is` describes. The run's answer says whether the event that the command names
fell in this sample; where it did not, nothing has happened. A run that traps ends with its trap; where ok is false the engine's self-check traps it with
LOCKSTEP (R642). -/
def State.runTop (s : State) (e : Nat) (is : OpRec → Bool) (body : KEnv → K (Bool × Tab W48)) (ok : Bool := true) : State :=
  match s.top e with
  | none => s
  | some v =>
    let x := s.kenv e v
    if !s.fresh e v || !is x.op then s
    else if !ok then s.trap e x.d 7 0 0
    else
      match (body x).run s with
      | (some (true, posts), s') => s'.kernelEnd x posts
      | (some (false, _), _) => s
      | (none, s') => s'

/-- A kernel of a number. -/
def isKernel (n : Nat) (r : OpRec) : Bool := !r.program && r.code = n

/-- Run kernel n. -/
def State.runKernel (s : State) (e n : Nat) (body : KEnv → K Unit) (ok : Bool := true) : State :=
  s.runTop e (isKernel n) (fun x => do
    body x
    pure (true, x.passOn)) ok

end Sys2Proof.Machine
end

