-- ==== Sys2Proof/Machine/AxisOps.lean ====
section
/-! DEFINITION. The program operations AXIS_IN and AXIS_OUT of the standard graph library, each as a whole (R185, R190, R192, R193, R225). -/

namespace Sys2Proof.Machine

/-- An operation whose code lies in the standard graph library (R183). -/
def isLibrary (r : OpRec) : Bool := r.program && 0x1C00 ≤ r.code && r.code ≤ 0x1FFF

/-- A place of the device that the library reaches by its address: the slot buffer and the command window (notes/assumptions/50.md). -/
def KEnv.place (x : KEnv) (a : Nat) (write : Bool) : K Phys := OptionT.mk fun s =>
  let p : Phys := { host := false, addr := a }
  match s.farFail p with
  | some k => (none, s.farTrap x.e x.d 0 (BitVec.ofNat 48 a) p write k)
  | none => (some p, s)

def KEnv.readDev (x : KEnv) (a : Nat) : K W48 := do
  let p ← x.place a false
  let w ← x.readAt (BitVec.ofNat 48 a) p
  pure (w.setWidth 48)

def KEnv.writeDev (x : KEnv) (a : Nat) (v : W48) : K Unit := do
  let p ← x.place a true
  x.storeAt (BitVec.ofNat 48 a) p v

/-- A location of the axis block. -/
def KEnv.block (x : KEnv) (off : Nat) : W48 := x.op.param + BitVec.ofNat 48 off

/-- Signal word n (Table 6.5). -/
def KEnv.sig (x : KEnv) (n : Nat) : W48 := x.block (0x0C0 + 8 * n)

/-- A lane signal's word (R191). -/
def laneWord (v : Int) : W48 := packLanes v 0

/-- A count of 32 bits extended to the position nearest the last one by signed difference; positions have 32 integer bits (R192). -/
def extendPos (old : W48) (raw : Nat) : W48 :=
  let i : BitVec 32 := BitVec.ofNat 32 (old.toNat / 65536)
  w48 (((i.toNat : Int) + (BitVec.ofNat 32 raw - i).toInt) * 65536)

/-- BUS (R192 step 7). -/
def busRatio (vdc v : Int) : Int :=
  if v = 0 then 0x7FFFFF
  else (lane24 (if v > 0 then rndDiv (vdc * 2 ^ 22) v.toNat else rndDiv (-vdc * 2 ^ 22) (-v).toNat)).val

/-- The axis an operation serves: its flow index (R183). -/
def KEnv.axis (x : KEnv) : Nat := (x.op.flow.getD 0) % 128

/-- The cycle of the sample, from the token of port 0. -/
def KEnv.sampleCycle (x : KEnv) : K Nat := do
  let s ← kGet
  pure (match (s.opSt x.key).toks with
    | t :: _ => t.at'.cyc
    | [] => 0)

/-- The sample tag (Table 6.3). -/
def sampleTag (set enabled : Bool) (axis cyc16 : Nat) : W48 := BitVec.ofNat 48 (b2n set + b2n enabled * 2 + axis * 256 + cyc16 * 2 ^ 32)

/-- AXIS_IN (R192): the answer is the word it posts on ports 0 and 1. -/
def axisInBody (x : KEnv) : K (Bool × Tab W48) := do
  let s ← kGet
  let cyc ← x.sampleCycle
  let cyc16 := fld x.w0 47 32
  let c := cyc16 % 2
  let m0 ← x.read48 (x.block (0x20 * c))
  let m1 ← x.read48 (x.block (0x20 * c + 8))
  let still ← x.read48 (x.block (0x160 + 8 * c))
  let late : Bool := m1.toNat ≠ cyc % 2 ^ 48
  let enabled := bit m0 0 && !bit still 0
  let j := s.f (R.axis_CFG x.axis) 17 16
  let buf := cellMemAddr x.op.cell (x.w0.toNat % 2 ^ 20) + 8 * (1 + 6 * j)
  let a0 ← x.readDev buf
  let a1 ← x.readDev (buf + 8)
  let a2 ← x.readDev (buf + 16)
  let a5 ← x.readDev (buf + 40)
  let sh ← x.read48 (x.block 0x060)
  let mul ← x.read48 (x.block 0x068)
  let off ← x.read48 (x.block 0x070)
  let vdc ← x.read48 (x.block 0x078)
  let old ← x.read48 (x.sig 0)
  let oldTh ← x.read48 (x.sig 8)
  let pos := extendPos old (fld a0 31 0)
  let vel := (lane24 (rndDiv (pos - old).toInt (2 ^ fld sh 5 0))).val
  let th := (fld a1 31 0 * fld mul 31 0 / 2 ^ fld sh 13 8 + fld off 23 0) % 2 ^ 24
  let dth : BitVec 24 := BitVec.ofNat 24 th - BitVec.ofNat 24 (angleOf oldTh)
  x.write (x.sig 0) pos
  x.write (x.sig 5) (laneWord vel)
  x.write (x.sig 8) (BitVec.ofNat 48 (th * 2 ^ 24))
  x.write (x.sig 9) (laneWord dth.toInt)
  x.write (x.sig 10) (laneWord (busRatio (hiLane vdc) (hiLane a5)))
  x.write (x.block 0x170) (BitVec.ofNat 48 (fld a0 47 32 + fld a1 32 32 * 65536))
  x.write (x.block 0x178) (extendPos pos (fld a2 31 0))
  x.write (x.block 0x080) (BitVec.ofNat 48 (b2n late))
  let tag := sampleTag (bit m0 1) enabled x.axis cyc16
  pure (true, [(0, tag), (1, tag)].foldl (fun (t : Tab W48) (p : Nat × W48) => Tab.set t p.1 p.2 0) [])

/-- AXIS_IN (R192). -/
def execAxisIn (t : Time) (e : Fin 32) (s : State) (ok : Bool := true) : Host.Outcome State Fault Refusal := .next ((s.tick t).runTop e isLibrary axisInBody ok)

/-- The axis record for a split (R193, Table 9.8). SPLIT 3 is reserved and has no record: free words. -/
def KEnv.record (x : KEnv) (split : Nat) : K (W48 × W48) := do
  let hi (w : W48) : Nat := fld w 47 24 * 2 ^ 24
  match split with
  | 0 =>
    let ab ← x.read48 (x.sig 16)
    let c ← x.read48 (x.sig 17)
    pure (BitVec.ofNat 48 (1 + hi c), ab)
  | 1 =>
    let v ← x.read48 (x.sig 7)
    pure (BitVec.ofNat 48 (2 + hi v), 0)
  | 2 =>
    let v ← x.read48 (x.sig 4)
    let sh ← x.read48 (x.block 0x060)
    pure (BitVec.ofNat 48 (3 + fld sh 5 0 * 256 + hi v), 0)
  | _ =>
    let s ← kGet
    kSet s.useFree.useFree
    pure (Config.freeW48 s.freeCtr, Config.freeW48 (s.freeCtr + 1))

/-- AXIS_OUT (R190, R193). -/
def axisOutBody (x : KEnv) : K (Bool × Tab W48) := do
  let s ← kGet
  let c := fld x.w0 32 32
  let a := fld x.w0 14 8
  let m0 ← x.read48 (x.block (0x20 * c))
  let still ← x.read48 (x.block (0x160 + 8 * c))
  let enable := bit m0 0
  let enabled := x.enabled
  let stop : W48 := BitVec.ofNat 48 (if enable && bit still 1 then 5 else 4)
  let r ← if enable && enabled then x.record (fld m0 3 2) else pure (stop, 0)
  let cfg := s.rd (R.axis_CFG a)
  let win := s.ioArea (fld cfg 10 8) + 0x3000 + 64 * fld cfg 15 11 + 16 * fld cfg 17 16
  x.writeDev win r.1
  x.writeDev (win + 8) r.2
  let pi ← x.read48 (x.block 0x0A0)
  let ramp ← x.read48 (at8 pi 9)
  let w10 ← x.read48 (at8 pi 10)
  let w11 ← x.read48 (at8 pi 11)
  let w12 ← x.read48 (at8 pi 12)
  let pos ← x.read48 (x.sig 0)
  let ref ← x.read48 (x.sig 1)
  let late ← x.read48 (x.block 0x080)
  let live := enable && enabled
  let mode := if !enable then 0 else if !enabled then 3 else if fld w10 1 0 = 2 then 2 else 1
  let ferr : Bool := live && fld w12 31 0 ≠ 0 && mag (ramp - pos).toInt > fld w12 31 0 * 65536
  let tmo : Bool := live && fld w11 47 32 ≠ 0 && fld w10 31 16 ≥ fld w11 47 32
  x.write (x.block 0x40) x.w0
  x.write (x.block 0x48) (BitVec.ofNat 48 (mode + b2n ferr * 512 + b2n tmo * 1024 + fld late 0 0 * 2048))
  x.write (x.block 0x50) pos
  x.write (x.block 0x58) (if live then ramp else ref)
  pure (true, [])

/-- AXIS_OUT (R193). -/
def execAxisOut (t : Time) (e : Fin 32) (s : State) (ok : Bool := true) : Host.Outcome State Fault Refusal := .next ((s.tick t).runTop e isLibrary axisOutBody ok)

end Sys2Proof.Machine
end

