-- ==== Sys2Proof/Machine/Brass.lean ====
section
/-! DEFINITION. The Brass instructions, one meaning for each row of the instruction tables (chapter 4). -/

namespace Sys2Proof.Machine

/-! ## Parallel multiply-accumulate and moves (R116 to R120) -/

/-- The early access of a parallel word: the read and the bank with its pointer updated, or a trap. -/
def State.earlyAccess (s : State) (e depth fs : Nat) (b : Bank) (w : W48) : LRes × Bank :=
  if bit w 28 then
    let a := b.ptr s.freeCtr (fld w 22 20) (fld w 19 18)
    let same := bit w 17 && fld w 22 20 = fld w 10 8
    (s.localRead e depth fs a.1, if same then b else a.2)
  else (.word 0, b)

/-- The late access of a parallel word: a read, or a write performed in the state answered (R81, R119). The address is formed from the pointer before the
instruction (R87). -/
def State.lateAccess (s : State) (e depth fs : Nat) (b0 b : Bank) (w : W48) : State × LRes × Bank :=
  if bit w 17 then
    let a := b0.ptr s.freeCtr (fld w 10 8) (fld w 7 6)
    let m := fld w 7 6
    let b' := if m = 0 then b else b.setAd s.freeCtr (regP (fld w 10 8)) (BitVec.ofNat 16 (a.2.latest (regP (fld w 10 8))).toNat) kPtr
    if bit w 16 then
      match s.localWriteTrap e depth a.1 with
      | some c => (s, .trap c a.1, b')
      | none => (s.localWrite e depth a.1 (b0.d s.freeCtr (fld w 15 11)), .word 0, b')
    else (s, s.localRead e depth fs a.1, b')
  else (s, .word 0, b)

/-- A parallel instruction with multiply operation op: operands from before the instruction (R111), the early read before the late write (R81), AOV under
R74 and R118. -/
def parMeaning (op : MacOp) (e : Nat) (s : State) (depth : Nat) (v : Serv) (w : W48) : IRes :=
  let b := v.bank
  let seed := s.freeCtr
  let single := bit w 41
  let an := fld w 40 39
  let ds := b.d seed (fld w 38 34)
  let dt := b.d seed (fld w 33 29)
  let acc := b.a seed an .acc
  let early := s.earlyAccess e depth v.seed b w
  let late := s.lateAccess e depth v.seed b early.2 w
  match early.1, late.2.1 with
  | .trap c a, _ => .trap s c a
  | _, .trap c a => .trap s c a
  | .word x, .word y =>
    let r := if single then macSingle op (b.satAcc seed) acc ds dt else macDual op (b.satAcc seed) acc ds dt
    let b' := late.2.2
    let b' := if op = .none then b' else b'.setA an r.1 kMac
    let b' := b'.flags { aov := r.2 }
    let b' := if bit w 28 then b'.setD (fld w 27 23) x else b'
    let b' := if bit w 17 && !bit w 16 then b'.setD (fld w 15 11) y else b'
    let s' := late.1.perfEv e 0x15 (if op = .none then 0 else 1) none
    .ok (s'.perfEv e 0x41 (b2n r.2) none) { v with bank := b' }

def State.issuePar (s : State) (t : Time) (e : Nat) (op : MacOp) (ok : Bool) : State := s.issue t e (.mac op) (parMeaning op e) ok

/-- MPY (Table 4.6). -/
def execMpy (t : Time) (e : Fin 32) (s : State) (ok : Bool := true) : Host.Outcome State Fault Refusal := .next (s.issuePar t e .mpy ok)
/-- MAC (Table 4.6). -/
def execMac (t : Time) (e : Fin 32) (s : State) (ok : Bool := true) : Host.Outcome State Fault Refusal := .next (s.issuePar t e .mac ok)
/-- MSU (Table 4.6). -/
def execMsu (t : Time) (e : Fin 32) (s : State) (ok : Bool := true) : Host.Outcome State Fault Refusal := .next (s.issuePar t e .msu ok)
/-- MACX (Table 4.6). -/
def execMacx (t : Time) (e : Fin 32) (s : State) (ok : Bool := true) : Host.Outcome State Fault Refusal := .next (s.issuePar t e .macx ok)
/-- MSUX (Table 4.6). -/
def execMsux (t : Time) (e : Fin 32) (s : State) (ok : Bool := true) : Host.Outcome State Fault Refusal := .next (s.issuePar t e .msux ok)
/-- ADDA (Table 4.6). -/
def execAdda (t : Time) (e : Fin 32) (s : State) (ok : Bool := true) : Host.Outcome State Fault Refusal := .next (s.issuePar t e .adda ok)
/-- A parallel instruction with MOP 0 (R119). -/
def execParallelMove (t : Time) (e : Fin 32) (s : State) (ok : Bool := true) : Host.Outcome State Fault Refusal := .next (s.issuePar t e .none ok)

/-! ## ALU (R121 to R123) -/

/-- The second operand (R122). -/
def aluOperand (w : W48) (dt : W48) : W48 :=
  if bit w 40 then
    let i : BitVec 24 := w.extractLsb' 0 24
    if bit w 39 then i ++ i else i.signExtend 48
  else dt

/-- The result of an ALU word on its operands. -/
def aluResult (op : AluOp) (w : W48) (satMode : Bool) (ds dt : W48) : AluR :=
  let t := aluOperand w dt
  let t := if op = .mov && !bit w 40 then ds else t
  if op = .movh then
    let r : W48 := (w.extractLsb' 0 24) ++ (ds.extractLsb' 0 24)
    { val := r, upd := { z := some (r = 0), n := some (bit r 47) } }
  else if bit w 39 then aluLanes op satMode ds t else aluSingle op satMode ds t

/-- An ALU instruction. CMP and TST write no register, and CMOV writes when its condition holds and changes no flag. -/
def aluMeaning (op : AluOp) (e : Nat) (s : State) (_depth : Nat) (v : Serv) (w : W48) : IRes :=
  let b := v.bank
  let seed := s.freeCtr
  let ds := b.d seed (fld w 33 29)
  let dt := b.d seed (fld w 28 24)
  let dd := fld w 38 34
  let s := s.perfEv e 0x15 1 none
  if op = .cmov then
    .ok s { v with bank := if condHolds (b.r16 seed regFLG .op) (fld w 27 24) then b.setD dd ds else b }
  else
    let r := aluResult op w (b.satMode seed) ds dt
    let b' := if op = .cmp || op = .tst then b else b.setD dd r.val
    .ok (s.perfEv e 0x40 (b2n r.upd.sat) none) { v with bank := b'.flags r.upd }

def State.issueAlu (s : State) (t : Time) (e : Nat) (op : AluOp) (ok : Bool) : State := s.issue t e (.alu op) (aluMeaning op e) ok

/-- ADD (Table 4.8). -/
def execAdd (t : Time) (e : Fin 32) (s : State) (ok : Bool := true) : Host.Outcome State Fault Refusal := .next (s.issueAlu t e .add ok)
/-- SUB (Table 4.8). -/
def execSub (t : Time) (e : Fin 32) (s : State) (ok : Bool := true) : Host.Outcome State Fault Refusal := .next (s.issueAlu t e .sub ok)
/-- ADDS (Table 4.8). -/
def execAdds (t : Time) (e : Fin 32) (s : State) (ok : Bool := true) : Host.Outcome State Fault Refusal := .next (s.issueAlu t e .adds ok)
/-- SUBS (Table 4.8). -/
def execSubs (t : Time) (e : Fin 32) (s : State) (ok : Bool := true) : Host.Outcome State Fault Refusal := .next (s.issueAlu t e .subs ok)
/-- NEG (Table 4.8). -/
def execNeg (t : Time) (e : Fin 32) (s : State) (ok : Bool := true) : Host.Outcome State Fault Refusal := .next (s.issueAlu t e .neg ok)
/-- ABS (Table 4.8). -/
def execAbs (t : Time) (e : Fin 32) (s : State) (ok : Bool := true) : Host.Outcome State Fault Refusal := .next (s.issueAlu t e .abs ok)
/-- MIN (Table 4.8). -/
def execMin (t : Time) (e : Fin 32) (s : State) (ok : Bool := true) : Host.Outcome State Fault Refusal := .next (s.issueAlu t e .min ok)
/-- MAX (Table 4.8). -/
def execMax (t : Time) (e : Fin 32) (s : State) (ok : Bool := true) : Host.Outcome State Fault Refusal := .next (s.issueAlu t e .max ok)
/-- AND (Table 4.8). -/
def execAnd (t : Time) (e : Fin 32) (s : State) (ok : Bool := true) : Host.Outcome State Fault Refusal := .next (s.issueAlu t e .and ok)
/-- OR (Table 4.8). -/
def execOr (t : Time) (e : Fin 32) (s : State) (ok : Bool := true) : Host.Outcome State Fault Refusal := .next (s.issueAlu t e .or ok)
/-- XOR (Table 4.8). -/
def execXor (t : Time) (e : Fin 32) (s : State) (ok : Bool := true) : Host.Outcome State Fault Refusal := .next (s.issueAlu t e .xor ok)
/-- NOT (Table 4.8). -/
def execNot (t : Time) (e : Fin 32) (s : State) (ok : Bool := true) : Host.Outcome State Fault Refusal := .next (s.issueAlu t e .not ok)
/-- ASL (Table 4.8, R123). -/
def execAsl (t : Time) (e : Fin 32) (s : State) (ok : Bool := true) : Host.Outcome State Fault Refusal := .next (s.issueAlu t e .asl ok)
/-- ASR (Table 4.8, R77). -/
def execAsr (t : Time) (e : Fin 32) (s : State) (ok : Bool := true) : Host.Outcome State Fault Refusal := .next (s.issueAlu t e .asr ok)
/-- LSL (Table 4.8). -/
def execLsl (t : Time) (e : Fin 32) (s : State) (ok : Bool := true) : Host.Outcome State Fault Refusal := .next (s.issueAlu t e .lsl ok)
/-- LSR (Table 4.8). -/
def execLsr (t : Time) (e : Fin 32) (s : State) (ok : Bool := true) : Host.Outcome State Fault Refusal := .next (s.issueAlu t e .lsr ok)
/-- CMP (Table 4.8). -/
def execCmp (t : Time) (e : Fin 32) (s : State) (ok : Bool := true) : Host.Outcome State Fault Refusal := .next (s.issueAlu t e .cmp ok)
/-- TST (Table 4.8). -/
def execTst (t : Time) (e : Fin 32) (s : State) (ok : Bool := true) : Host.Outcome State Fault Refusal := .next (s.issueAlu t e .tst ok)
/-- MOV (Table 4.8, R123). -/
def execMov (t : Time) (e : Fin 32) (s : State) (ok : Bool := true) : Host.Outcome State Fault Refusal := .next (s.issueAlu t e .mov ok)
/-- MOVH (Table 4.8). -/
def execMovh (t : Time) (e : Fin 32) (s : State) (ok : Bool := true) : Host.Outcome State Fault Refusal := .next (s.issueAlu t e .movh ok)
/-- CMOV (Table 4.8). -/
def execCmov (t : Time) (e : Fin 32) (s : State) (ok : Bool := true) : Host.Outcome State Fault Refusal := .next (s.issueAlu t e .cmov ok)

/-! ## Memory (R124 to R126) -/

/-- The local address of a memory word and the bank with its pointer updated (Tables 3.7 and 4.10). -/
def memAddr (seed : Nat) (b : Bank) (w : W48) : Nat × Bank :=
  match fld w 42 40 with
  | 0 => (fld w 31 16, b)
  | 5 => (b.indexed seed (fld w 39 37) (sfld w 22 16), b)
  | m => b.ptr seed (fld w 39 37) (m - 1)

/-- The pointer-set register of LDP and STP (Table 4.9). -/
def setReg (w : W48) : Nat := 40 + 8 * fld w 36 35 + fld w 34 32

def ldMeaning (e : Nat) (s : State) (depth : Nat) (v : Serv) (w : W48) : IRes :=
  let a := memAddr s.freeCtr v.bank w
  match s.localRead e depth v.seed a.1 with
  | .trap c x => .trap s c x
  | .word x => .ok s { v with bank := a.2.setD (fld w 36 32) x }

def ldpMeaning (e : Nat) (s : State) (depth : Nat) (v : Serv) (w : W48) : IRes :=
  let a := memAddr s.freeCtr v.bank w
  match s.localRead e depth v.seed a.1 with
  | .trap c x => .trap s c x
  | .word x => .ok s { v with bank := a.2.set16 (setReg w) (x.setWidth 16) kWB }

/-- A store of x to the word's local address. -/
def storeMeaning (e : Nat) (s : State) (depth : Nat) (v : Serv) (w : W48) (x : W48) : IRes :=
  let a := memAddr s.freeCtr v.bank w
  match s.localWriteTrap e depth a.1 with
  | some c => .trap s c a.1
  | none => .ok (s.localWrite e depth a.1 x) { v with bank := a.2 }

def stMeaning (e : Nat) (s : State) (depth : Nat) (v : Serv) (w : W48) : IRes :=
  storeMeaning e s depth v w (v.bank.d s.freeCtr (fld w 36 32))

/-- A register extended to 48 bits: M registers sign-extended, others zero-extended (Table 4.4). -/
def ext16 (reg : Nat) (x : BitVec 16) : W48 := if 64 ≤ reg && reg < 72 then x.signExtend 48 else x.setWidth 48

def stpMeaning (e : Nat) (s : State) (depth : Nat) (v : Serv) (w : W48) : IRes :=
  storeMeaning e s depth v w (ext16 (setReg w) (v.bank.r16 s.freeCtr (setReg w) .op))

/-- A far access: va := (DA + OFF16 × 8) mod 2^48 (R126). -/
def farMeaning (store : Bool) (s : State) (_depth : Nat) (v : Serv) (w : W48) : IRes :=
  let seed := s.freeCtr
  let va := v.bank.d seed (fld w 31 27) + w48 (sfld w 26 11 * 8)
  .far v store (fld w 36 32) (if store then v.bank.d seed (fld w 36 32) else 0) va

/-- LD (Table 4.10). -/
def execLd (t : Time) (e : Fin 32) (s : State) (ok : Bool := true) : Host.Outcome State Fault Refusal := .next (s.issue t e (.mem 0) (ldMeaning e) ok)
/-- ST (Table 4.10). -/
def execSt (t : Time) (e : Fin 32) (s : State) (ok : Bool := true) : Host.Outcome State Fault Refusal := .next (s.issue t e (.mem 1) (stMeaning e) ok)
/-- LDP (Table 4.10, R125). -/
def execLdp (t : Time) (e : Fin 32) (s : State) (ok : Bool := true) : Host.Outcome State Fault Refusal := .next (s.issue t e (.mem 2) (ldpMeaning e) ok)
/-- STP (Table 4.10). -/
def execStp (t : Time) (e : Fin 32) (s : State) (ok : Bool := true) : Host.Outcome State Fault Refusal := .next (s.issue t e (.mem 3) (stpMeaning e) ok)
/-- FLD (R89, R90, R126). -/
def execFld (t : Time) (e : Fin 32) (s : State) (ok : Bool := true) : Host.Outcome State Fault Refusal := .next (s.issue t e (.mem 4) (farMeaning false) ok)
/-- FST (R88, R90, R126). -/
def execFst (t : Time) (e : Fin 32) (s : State) (ok : Bool := true) : Host.Outcome State Fault Refusal := .next (s.issue t e (.mem 5) (farMeaning true) ok)

/-! ## Control flow (R128 to R131) -/

/-- NOP (Table 4.11). -/
def nopMeaning (s : State) (_depth : Nat) (v : Serv) (_w : W48) : IRes := .ok s v

/-- A branch to a target when its condition holds; its two delay slots follow in either case (R128). -/
def branchTo (b : Bank) (taken : Bool) (target : Nat) : Bank :=
  if taken then { b with br := some (3, target % 8192) } else { b with slots := 3 }

/-- The condition of a branch, as FLG reads in AD. -/
def branchCond (s : State) (v : Serv) (w : W48) : Bool := condHolds (v.bank.r16 s.freeCtr regFLG .ad) (fld w 39 36)

def brMeaning (s : State) (_depth : Nat) (v : Serv) (w : W48) : IRes :=
  .ok s { v with bank := branchTo v.bank (branchCond s v w) (fld w 12 0) }

def brrMeaning (s : State) (_depth : Nat) (v : Serv) (w : W48) : IRes :=
  .ok s { v with bank := branchTo v.bank (branchCond s v w) (fld (v.bank.d s.freeCtr (fld w 33 29)) 12 0) }

def jlMeaning (s : State) (_depth : Nat) (v : Serv) (w : W48) : IRes :=
  let c := branchCond s v w
  let b := branchTo v.bank c (fld w 12 0)
  .ok s { v with bank := if c then b.setD (fld w 33 29) (BitVec.ofNat 48 ((v.bank.pc + 3) % 8192)) else b }

/-- The count of a LOOP governs every loop-end test after it, a move before it that has not reached WB notwithstanding (R130, R141). -/
def Bank.setLoop (b : Bank) (n cnt : Nat) : Bank :=
  { b with hist := b.hist.filter fun e => e.reg ≠ regLC n }.setAd 0 (regLC n) (BitVec.ofNat 16 cnt) kLoop

/-- LOOP (R129): count, start and end; a count of 0 skips the body. -/
def loopMeaning (s : State) (_depth : Nat) (v : Serv) (w : W48) : IRes :=
  let b := v.bank
  let n := fld w 39 39
  let cnt := if bit w 38 then fld w 28 13 else fld (b.d s.freeCtr (fld w 33 29)) 15 0
  let e := fld w 12 0
  let b := b.setLoop n cnt
  let b := if n = 0 then { b with ls0 := (b.pc + 1) % 8192, le0 := e } else { b with ls1 := (b.pc + 1) % 8192, le1 := e }
  .ok s { v with bank := { b with pc := if cnt = 0 then (e + 1) % 8192 else (b.pc + 1) % 8192 } }

/-- DONE (R131): the operation ends after two delay slots. -/
def doneMeaning (s : State) (_depth : Nat) (v : Serv) (_w : W48) : IRes := .ok s { v with bank := { v.bank with fin := some 3 } }

/-- NOP. -/
def execNop (t : Time) (e : Fin 32) (s : State) (ok : Bool := true) : Host.Outcome State Fault Refusal := .next (s.issue t e (.ctl 0x00) nopMeaning ok)
/-- BR (R128). -/
def execBr (t : Time) (e : Fin 32) (s : State) (ok : Bool := true) : Host.Outcome State Fault Refusal := .next (s.issue t e (.ctl 0x01) brMeaning ok)
/-- BRR (R128). -/
def execBrr (t : Time) (e : Fin 32) (s : State) (ok : Bool := true) : Host.Outcome State Fault Refusal := .next (s.issue t e (.ctl 0x02) brrMeaning ok)
/-- JL (R128). -/
def execJl (t : Time) (e : Fin 32) (s : State) (ok : Bool := true) : Host.Outcome State Fault Refusal := .next (s.issue t e (.ctl 0x03) jlMeaning ok)
/-- LOOP (R129). -/
def execLoop (t : Time) (e : Fin 32) (s : State) (ok : Bool := true) : Host.Outcome State Fault Refusal := .next (s.issue t e (.ctl 0x04) loopMeaning ok)
/-- DONE (R131). -/
def execDone (t : Time) (e : Fin 32) (s : State) (ok : Bool := true) : Host.Outcome State Fault Refusal := .next (s.issue t e (.ctl 0x05) doneMeaning ok)

/-! ## Register moves, accumulators, block floating (R132 to R137) -/

/-- The register a selector names, and the bits a write stores (Table 4.4). -/
def selReg (sel : Nat) : Nat :=
  if sel < 0x20 then 40 + sel else if sel = 0x20 then regFLG else if sel = 0x21 then regCTL else if sel = 0x22 then regLC 0 else regLC 1

def selMask (sel : Nat) : BitVec 16 := if sel = 0x20 then 0x7F else if sel = 0x21 then 0x3 else 0xFFFF

def movsMeaning (s : State) (_depth : Nat) (v : Serv) (w : W48) : IRes :=
  let sel := fld w 39 34
  let x : BitVec 16 := (v.bank.d s.freeCtr (fld w 33 29)).setWidth 16
  .ok s { v with bank := v.bank.set16 (selReg sel) (x &&& selMask sel) kWB }

def moviMeaning (s : State) (_depth : Nat) (v : Serv) (w : W48) : IRes :=
  let sel := fld w 39 34
  .ok s { v with bank := v.bank.set16 (selReg sel) (BitVec.ofNat 16 (fld w 15 0) &&& selMask sel) kWB }

/-- BNK (Table 3.1): current bank, nesting depth, and whether a bank is spilled. -/
def bnkWord (depth : Nat) : W48 := BitVec.ofNat 48 (min depth 1 + depth * 2 + (if depth = 2 then 8 else 0))

def movrMeaning (s : State) (depth : Nat) (v : Serv) (w : W48) : IRes :=
  let sel := fld w 39 34
  let x := if sel = 0x24 then bnkWord depth else ext16 (selReg sel) (v.bank.r16 s.freeCtr (selReg sel) .op)
  .ok s { v with bank := v.bank.setD (fld w 33 29) x }

/-- RND (R133). -/
def rndMeaning (e : Nat) (s : State) (_depth : Nat) (v : Serv) (w : W48) : IRes :=
  let r := rndAcc (bit w 39) (v.bank.satMode s.freeCtr) (v.bank.a s.freeCtr (fld w 37 36) .op) (sfld w 27 22)
  .ok (s.perfEv e 0x40 (b2n r.upd.sat) none) { v with bank := (v.bank.setD (fld w 33 29) r.val).flags r.upd }

/-- MOVA (R134). -/
def movaMeaning (s : State) (_depth : Nat) (v : Serv) (w : W48) : IRes :=
  .ok s { v with bank := v.bank.setA (fld w 37 36) (widen (bit w 39) (v.bank.d s.freeCtr (fld w 33 29))) kWB }

/-- CLR (R134). -/
def clrMeaning (s : State) (_depth : Nat) (v : Serv) (w : W48) : IRes :=
  .ok s { v with bank := v.bank.setA (fld w 37 36) 0 kWB }

/-- EXP (R135). -/
def expMeaning (s : State) (_depth : Nat) (v : Serv) (w : W48) : IRes :=
  let x := expWord (fld w 39 38) (v.bank.d s.freeCtr (fld w 28 24)) (v.bank.a s.freeCtr (fld w 37 36) .op)
  .ok s { v with bank := v.bank.setD (fld w 33 29) x }

/-- NORM (R136). -/
def normMeaning (s : State) (_depth : Nat) (v : Serv) (w : W48) : IRes :=
  let b := v.bank
  let d := b.d s.freeCtr (fld w 28 24)
  let an := fld w 37 36
  let a := b.a s.freeCtr an .op
  let de := fld w 23 19
  let b' := match fld w 39 38 with
    | 0 =>
      let r := normOf 48 0 d.toInt
      (b.setD2 s.freeCtr (fld w 33 29) de (w48 r.1) (w48 r.2)).flags { z := some (r.1 = 0), n := some (r.1 < 0) }
    | 1 =>
      let h := normOf 24 0 (hiLane d)
      let l := normOf 24 0 (loLane d)
      (b.setD2 s.freeCtr (fld w 33 29) de (packLanes h.1 l.1) (packLanes h.2 l.2)).flags
        { z := some (h.1 = 0 && l.1 = 0), n := some (h.1 < 0) }
    | 2 =>
      let h := normOf 56 9 (accHi a)
      let l := normOf 56 9 (accLo a)
      (b.setA an (packAcc h.1 l.1) kWB).setD de (packLanes h.2 l.2)
    | _ =>
      let r := normOf 112 17 a.toInt
      (b.setA an (BitVec.ofInt 112 r.1) kWB).setD de (w48 r.2)
  .ok (if fld w 33 29 = de then s.useFree else s) { v with bank := b' }

/-- BFSC (R80, R137). -/
def bfscMeaning (e : Nat) (s : State) (_depth : Nat) (v : Serv) (w : W48) : IRes :=
  let b := v.bank
  let seed := s.freeCtr
  let ex := sfld (b.d seed (fld w 23 19)) 7 0
  let k := if bit w 39 then sfld w 5 0 else clampI (b.d seed (fld w 18 14)).toInt (-24) 23
  let r := bfsc (b.satMode seed) (b.d seed (fld w 28 24)) ex k
  let s := if fld w 33 29 = fld w 23 19 then s.useFree else s
  .ok (s.perfEv e 0x40 (b2n r.2.2.sat) none)
    { v with bank := (b.setD2 seed (fld w 33 29) (fld w 23 19) r.1 (w48 r.2.1)).flags r.2.2 }

/-- MOVS (R132). -/
def execMovs (t : Time) (e : Fin 32) (s : State) (ok : Bool := true) : Host.Outcome State Fault Refusal := .next (s.issue t e (.ctl 0x08) movsMeaning ok)
/-- MOVR (R132). -/
def execMovr (t : Time) (e : Fin 32) (s : State) (ok : Bool := true) : Host.Outcome State Fault Refusal := .next (s.issue t e (.ctl 0x09) movrMeaning ok)
/-- MOVI (R132). -/
def execMovi (t : Time) (e : Fin 32) (s : State) (ok : Bool := true) : Host.Outcome State Fault Refusal := .next (s.issue t e (.ctl 0x0A) moviMeaning ok)
/-- RND (R133). -/
def execRnd (t : Time) (e : Fin 32) (s : State) (ok : Bool := true) : Host.Outcome State Fault Refusal := .next (s.issue t e (.ctl 0x10) (rndMeaning e) ok)
/-- MOVA (R134). -/
def execMova (t : Time) (e : Fin 32) (s : State) (ok : Bool := true) : Host.Outcome State Fault Refusal := .next (s.issue t e (.ctl 0x11) movaMeaning ok)
/-- CLR (R134). -/
def execClr (t : Time) (e : Fin 32) (s : State) (ok : Bool := true) : Host.Outcome State Fault Refusal := .next (s.issue t e (.ctl 0x12) clrMeaning ok)
/-- EXP (R135). -/
def execExp (t : Time) (e : Fin 32) (s : State) (ok : Bool := true) : Host.Outcome State Fault Refusal := .next (s.issue t e (.ctl 0x13) expMeaning ok)
/-- NORM (R136). -/
def execNorm (t : Time) (e : Fin 32) (s : State) (ok : Bool := true) : Host.Outcome State Fault Refusal := .next (s.issue t e (.ctl 0x14) normMeaning ok)
/-- BFSC (R137). -/
def execBfsc (t : Time) (e : Fin 32) (s : State) (ok : Bool := true) : Host.Outcome State Fault Refusal := .next (s.issue t e (.ctl 0x15) (bfscMeaning e) ok)

/-! ## Reading time, posting tokens (R138 to R140) -/

/-- The firing cycle whose values RDS returns (R138). -/
def State.opStamp (s : State) (key : Nat) : Stamp := if s.pairMode then (s.opSt key).pair else (s.opSt key).fire

/-- Whether RDS returns 0 for the counter sources (R139). -/
def State.countersHidden (s : State) (key : Nat) : Bool := s.pairMode || ((s.opCtx key).2.2 && !s.b R.perfCommon_PCTL 1)

/-- The value of a source (Table 4.12). -/
def State.rdsValue (s : State) (e key src : Nat) : W48 :=
  let st := s.opStamp key
  if src = 0 then BitVec.ofNat 48 st.cyc
  else if src = 1 then st.tcyc
  else if src = 2 then (if s.pairMode then st.tcyc else s.nsNow)
  else if src = 3 then (if s.countersHidden key then 0 else BitVec.ofNat 48 (s.ecycOf e))
  else if src < 12 then (if s.countersHidden key then 0 else s.rd48 (R.perfCell_PCNT_LO (e / 4) (e % 4) (src - 4)))
  else st.lpp.getD (src - 12) 0

def rdsMeaning (e : Nat) (s : State) (_depth : Nat) (v : Serv) (w : W48) : IRes :=
  let s := s.slots e (s.eng e).slotClass
  .ok s { v with bank := v.bank.setD (fld w 33 29) (s.rdsValue e v.key (fld w 39 34)) }

def postMeaning (s : State) (_depth : Nat) (v : Serv) (w : W48) : IRes :=
  let arc := fld w 39 38
  .ok s (if arc < (s.opRec v.key).nOut then { v with posted := Tab.set v.posted arc (v.bank.d s.freeCtr (fld w 33 29)) 0 } else v)

/-- RDS (R138). -/
def execRds (t : Time) (e : Fin 32) (s : State) (ok : Bool := true) : Host.Outcome State Fault Refusal := .next (s.issue t e (.ctl 0x18) (rdsMeaning e) ok)
/-- POST (R140). -/
def execPost (t : Time) (e : Fin 32) (s : State) (ok : Bool := true) : Host.Outcome State Fault Refusal := .next (s.issue t e (.ctl 0x19) postMeaning ok)

end Sys2Proof.Machine
end

