-- ==== Sys2Proof/Machine/Complete.lean ====
section
/-! DEFINITION. The return of far loads and the completion of an operation (R88, R89, R163). -/

namespace Sys2Proof.Machine

/-! ## FAR_LOAD_RETURN (R88, R89) -/

/-- The data of a returning load: the operation's own store before it, host memory's answer, or what the place holds. -/
def State.loadData (s : State) (k : Nat) (l : FLoad) (hostData : W64) : State × Option W48 :=
  match l.own with
  | some y => (s, some y.2)
  | none =>
    if l.at'.host then (s, some (hostData.setWidth 48))
    else
      let r := s.engRead k l.at'
      (r.1, r.2.map (·.setWidth 48))

/-- A load into register d that may return: the place of every store of the operation before it is known (R88). -/
def Serv.mayReturn (v : Serv) (d : Nat) : Option FLoad := v.loads.find? fun l => l.d = d && !v.walks.any fun w => w.store && w.seq < l.seq

def State.loadReturn (s : State) (e d : Nat) (hostData : W64) : State :=
  match s.depthWith e (fun v => !v.ghost && (v.mayReturn d).isSome) with
  | none => s
  | some depth =>
    match (s.servAt e depth).bind fun v => (v.mayReturn d).map fun l => (v.key, l) with
    | none => s
    | some (k, l) =>
      let s := s.slots e (if (s.eng e).slotClass = 2 then 5 else (s.eng e).slotClass)
      let r := s.loadData k l hostData
      match r.1.servAt e depth with
      | none => r.1
      | some v =>
        let v := { v with loads := v.loads.erase l }
        match r.2 with
        | some w => r.1.setServ e depth { v with bank := v.bank.land d w }
        | none => (r.1.setServ e depth v).trap e depth 5 l.pc l.va.toNat

/-- FAR_LOAD_RETURN (R89): the load into register d of engine e returns; hostData is what host memory answers when the load went there. -/
def execFarLoadReturn (t : Time) (e : Fin 32) (d : Fin 32) (hostData : W64) (s : State) : Host.Outcome State Fault Refusal :=
  .next ((s.tick t).loadReturn e d hostData)

/-! ## OPERATION_COMPLETE (R163) -/

/-- The outputs of a completed operation: on each arc it feeds a token, or an entry of a delay list; ports without a posted word carry 0 (R140, R158). -/
def State.outputs (s : State) (key : Nat) (posted : Tab W48) (st : Stamp) : State :=
  if key / 4096 ≠ s.bankNo then s
  else
    match s.graph with
    | none => s
    | some g =>
      (List.range g.arcs.length).foldl (fun s i =>
        match g.arcs[i]? with
        | some a =>
          if a.kind = 0 && a.src = key % 4096 then
            let w := Tab.get posted a.srcPort 0
            if a.viaDl then s.dlInsert i a w st else s.arcPost i w st
          else s
        | none => s) s

/-- The operation at a depth leaves its engine: from the top the engine returns to the operation below, or idles. -/
def State.leaveEngine (s : State) (e depth : Nat) : State :=
  if depth = s.topDepth e then s.popTop e
  else match s.servAt e depth with
    | some v => s.setServ e depth { v with ghost := true, cbuf := [], posted := [], draining := false }
    | none => s

/-- An operation's flow leaves service and its firing record is released (R163). -/
def State.releaseOp (s : State) (key : Nat) : State :=
  let x := s.opSt key
  let s := s.setOpSt key { phase := 0, aborts := x.aborts, code := x.code }
  ((s.afterService key).cellsTake).activationEnd

def State.operationComplete (s : State) (e : Nat) : State :=
  match s.depthWith e (·.draining) with
  | none => s
  | some depth =>
    match s.servAt e depth with
    | none => s
    | some v =>
      let s := v.cbuf.foldl (fun s x => s.drainWrite e v.key x) s
      let s := (s.perfEv e 0x31 1 none).fdGood 4 e
      let s := s.leaveEngine e depth
      if v.key = runtimeKey then s.setEng e { s.eng e with testSince := none }
      else (s.outputs v.key v.posted (s.opSt v.key).pair).releaseOp v.key

/-- OPERATION_COMPLETE (R163): the drain's writes land, outputs are delivered, and the flow and the engine are free. -/
def execOperationComplete (t : Time) (e : Fin 32) (s : State) : Host.Outcome State Fault Refusal := .next ((s.tick t).operationComplete e)

end Sys2Proof.Machine
end

