-- ==== Sys2Proof/Machine/Dma.lean ====
section
/-! DEFINITION. DMA transfers: descriptors, elements, their reads and writes, and halts (R539 to R547). -/

namespace Sys2Proof.Machine

/-- Bytes a descriptor transfers. -/
def descBytes (d : List Byte) : Nat := if descOp d = 5 then 0 else if isRing d then 32 * descSeg d else descLen d

/-- A non-zero reserved bit (R540, Table 16.2). -/
def descReserved (d : List Byte) : Bool :=
  let w := dle d 0 4
  let op := descOp d
  w / 512 % 2 ≠ 0 || w / 4096 % 16 ≠ 0 || w / 2 ^ 22 ≠ 0 ||
  (descXs d && op ≠ 3) || (descCtx d ≠ 0 && !descXd d && !descXs d) ||
  (if isRing d then dle d 4 4 / 512 % 128 ≠ 0 || dle d 4 4 / 2 ^ 23 ≠ 0 else dle d 4 4 / 2 ^ 24 ≠ 0) ||
  descD d / 2 ^ 48 ≠ 0 || ((op = 4 || op = 5) && descD d ≠ 0) || (op = 5 && descH d ≠ 0) || (descXs d && descH d / 2 ^ 48 ≠ 0)

/-- A device range that lies beyond the space, or touches registers or an engine window without multiples of 8 (R540). -/
def rangeBad (a n : Nat) : Bool := a + n > 0x02000000 || (a < 0x01000000 && (a % 8 ≠ 0 || n % 8 ≠ 0))

/-- The first failing check of R540, by number; 0 for none. -/
def State.descCheck (s : State) (d : List Byte) : Nat :=
  let op := descOp d
  let n := descLen d
  if op = 0 || op > 5 then 1
  else if descReserved d then 2
  else if op ≤ 3 && n = 0 then 3
  else if op = 4 && (descSeg d = 0 || descSeg d > 256) then 4
  else if op = 4 && (!s.axBound (descAxis d) || s.f (R.axis_RING_LEN (descAxis d)) 10 0 = 0) then 5
  else if (descXd d || descXs d) && !s.running then 6
  else if (op ≤ 3 && !descXd d && rangeBad (descD d) n) || (op = 3 && !descXs d && rangeBad (descH d) n) then 7
  else if op = 4 && descH d % 8 ≠ 0 then 8
  else 0

/-! ## Halts (R544) -/

/-- A host completion error count of PCIE_ERR. -/
def State.pcieErr (s : State) (lo : Nat) : State := s.inc R.pcie_PCIE_ERR (lo + 7) lo

/-- The reservation of an element that will not be written is taken back. -/
def State.unreserve (s : State) (e : DmaElem) : State :=
  match e.axis with
  | some a => s.ringFree a e.idx
  | none => s

/-- The channel halts; its elements in flight are discarded, and it will continue from the oldest of them. -/
def State.dmaHalt (s : State) (c status detail : Nat) (addr : W64) : State :=
  let x := s.dmaCh c
  let s := x.elems.reverse.foldl State.unreserve s
  let s := s.setDma c { x with elems := [], started := x.landed, off := s.f (R.dma_BYTES c) 23 0, stop := false }
  let s := ((s.setChState c 5).setF (R.dma_CH_STAT c) 7 4 status).setF (R.dma_CH_STAT c) 15 8 detail
  let s := (s.wr (R.dma_FADDR_W0 c) (addr.setWidth 32)).wr (R.dma_FADDR_W1 c) (BitVec.ofNat 32 (addr.toNat / 2 ^ 32))
  ((s.inc R.dma_DMA_STAT 31 16).dmaShow c).irqB P.dma 24

/-- The oldest element of a channel halts it when it has failed. -/
def State.dmaFront (s : State) (c : Nat) : State :=
  match (s.dmaCh c).elems with
  | [] => s
  | e :: _ => match e.fail with
    | some (st, d, a) => s.dmaHalt c st d a
    | none => s

/-- STATUS and DETAIL of a device access that was not performed: a double-bit error has no KIND, so that its DETAIL is free. -/
def busStatus (seed : Nat) : BusErr → Nat × Nat
  | .failed k => (3, k.code)
  | .isolated => (5, 0)
  | .ecc => (3, (Config.freeByte seed).toNat)

/-! ## Starting an element (R541, R542) -/

/-- The user flag of a context and the privilege bit its transfers carry. -/
def State.ctxUser (s : State) (ctx : Nat) : Bool := ((s.ctxRec s.bankNo ctx).elim 0 (·.priv)) = 0
def State.ctxPbit (s : State) (ctx : Nat) : Nat := if s.ctxUser ctx then 2 else 1

/-- One device side of an element: where it lies, or why it fails (STATUS and DETAIL). -/
def State.dmaSide (s : State) (d : List Byte) (x write : Bool) (a : Nat) : State × Except (Nat × Nat) Phys :=
  if !x then (s, .ok { host := false, addr := a })
  else
    match s.translate 8 s.bankNo (descCtx d) (BitVec.ofNat 48 a) write (s.ctxUser (descCtx d)) with
    | (s, .ok p) => (s, .ok p)
    | (s, .fault code lv) => (s, .error (2, code + (lv - 1) * 16 + b2n write * 64))
    | (s, _) => (s.useFree, .error (3, (Config.freeByte s.freeCtr).toNat))

/-- The length of the element at an offset: up to the next 256-byte boundary of the device address, one segment for RING. -/
def elemLen (d : List Byte) (off : Nat) : Nat :=
  if isRing d then 32 else min (descLen d - off) (256 - (descD d + off) % 256)

/-- The offset of element k. -/
def elemOff (d : List Byte) : Nat → Nat
  | 0 => 0
  | k + 1 => elemOff d k + elemLen d (elemOff d k)

/-- Read the source of an element whose sides are known. -/
def State.elemRead (s : State) (d : List Byte) (e : DmaElem) : State × DmaElem :=
  if e.src.host then (s.emit (.hostRead (BitVec.ofNat 64 e.src.addr) e.len), e)
  else
    let x := if descOp d = 3 then descXs d else descXd d
    match s.busReads .dma (if x then s.ctxPbit (descCtx d) else 0) (pieces e.src.addr e.len e.len) with
    | (s, .ok l) => (s, { e with data := some l })
    | (s, .error (err, a)) =>
      let st := busStatus s.freeCtr err
      (s.useFree, { e with fail := some (st.1, st.2, e.sa + BitVec.ofNat 64 (a - e.src.addr)) })

/-- The next element of a channel's descriptor, translated and read. A RING element reserves its segment first (R235). -/
def State.elemMake (s : State) (d : List Byte) (off : Nat) : State × DmaElem :=
  let n := elemLen d off
  let host (a : Nat) : Phys := { host := true, addr := a }
  let sa := descH d + off
  let da := descD d + off
  let mk (src dst : Phys) (sa da : Nat) (ax : Option Nat) : DmaElem :=
    { len := n, src := src, dst := dst, sa := BitVec.ofNat 64 sa, da := BitVec.ofNat 64 da, axis := ax, data := none, fail := none }
  let bad (f : Nat × Nat) (a : Nat) : DmaElem :=
    { mk (host 0) (host 0) sa da none with fail := some (f.1, f.2, BitVec.ofNat 64 a) }
  match descOp d with
  | 1 => match s.dmaSide d (descXd d) true da with
    | (s, .ok p) => s.elemRead d (mk (host sa) p sa da none)
    | (s, .error f) => (s, bad f da)
  | 2 => match s.dmaSide d (descXd d) false da with
    | (s, .ok p) => s.elemRead d (mk p (host sa) da sa none)
    | (s, .error f) => (s, bad f da)
  | 3 => match s.dmaSide d (descXs d) false sa with
    | (s, .error f) => (s, bad f sa)
    | (s, .ok p) => match s.dmaSide d (descXd d) true da with
      | (s, .ok q) => s.elemRead d (mk p q sa da none)
      | (s, .error f) => (s, bad f da)
  | _ =>
    let a := descAxis d
    let len := s.f (R.axis_RING_LEN a) 10 0
    let r := s.ringTake a
    let at' := s.profBlock a + 512 + 32 * (r.2 % (if len = 0 then 1 else len))
    r.1.elemRead d { mk (host sa) { host := false, addr := at' } sa at' (some a) with idx := r.2 }

/-- Whether a channel has an element it can start: RUN, no stop asked for, nothing failed, and something left of its descriptor or a descriptor to read. -/
def State.chStarts (s : State) (c : Nat) : Bool :=
  let x := s.dmaCh c
  s.chState c = 2 && s.chEn c && !x.stop && (x.elems.all (·.fail.isNone)) &&
  (match x.desc with
  | none => s.chTail c ≠ s.chHead c
  | some d => x.off < descBytes d)

def State.chPrio (s : State) (c : Nat) : Nat := s.f (R.dma_CH_CFG c) 2 1

/-- The channel the engine picks: of highest PRIO, in turn after the one served last (R542). -/
def State.dmaPick (s : State) : Option Nat :=
  let last := s.f R.dma_DMA_STAT 11 8
  let l := ((List.range 16).map fun i => (last + 1 + i) % 16).filter s.chStarts
  l.foldl (fun b c => match b with
    | none => some c
    | some k => if s.chPrio c > s.chPrio k then some c else some k) none

/-- Whether the DMA engine runs: out of reset, bus mastering in D0, and in pair mode with a claim (R532, R547). -/
def State.dmaOpen (s : State) : Bool :=
  !s.blockInReset 0x0E && s.pcie.busMaster && !s.pcie.d3hot && (!s.pairMode || s.pair.claim)

/-- The descriptor at HEAD is written back, with its interrupt, and the channel goes on unless it is to stop. -/
def State.dmaDone (s : State) (c bytes : Nat) (irq : Bool) : State :=
  let stop := (s.dmaCh c).stop
  let s := s.descDone c 0 0 bytes
  let s := s.irqIf irq P.dma (8 + c)
  let s := (s.dmaGo c).setDma c { s.dmaCh c with stop := stop }
  s.dmaSettle c

/-- A descriptor read at HEAD: refused (R540), a NOP done at once (R543), or in service from its first element not landed (R547). -/
def State.dmaRead (s : State) (c : Nat) (d : List Byte) : State :=
  match s.descCheck d with
  | 0 =>
    if descOp d = 5 then s.dmaDone c 0 (descIrq d)
    else
      let x := s.dmaCh c
      let off := elemOff d x.landed
      (s.setDma c { x with desc := some d, started := x.landed, off := off }).wr (R.dma_BYTES c) (BitVec.ofNat 32 off)
  | k => (s.setDma c { s.dmaCh c with desc := some d }).dmaHalt c 1 k (s.descAddr c (s.chHead c))

/-- Start the next element of the descriptor in service; a RING element waits where the ring has no credit (R235). -/
def State.dmaNext (s : State) (c : Nat) (d : List Byte) : State :=
  let x := s.dmaCh c
  if x.off ≥ descBytes d then s
  else if isRing d && s.ringCredit (descAxis d) = 0 then s.setChState c 3
  else
    let r := s.elemMake d x.off
    let s := r.1.setDma c { x with started := x.started + 1, off := x.off + r.2.len, elems := x.elems ++ [r.2] }
    (s.dmaShow c).dmaFront c

/-- Channels in turn whose next segment has no credit go to WAIT and are passed over (R235, R542); at most n of them. -/
def State.dmaPass (s : State) : Nat → State
  | 0 => s
  | n + 1 => match s.dmaPick with
    | none => s
    | some c => match (s.dmaCh c).desc with
      | none => s
      | some d => if isRing d && s.ringCredit (descAxis d) = 0 then State.dmaPass (s.setChState c 3) n else s

def State.dmaStart (s : State) (desc : List Byte) : State :=
  let s := if s.dmaOpen then s.dmaPass 16 else s
  if !s.dmaOpen || (s.dma.foldl (fun n e => n + e.2.elems.length) 0) ≥ 16 then s
  else match s.dmaPick with
  | none => s
  | some c =>
    let s := s.setF R.dma_DMA_STAT 11 8 c
    let s := if (s.dmaCh c).desc.isNone then s.dmaRead c ((desc ++ List.replicate 32 0).take 32) else s
    match (s.dmaCh c).desc with
    | some d => if s.chState c = 2 then s.dmaNext c d else s
    | none => s

/-- DMA_ELEMENT_START (R540 to R542). desc is what the channel reads at HEAD when it has no descriptor in service. -/
def execDmaElementStart (t : Time) (desc : List Byte) (s : State) : Host.Outcome State Fault Refusal := .next ((s.tick t).dmaStart desc)

/-! ## Completions and landings -/

/-- Replace the oldest element that waits for host data. -/
def answerElem (f : DmaElem → DmaElem) : List DmaElem → List DmaElem
  | [] => []
  | e :: r => if e.data.isNone && e.fail.isNone then f e :: r else e :: answerElem f r

def DmaCh.waits (x : DmaCh) : Bool := x.elems.any fun e => e.data.isNone && e.fail.isNone

/-- The oldest element that waits for host data has failed (R544). -/
def State.dmaHostFail (s : State) (c detail : Nat) : State :=
  let x := s.dmaCh c
  (s.setDma c { x with elems := answerElem (fun e => { e with fail := some (4, detail, e.sa) }) x.elems }).dmaFront c

def State.dmaHost (s : State) (c : Nat) (cpl : HostCpl) : State :=
  let x := s.dmaCh c
  if !x.waits then s
  else match cpl with
  | .data l => s.setDma c { x with elems := answerElem (fun e => { e with data := some (l.take e.len) }) x.elems }
  | .failed st => (s.pcieErr 16).dmaHostFail c st.toNat
  | .poisoned => (s.pcieErr 24).dmaHostFail c 8

/-- DMA_HOST_COMPLETION (R544). -/
def execDmaHostCompletion (t : Time) (c : Fin 16) (cpl : HostCpl) (s : State) : Host.Outcome State Fault Refusal := .next ((s.tick t).dmaHost c cpl)

/-- PCIE_COMPLETION_TIMEOUT (R544): for DMA the element fails with 0x7; an engine's far load of host memory ends in an error response (R89). -/
def execPcieCompletionTimeout (t : Time) (o : HostReqOwner) (s : State) : Host.Outcome State Fault Refusal :=
  let s := s.tick t
  .next (match o with
  | .dma c => if (s.dmaCh c).waits then (s.pcieErr 8).dmaHostFail c 7 else s
  | .engine e =>
    match s.depthWith e fun v => v.loads.any (·.at'.host) with
    | none => s
    | some d => match (s.servAt e d).bind fun v => v.loads.find? (·.at'.host) with
      | some l => (s.pcieErr 8).trap e d 5 l.pc l.va.toNat
      | none => s)

/-- The oldest element has landed: it is counted, and the descriptor written back after its last (R541, R543). -/
def State.elemDone (s : State) (c : Nat) (e : DmaElem) : State :=
  let x := s.dmaCh c
  let s := match e.axis with
    | some a => s.ringLand a e.idx
    | none => s
  let n := s.f (R.dma_BYTES c) 23 0 + e.len
  let s := ((s.setDma c { x with elems := x.elems.tail, landed := x.landed + 1 }).setF (R.dma_BYTES c) 23 0 n).dmaShow c
  match x.desc with
  | some d => if n ≥ descBytes d then s.dmaDone c n (descIrq d) else (s.dmaSettle c).dmaFront c
  | none => s

/-- Write the oldest element: all of it, or nothing when one of its accesses fails (R544). -/
def State.elemWrite (s : State) (c : Nat) (e : DmaElem) (l : List Byte) : State :=
  if e.dst.host then (s.emit (.hostWrite (BitVec.ofNat 64 e.dst.addr) l)).elemDone c e
  else
    let d := (s.dmaCh c).desc.getD []
    let pb := if descXd d then s.ctxPbit (descCtx d) else 0
    let ps := pieces e.dst.addr e.len e.len
    match ps.find? fun p => s.writeBad p.1 p.2 with
    | none => (s.busWrites .dma l e.dst.addr pb ps).elemDone c e
    | some p =>
      let r := s.busWrite .dma p.1 p.2 0 pb
      let st := busStatus s.freeCtr (r.2.getD .ecc)
      r.1.useFree.dmaHalt c st.1 st.2 (e.da + BitVec.ofNat 64 (p.1 - e.dst.addr))

/-- DMA_ELEMENT_LANDED (R541, R543). -/
def execDmaElementLanded (t : Time) (c : Fin 16) (s : State) : Host.Outcome State Fault Refusal :=
  let s := s.tick t
  .next (if s.blockInReset 0x0E then s
  else match (s.dmaCh c).elems with
  | [] => s
  | e :: _ => match e.data, e.fail with
    | some l, none => s.elemWrite c e l
    | _, _ => s)

/-- At a cycle boundary, channels that waited for credit and now have some run again (R235). -/
def State.dmaWake (s : State) : State :=
  (List.range 16).foldl (fun s c =>
    match (s.dmaCh c).desc with
    | some d =>
      if s.chState c = 3 && isRing d && s.ringCredit (descAxis d) > 0 then s.setChState c 2 else s
    | none => s) s

end Sys2Proof.Machine
end

