-- ==== Sys2Proof/Machine/Cycle.lean ====
section
/-! DEFINITION. The start of a cycle: what every block does at a cycle boundary (R20 and the rules named below). -/

namespace Sys2Proof.Machine

/-! ## The boundary itself (R20, R398, R517) -/

/-- Place τ, advance CHIP.CYCLE (0 at the first boundary), show the phase and place the next target. -/
def State.newCycle (s : State) : State :=
  let k := if s.firstCycle then 0 else s.cycle + 1
  let s := { s with tau := s.now, tauDev := s.devTime s.now, firstCycle := false }
  ((s.wr48 R.chip_CYCLE_LO (BitVec.ofNat 48 k)).showPhase).placeTarget

/-! ## Lahar at a boundary (R145, R153, R157, R168, R430) -/

/-- READY.NOW and READY.PEAK (R168). -/
def State.recordReady (s : State) : State :=
  (List.range 8).foldl (fun s c =>
    let n := (s.readyOf c).length
    let a := R.cell_READY c
    (s.setF a 12 0 n).setF a 28 16 (max n (s.f a 28 16))) s

/-- FLOW_EN writes that waited for the boundary in pair mode (R153); nothing of an old graph fires at the boundary that switches (canFire). -/
def State.takeFlows (s : State) : State :=
  let l := s.lahar.flowPend
  if l.isEmpty then s
  else
    let s := s.setLahar { s.lahar with flowPend := [] }
    (l.foldl (fun s (x : Nat × Option W32) => match x.2 with
      | some v => s.wr (R.lahar_FLOW_EN x.1) v
      | none => s) s).fireAll

/-- What a standby takes of branch b (R434). -/
def State.branchNow (s : State) (b : Nat) : BranchAgree :=
  { runs := s.bstate b = 2, dtotal := s.rd (R.nodeTable_DTOTAL b),
    nodes := (List.range 24).map fun h => (s.rd (R.nodeTable_NODE_STATE b h), s.rd (R.nodeTable_NODE_DELAY b h), s.rd (R.nodeTable_NODE_DELAY_FAR b h)),
    held := (List.range (s.nSlots b)).map fun sl => s.recWords b sl (s.slot b sl).held }

/-- What the active presents at this boundary and sends to the standby in the agreement record (R430, R431). -/
def State.agreedNow (s : State) : AgreementRec :=
  { cycle := BitVec.ofNat 48 s.cycle, tcyc := some s.tk, lps := (List.range 4).map s.lpState,
    qes := (List.range 8).map fun q => { cycPos := s.rd (R.qe_CYC_POS q), cycAng := s.rd (R.qe_CYC_ANG q), edgeT := s.rd48 (R.qe_EDGE_T_LO q) },
    tokens := (dueBells 16 s.lahar.bells).1, ticks := (List.range 4).map fun l => s.pair.owedTicks.getD l 0,
    branches := (List.range 8).map s.branchNow }

/-- The active sends the agreement record of this boundary (R431). -/
def State.sendRecord (s : State) : State := if s.role = 1 then s.emit (.agreed s.agreedNow) else s

/-- The tokens of a boundary on a device that is no standby. -/
def State.postBoundary (s : State) : State :=
  let r := s.agreedNow
  let s := (s.setLahar { s.lahar with bells := (dueBells 16 s.lahar.bells).2 }).setPair { s.pair with owedTicks := [] }
  let s := r.ticks.zipIdx.foldl (fun s (x : Nat × Nat) => s.dlAdvance x.2 x.1) s
  let s := s.cycleTicks
  let s := r.tokens.foldl (fun s x => s.post x.kind.toNat x.src.toNat x.word s.stamp) s
  s.postCycle

/-- Lahar's part: at a boundary at which the graphs switch GRAPH_SWITCH posts instead, and on a standby the agreement record does (R178, R431). -/
def State.laharBoundary (s : State) : State :=
  let s := s.recordReady.takeFlows
  if s.isStandby then s
  else
    let s := s.sendRecord
    if s.switchDue then s.setPair { s.pair with owedTicks := [] } else s.postBoundary

/-! ## The active's channel state (R547) -/

def State.sendChannels (s : State) : State :=
  if s.pairMode && s.pair.claim && s.inLockstep then
    (List.range 16).foldl (fun s c =>
      if s.b (R.dma_CH_CFG c) 0 then
        let a := R.dma_HEAD c
        let n : Nat := (s.dmaCh c).landed
        (s.emit (.mirrored a 4 ((s.rd a).setWidth 64))).emit (.mirrored (R.dma_CUR c) 4 (BitVec.ofNat 64 n))
      else s) s
  else s

/-! ## CYCLE_START -/

/-- Everything a cycle boundary brings about. -/
def State.cycleStart (s : State) : State :=
  let s := s.recordCycle.takeDue.standbyStart
  let s := if s.firstCycle then s else s.craterEnd
  let s := s.newCycle
  let s := s.copiesMeet
  let s := s.sendSyncs
  let s := (List.range 128).foldl State.axLatch s
  let s := s.lpCycle
  let s := s.keepMasters
  let s := s.dmaWake
  let s := (s.gChans.foldl State.gCycle s).gBudgetShow
  let s := s.laharBoundary
  let s := s.agreeDemands
  let s := s.offPulseTest
  let s := s.pxCycle
  let s := s.lvCycle
  let s := (List.range 8).foldl State.echoCycle s
  s.sendChannels

/-- CYCLE_START (R20): the first tick in which device time has reached the target. -/
def execCycleStart (t : Time) (s : State) : Host.Outcome State Fault Refusal :=
  let s := s.tick t
  .next (if s.cycleDue then s.cycleStart else s)

end Sys2Proof.Machine
end

