-- ==== Sys2Proof/Machine/Host.lean ====
section
/-! DEFINITION. Requests of the host and the cascade to memory (R531, R532), the cascade window (R454), writes mirrored from the active of a pair (R432), flash boot
(R525, R526) and the scrubber (R17). -/

namespace Sys2Proof.Machine

/-! ## HOST_MEMORY_REQUEST (R531) -/

/-- Why a request fails as a whole. -/
def State.reqFail (s : State) (a len : Nat) (write : Bool) : Option FailKind :=
  if a < 0x00800000 then s.accessFail a len write
  else if len = 0 || len > 256 || a / 4096 ≠ (a + len - 1) / 4096 then some .size
  else (pieces a len len).findSome? fun p => s.accessFail p.1 p.2 write

/-- A write request: its accesses in ascending address. -/
def State.reqWrite (s : State) (m : Master) (a len : Nat) (data : List Byte) : State :=
  if a < 0x00800000 then (s.busWrite m a len (leNat (data.take len))).1 else s.busWrites m data a 0 (pieces a len len)

/-- A read request: its data, or one Unsupported Request answer. -/
def State.reqRead (s : State) (m : Master) (a len : Nat) : State :=
  if a < 0x00800000 then
    match s.busRead m a len with
    | (s, .ok v) => s.emit (.readData m a (BitVec.ofNat 64 v))
    | (s, .error _) => s
  else match s.busReads m 0 (pieces a len len) with
    | (s, .ok l) => s.emit (.readBytes m a l)
    | (s, .error _) => s

/-- A request to the device's own space. -/
def State.request (s : State) (m : Master) (a : Nat) (write : Bool) (len : Nat) (data : List Byte) : State :=
  match s.reqFail a len write with
  | some k => s.failAccess m a write k
  | none => if write then s.reqWrite m a len data else s.reqRead m a len

/-- HOST_MEMORY_REQUEST (R531, R532). -/
def execHostMemoryRequest (t : Time) (m : Master) (addr : BitVec 25) (write : Bool) (len : Nat) (data : List Byte) (s : State) :
    Host.Outcome State Fault Refusal :=
  let s := s.tick t
  .next (if s.barOpen m then s.request m addr.toNat write len data else s.barRefuse m addr.toNat write)

/-! ## BAR2_REQUEST (R454) -/

/-- The checks of R531 that need nothing of the device addressed. -/
def shapeFail (a len : Nat) (write : Bool) : Option FailKind :=
  if a + len > 0x02000000 then some .unmapped
  else if a < 0x00800000 then (if (len = 4 || len = 8) && a % len = 0 then none else some .size)
  else if len = 0 || len > 256 || a / 4096 ≠ (a + len - 1) / 4096 then some .size
  else if a < 0x01000000 then
    if a % 0x40000 ≥ 0x30000 then some .unmapped
    else if (pieces a len len).all fun p => p.2 = 8 || (p.2 = 4 && !write) then none else some .size
  else none

/-- A cascade access refused to the host. -/
def State.bar2Refuse (s : State) (r : Bar2Req) : State :=
  if r.write then s.inc R.pcie_PCIE_ERR 7 0 else s.cascadeUr r.slot.toNat r.off.toNat

/-- Send the parts of a request to a device that is present. -/
def State.cascadeSend (s : State) (r : Bar2Req) : State :=
  let parts := cascParts r.off.toNat r.len
  if r.write then
    parts.foldl (fun s p => s.emit (.cascade r.slot.toNat p.1 true p.2 ((r.data.drop (p.1 - r.off.toNat)).take p.2))) s
  else
    let x : CascRead := { tag := s.lv.nextTag, since := s.now, slot := r.slot.toNat, off := r.off.toNat, len := r.len, parts := [] }
    let s := s.setLv { s.lv with reads := s.lv.reads ++ [x], nextTag := s.lv.nextTag + 1 }
    parts.foldl (fun s p => s.emit (.cascade r.slot.toNat p.1 false p.2 [])) s

/-- A request through the cascade window. The slot of the device itself is its own space. A read that would be the 33rd outstanding waits at the root, so it has not been
made yet. -/
def State.bar2 (s : State) (r : Bar2Req) : State :=
  let id := r.slot.toNat
  if !s.barOpen .host || !s.b R.lvCommon_LVSTAT 7 then s.bar2Refuse r
  else match shapeFail r.off.toNat r.len r.write with
  | some k => (s.recordFail .host r.off.toNat r.write k).bar2Refuse r
  | none =>
    if s.b R.lvCommon_LVSTAT 6 && s.f R.lvCommon_LVSTAT 5 0 = id then s.request .cascade r.off.toNat r.write r.len r.data
    else if !s.b (R.lvCommon_PRESENT (id / 32)) (id % 32) then
      ((s.inc R.lvCommon_LVERR 31 16).recordFail .cascade r.off.toNat r.write .unmapped).bar2Refuse r
    else if !r.write && s.lv.reads.length ≥ 32 then s
    else s.cascadeSend r

/-- BAR2_REQUEST (R454). -/
def execBar2Request (t : Time) (r : Bar2Req) (s : State) : Host.Outcome State Fault Refusal := .next ((s.tick t).bar2 r)

/-! ## MIRRORED_WRITE (R432, R547) -/

/-- The channel whose HEAD or CUR lies at a register address, and which of the two. -/
def dmaProgress (a : Nat) : Option (Nat × Bool) :=
  if R.dma_CH_CFG 0 ≤ a && a < R.dma_CH_CFG 16 then
    let c := (a - R.dma_CH_CFG 0) / 64
    if a = R.dma_HEAD c then some (c, true) else if a = R.dma_CUR c then some (c, false) else none
  else none

/-- The standby performs a write carried over PX. HEAD and the count of elements landed follow the active's (R547). -/
def State.mirrored (s : State) (a n v : Nat) : State :=
  match dmaProgress a with
  | some (c, true) => s.setF (R.dma_HEAD c) 15 0 v
  | some (c, false) => (s.setDma c { s.dmaCh c with landed := v / 65536 % 65536 }).wr (R.dma_CUR c) (BitVec.ofNat 32 v)
  | none => (s.busWrite .luavan a n v).1

/-- The write as of the instant at which it took effect on the active, which its stamp gives: what it starts (a commit, an activation) falls due at the same
boundary on both devices (R177, R432, R433). -/
def State.mirroredAt (s : State) (a n v : Nat) (since : Option Time) : State :=
  { ({ s with now := min (since.getD s.now) s.now } : State).mirrored a n v with now := s.now }

/-- MIRRORED_WRITE (R432): on a device that is COPYING or STANDBY. -/
def execMirroredWrite (t : Time) (addr : BitVec 25) (size : AccSize) (val : W64) (s : State) (since : Option Time := none) : Host.Outcome State Fault Refusal :=
  let s := s.tick t
  .next (if s.pairMode && s.pair.pxUp && !s.pair.claim && (s.pair.sync = 1 || s.pair.sync = 2) then
    s.mirroredAt addr.toNat (sizeBytes size) val.toNat since else s)

/-! ## Flash boot (R525, R526) -/

def State.booting (s : State) : Bool := s.f R.fuse_BOOT_STAT 2 0 = 1

/-- The boot stops with an error; the watchdog restarts (R523). -/
def State.bootFail (s : State) (err : Nat) : State := (s.setBoot 5 err).wdogRestart

/-- The header of a boot image is good (Table 15.7). -/
def bootHeaderOk (l : List Byte) : Bool :=
  let len := dle l 8 4
  dle l 0 4 = 0x31544F42 && dle l 4 2 = 1 && dle l 6 2 ≠ 0 && 40 ≤ len && len ≤ 4194304 && len ≤ l.length && dle l 16 16 = 0

/-- The CRC of a boot image is good. -/
def bootCrcOk (l : List Byte) : Bool :=
  crc32 (l.take 12 ++ [0, 0, 0, 0] ++ (l.drop 16).take (dle l 8 4 - 16)) = BitVec.ofNat 32 (dle l 12 4)

/-- An image read from flash is good and its records follow, or the alternate is read next, or the boot ends. -/
def State.flashImage (s : State) (l : List Byte) : State :=
  if !bootHeaderOk l || !bootCrcOk l then
    if s.b R.fuse_BOOT_STAT 8 then s.bootFail (if bootHeaderOk l then 2 else 1) else s.setB R.fuse_BOOT_STAT 8 true
  else s.setRst { s.rst with image := l.take (dle l 8 4), bootOff := 32 }

/-- FLASH_IMAGE_CHECK (R525): the primary image, and when it fails the alternate. -/
def execFlashImageCheck (t : Time) (image : List Byte) (s : State) : Host.Outcome State Fault Refusal :=
  let s := s.tick t
  .next (if s.booting && s.rst.image.isEmpty then s.flashImage image else s)

/-- A record header (Table 15.8). -/
def bootType (w : Nat) : Nat := w / 2 ^ 56 % 256
def bootAddr (w : Nat) : Nat := w % 2 ^ 25
def bootLen (w : Nat) : Nat := w / 2 ^ 32 % 2 ^ 24

/-- The step of a write: 4 bytes in the register range and 8 elsewhere. -/
def bootStep (a : Nat) : Nat := if a < 0x00800000 then 4 else 8

/-- Whether record number i at off breaks Table 15.8, lies beyond LENGTH, or is out of its place (R526). -/
def bootBad (l : List Byte) (off i : Nat) : Bool :=
  let w := dle l off 8
  let a := bootAddr w
  let n := bootLen w
  let pad := (n + 7) / 8 * 8
  off + 8 > l.length || w / 2 ^ 25 % 2 ^ 7 ≠ 0 ||
  (match bootType w with
  | 1 => a % bootStep a ≠ 0 || n % bootStep a ≠ 0 || off + 8 + pad > l.length || dle l (off + 8 + n) (pad - n) ≠ 0 || i + 1 ≥ dle l 6 2
  | 2 => a = 0 || a > 1000000 || n ≠ 0 || i + 1 ≥ dle l 6 2
  | 3 => a ≠ 0 || n ≠ 0 || i + 1 ≠ dle l 6 2
  | _ => true)

/-- The records applied, or the failing one: BOOT_STAT.REC. -/
def State.bootRec (s : State) : Nat := s.f R.fuse_BOOT_STAT 31 16

/-- The next record is met: f applies it when it is of type k; one that is bad stops the boot. -/
def State.bootStepOf (s : State) (k : Nat) (f : Nat → State → State) : State :=
  if !s.booting || s.rst.image.isEmpty || s.rst.bootWait.isSome then s
  else if bootBad s.rst.image s.rst.bootOff s.bootRec then s.bootFail 3
  else
    let w := dle s.rst.image s.rst.bootOff 8
    if bootType w = k then f w s else s

/-- A record has been applied. -/
def State.bootNext (s : State) (n : Nat) : State := (s.setF R.fuse_BOOT_STAT 31 16 (s.bootRec + 1)).setRst { s.rst with bootOff := s.rst.bootOff + 8 + n }

/-- The writes of a WRITE record, in order, up to one that fails under R40. They act as host writes, but are no requests of the host. -/
def State.bootWrites (s : State) (data : List Byte) (a : Nat) : Nat → State × Bool
  | 0 => (s, true)
  | n + 1 =>
    let k := bootStep a
    let r := s.busWrite .host a k (leNat (data.take k))
    let s' := r.1.wr R.pcie_PCIE_ERR (s.rd R.pcie_PCIE_ERR)
    if r.2.isSome then (s', false) else s'.bootWrites (data.drop k) (a + k) n

def State.bootWrite (w : Nat) (s : State) : State :=
  let n := bootLen w
  let a := bootAddr w
  let r := s.bootWrites ((s.rst.image.drop (s.rst.bootOff + 8)).take n) a (n / bootStep a)
  if r.2 then r.1.bootNext ((n + 7) / 8 * 8) else r.1.bootFail 4

/-- BOOT_WRITE_RECORD (R526). -/
def execBootWriteRecord (t : Time) (s : State) : Host.Outcome State Fault Refusal := .next ((s.tick t).bootStepOf 1 State.bootWrite)

/-- BOOT_WAIT_RECORD (R526). -/
def execBootWaitRecord (t : Time) (s : State) : Host.Outcome State Fault Refusal :=
  .next ((s.tick t).bootStepOf 2 fun w s => s.setRst { s.rst with bootWait := some (s.now + nsT (1000 * bootAddr w)) })

/-- BOOT_WAIT_END (R526): the time of the WAIT record has passed. -/
def execBootWaitEnd (t : Time) (s : State) : Host.Outcome State Fault Refusal :=
  let s := s.tick t
  .next (match s.rst.bootWait with
  | some x => if s.booting && x ≤ s.now then (s.setRst { s.rst with bootWait := none }).bootNext 0 else s
  | none => s)

/-- BOOT_END_RECORD (R525, R523). -/
def execBootEndRecord (t : Time) (s : State) : Host.Outcome State Fault Refusal :=
  .next ((s.tick t).bootStepOf 3 fun _ s => (((s.bootNext 0).setBoot 4 0)).wdogRestart)

/-! ## The scrubber (R17) -/

/-- The cell whose memory bank a hit lies in with a double-bit error. -/
def badCell (h : EccHit) : Option Nat :=
  if h.double && h.channel.isNone && (engineOf h.addr.toNat).isNone then (cellOf h.addr.toNat).map (·.1) else none

/-- What the scrubber meets at one location: a single-bit error is corrected and, in an engine memory, counted; a double-bit error is reported. A poisoned word of a retirement copy,
and a retired bank, are left. A double-bit error in the context of an acquisition channel is a fault of that channel (R385). -/
def State.scrubHit (s : State) (h : EccHit) : State :=
  let a := h.addr.toNat
  if h.channel.isSome then (match h.channel with
    | some c => if h.double then s.gFault c else s
    | none => s)
  else if a < 0x00800000 || a % 0x40000 ≥ 0x30000 && a < 0x01000000 then s
  else if h.double then
    let s := if s.eccAt a = .good then s.setEcc a .double else s
    s.meetEcc a
  else match engineOf a with
    | some e => s.hwCount (R.engine_ECC_STAT e) 15 0
    | none => s

/-- A pass over a cell memory bank that meets no double-bit error in it is a good event of its class (Table 14.1). -/
def State.scrubGood (s : State) (hits : List EccHit) : State :=
  (List.range 8).foldl (fun s c => if hits.any fun h => badCell h = some c then s else s.fdGood 5 c) s

/-- SCRUB_PASS (R17). -/
def execScrubPass (t : Time) (hits : List EccHit) (s : State) : Host.Outcome State Fault Refusal := .next ((hits.foldl State.scrubHit (s.tick t)).scrubGood hits)

end Sys2Proof.Machine
end

