-- ==== Sys2Proof/Machine/Loops.lean ====
section
/-! DEFINITION. The axis-control kernels 0x01 to 0x08 (chapter 6). -/

namespace Sys2Proof.Machine

/-! ## SOS and SOS_CASCADE (R198 to R202, Table 6.6) -/

/-- Whether SCTL's fields lie in their ranges, the stored exponent among them (R195, R202). -/
def sctlOk (w : W64) : Bool :=
  let emin := sfld w 23 16
  let emax := sfld w 31 24
  fld w 7 1 = 0 && fld w 63 36 = 0 && fld w 35 32 ≤ 3 && -23 ≤ emin && emin ≤ emax && emax ≤ 8 &&
  -23 ≤ sfld w 15 8 && sfld w 15 8 ≤ 8

/-- A coefficient set of one lane from its words. -/
def coefOf (lane : W48 → Int) (b0 b1 b2 a1 a2 : W48) : Coef := { b0 := lane b0, b1 := lane b1, b2 := lane b2, a1 := lane a1, a2 := lane a2 }

/-- Run section j on an input word and write its state; with ENABLED 0 the state is cleared (R187). -/
def KEnv.section (x : KEnv) (pair : Bool) (cs : W48) (j : Nat) (inp : W48) : K (W48 × Noted) := do
  let n := 6 + 3 * j
  let live := x.enabled
  let s1 ← x.read48 (x.word n)
  let s2 ← x.read48 (x.word (n + 1))
  let w ← x.read (x.word (n + 2))
  x.check (sctlOk w) (x.word (n + 2))
  let c := at8 cs (6 * j)
  let b0 ← x.read48 c
  let b1 ← x.read48 (at8 c 1)
  let b2 ← x.read48 (at8 c 2)
  let a1 ← x.read48 (at8 c 3)
  let a2 ← x.read48 (at8 c 4)
  let g ← x.config (at8 c 5) 3
  let z (v : W48) : W48 := if live then v else 0
  let o := runSection { hi := coefOf hiLane b0 b1 b2 a1 a2, lo := coefOf loLane b0 b1 b2 a1 a2, csh := fld g 1 0, bf := bit w 0,
                        e := if live then sfld w 15 8 else 0, emin := sfld w 23 16, emax := sfld w 31 24, head := fld w 35 32, s1 := z s1, s2 := z s2 } pair inp
  x.write (x.word n) (z o.s1)
  x.write (x.word (n + 1)) (z o.s2)
  x.write (x.word (n + 2)) ((BitVec.ofNat 64 (setFld w 15 8 (if live then (o.e % 256).toNat else 0)).toNat).setWidth 48)
  pure (o.y, { sats := o.sats, bits := b2n o.bfx * 2 })

/-- Sections j up to j + n − 1 in series. -/
def KEnv.sections (x : KEnv) (pair : Bool) (cs : W48) : Nat → Nat → W48 → Noted → K (W48 × Noted)
  | 0, _, v, o => pure (v, o)
  | n + 1, j, v, o => do
    let r ← x.section pair cs j v
    x.sections pair cs n (j + 1) r.1 { sats := o.sats + r.2.sats, bits := o.bits ||| r.2.bits }

def sosBody (single : Bool) (x : KEnv) : K Unit := do
  let w ← x.config (x.word 0) 0x10F
  let n := fld w 3 0
  x.check (1 ≤ n && n ≤ 8 && (!single || n = 1)) (x.word 0)
  let inp ← x.ptr! 1 true
  let out ← x.ptr! 2
  let cs ← x.coefs 3
  let v ← x.signal x.enabled (some inp)
  let r ← x.sections (bit w 8) cs n 0 v {}
  x.write out r.1
  x.stat 5 r.2

/-- SOS (kernel 0x01): one section. -/
def execSos (t : Time) (e : Fin 32) (s : State) (ok : Bool := true) : Host.Outcome State Fault Refusal := .next ((s.tick t).runKernel e 1 (sosBody true) ok)

/-- SOS_CASCADE (kernel 0x02): 1 to 8 sections. -/
def execSosCascade (t : Time) (e : Fin 32) (s : State) (ok : Bool := true) : Host.Outcome State Fault Refusal := .next ((s.tick t).runKernel e 2 (sosBody false) ok)

/-! ## PI (R203 to R206, Table 6.9) -/

/-- Gain shifts: GSH_P, GSH_I and LSH of a set word that allows the bits of a mask. -/
def KEnv.gains (x : KEnv) (va : W48) (mask : Nat) : K (Nat × Int × Nat) := do
  let g ← x.config va mask
  x.check (fld g 3 0 ≤ 8 && -24 ≤ sfld g 15 8 && sfld g 15 8 ≤ 8 && fld g 19 16 ≤ 8) va
  pure (fld g 3 0, sfld g 15 8, fld g 19 16)

/-- A word with a high limit in its high lane and a low limit, not above it, in its low lane. -/
def KEnv.limits (x : KEnv) (va : W48) : K (Int × Int) := do
  let w ← x.read48 va
  x.check (loLane w ≤ hiLane w) va
  pure (loLane w, hiLane w)

/-- What a PI stage notes in STAT. -/
def PiOut.noted (o : PiOut) (sats : Nat) : Noted := { bits := b2n o.ilim * 4 + b2n o.olim * 8, sats := sats + o.sats }

/-- PI: its answer says whether the ramp's step count has reached RAMP_TMO in this sample (R205). -/
def piBody (x : KEnv) : K Bool := do
  let w ← x.config (x.word 0) 0x3F01
  let pos := bit w 0
  let psh := fld w 13 8
  x.check (psh ≤ 40) (x.word 0)
  let pref ← x.ptr! 1
  let pfb ← x.ptr 2 false (!pos)
  let pff ← x.ptr 3 false true
  let out ← x.ptr! 4
  let cs ← x.coefs 5
  let integ ← x.read48 (x.word 8)
  let r ← x.read48 (x.word 9)
  let w10 ← x.config (x.word 10) 0xFFFF0003
  x.check (fld w10 1 0 ≠ 3) (x.word 10)
  let w11 ← x.config (x.word 11) 0xFFFFFFFFFFFF
  let w12 ← x.config (x.word 12) 0xFFFFFFFF
  let kp ← x.read48 cs
  let ki ← x.read48 (at8 cs 1)
  let g ← x.gains (at8 cs 2) 0xFF0F
  let ol ← x.limits (at8 cs 3)
  let il ← x.limits (at8 cs 4)
  let live := x.enabled
  let ref ← x.signal live (some pref)
  let fb ← x.signal live pfb
  let ff ← x.signal live pff
  let rp := if live && pos then rampStep { r := r, rs := fld w10 1 0, n := fld w10 31 16 } ref fb (fld w11 31 0) else { r := 0, rs := 0, n := 0 }
  let d := (rp.r - fb).toInt
  let ramping := pos && rp.rs = 1
  let e := if pos then lane24 (if live then rndDiv d (2 ^ psh) else 0) else lane24 (hiLane ref - hiLane fb)
  let tmo := live && pos && fld w11 47 32 ≠ 0 && rp.n ≥ fld w11 47 32
  let ferr := live && pos && fld w12 31 0 ≠ 0 && mag d > fld w12 31 0 * 65536
  let o := piStage { kp := hiLane kp, ki := hiLane ki, gp := g.1, gi := g.2.1, lo := ol.1, hi := ol.2, ilo := il.1, ihi := il.2, err := e.val,
                     integ := if live then integ.toInt else 0, ff := if ramping then 0 else hiLane ff * 2 ^ 24 }
  x.write out (packLanes o.y 0)
  x.write (x.word 8) (if live then w48 o.integ else 0)
  if pos || !live then
    x.write (x.word 9) rp.r
    x.write (x.word 10) (BitVec.ofNat 48 (rp.rs + rp.n * 65536))
  else pure ()
  let o := if live then o else { o with ilim := false }
  let q := o.noted e.hit
  x.stat 7 { q with bits := q.bits + b2n ferr * 16 + b2n tmo * 32 }
  pure tmo

/-- PI (kernel 0x03). -/
def execPi (t : Time) (e : Fin 32) (s : State) (ok : Bool := true) : Host.Outcome State Fault Refusal :=
  .next ((s.tick t).runKernel e 3 (fun x => do
    let _ ← piBody x
    pure ()) ok)

/-- RAMP_TIMEOUT (R205): the sample of a PI kernel in which the ramp's step count reaches RAMP_TMO. -/
def execRampTimeout (t : Time) (e : Fin 32) (s : State) : Host.Outcome State Fault Refusal :=
  .next ((s.tick t).runTop e (isKernel 3) fun x => do
    let b ← piBody x
    pure (b, x.passOn))

/-! ## PI_DQ (R210, Table 6.11) -/

def piDqBody (x : KEnv) : K Unit := do
  let w ← x.config (x.word 0) 1
  let prd ← x.ptr 1 false true
  let prq ← x.ptr! 2
  let pfb ← x.ptr! 3
  let pom ← x.ptr! 4
  let out ← x.ptr! 5
  let cs ← x.coefs 6
  let intd ← x.read48 (x.word 9)
  let intq ← x.read48 (x.word 10)
  let kp ← x.read48 cs
  let ki ← x.read48 (at8 cs 1)
  let g ← x.gains (at8 cs 2) 0xFFF0F
  let ild ← x.limits (at8 cs 3)
  let ilq ← x.limits (at8 cs 4)
  let vm ← x.read48 (at8 cs 5)
  let vmax := hiLane vm
  x.check (vmax > 0) (at8 cs 5)
  let l ← x.read48 (at8 cs 6)
  let psi ← x.read48 (at8 cs 7)
  let live := x.enabled
  let rd ← x.signal live prd
  let rq ← x.signal live (some prq)
  let fb ← x.signal live (some pfb)
  let om ← x.signal live (some pom)
  let z (v : W48) : Int := if live then v.toInt else 0
  let ed := lane24 (hiLane rd - hiLane fb)
  let eq := lane24 (hiLane rq - loLane fb)
  let ff := if bit w 0 then decouple (hiLane om) (hiLane fb) (loLane fb) (hiLane l) (loLane l) (hiLane psi) g.2.2 else (0, 0)
  let d := piStage { kp := hiLane kp, ki := hiLane ki, gp := g.1, gi := g.2.1, lo := -vmax, hi := vmax, ilo := ild.1, ihi := ild.2, err := ed.val,
                     integ := z intd, ff := ff.1 * 2 }
  let lim := qLimit vmax d.y
  let q := piStage { kp := loLane kp, ki := loLane ki, gp := g.1, gi := g.2.1, lo := -lim, hi := lim, ilo := ilq.1, ihi := ilq.2, err := eq.val,
                     integ := z intq, ff := ff.2 * 2 }
  x.write out (packLanes d.y q.y)
  x.write (x.word 9) (if live then w48 d.integ else 0)
  x.write (x.word 10) (if live then w48 q.integ else 0)
  let a := d.noted ed.hit
  let b := q.noted eq.hit
  let m := if live then 63 else 59
  x.stat 8 { bits := (a.bits ||| b.bits) &&& m, sats := a.sats + b.sats }

/-- PI_DQ (kernel 0x04). -/
def execPiDq (t : Time) (e : Fin 32) (s : State) (ok : Bool := true) : Host.Outcome State Fault Refusal := .next ((s.tick t).runKernel e 4 piDqBody ok)

/-! ## Transforms and modulation (Table 6.10) -/

def clarkeBody (x : KEnv) : K Unit := do
  let w ← x.config (x.word 0) 1
  let three := bit w 0
  let pab ← x.ptr! 1 true
  let pc ← x.ptr 2 true (!three)
  let out ← x.ptr! 3
  let ab ← x.read48 pab
  let c ← x.signal three pc
  x.write out (clarke three ab c)

/-- CLARKE (kernel 0x05, R207). -/
def execClarke (t : Time) (e : Fin 32) (s : State) (ok : Bool := true) : Host.Outcome State Fault Refusal := .next ((s.tick t).runKernel e 5 clarkeBody ok)

def parkBody (x : KEnv) : K Unit := do
  let _ ← x.config (x.word 0) 0
  let pin ← x.ptr! 1
  let pan ← x.ptr! 2
  let out ← x.ptr! 3
  let v ← x.read48 pin
  let a ← x.read48 pan
  x.write out (park v a)

/-- PARK (kernel 0x06, R209). -/
def execPark (t : Time) (e : Fin 32) (s : State) (ok : Bool := true) : Host.Outcome State Fault Refusal := .next ((s.tick t).runKernel e 6 parkBody ok)

def iparkBody (x : KEnv) : K Unit := do
  let w ← x.config (x.word 0) 15
  let pin ← x.ptr! 1
  let pan ← x.ptr! 2
  let pom ← x.ptr 3 false true
  let out ← x.ptr! 4
  let v ← x.read48 pin
  let a ← x.read48 pan
  let om ← x.signal true pom
  x.write out (ipark (fld w 3 0) v a om)

/-- IPARK (kernel 0x07, R209). -/
def execIpark (t : Time) (e : Fin 32) (s : State) (ok : Bool := true) : Host.Outcome State Fault Refusal := .next ((s.tick t).runKernel e 7 iparkBody ok)

def svmBody (x : KEnv) : K Unit := do
  let w ← x.config (x.word 0) 1
  let pin ← x.ptr! 1
  let pbus ← x.ptr 2 false true
  let oab ← x.ptr! 3
  let oc ← x.ptr! 4
  let lim ← x.read48 (x.word 5)
  x.check (0 ≤ loLane lim && loLane lim ≤ hiLane lim) (x.word 5)
  let v ← x.read48 pin
  let bus ← x.signal true pbus
  let r := svmVector (bit w 0) v (pbus.map fun _ => bus)
  let d := svmDuties r.1 r.2 (loLane lim) (hiLane lim)
  x.write oab (packLanes d.1 d.2.1)
  x.write oc (packLanes d.2.2 0)

/-- SVM (kernel 0x08, R211). -/
def execSvm (t : Time) (e : Fin 32) (s : State) (ok : Bool := true) : Host.Outcome State Fault Refusal := .next ((s.tick t).runKernel e 8 svmBody ok)

end Sys2Proof.Machine
end

