-- ==== Sys2Proof/Machine/ProfileMath.lean ====
section
/-! DEFINITION. The profile generator's arithmetic and private state (chapter 7): positions in units of 2^-32 count, velocities in 2^-32 count per cycle, master
positions in 2^-16 count. -/

namespace Sys2Proof.Machine

/-- A position of 64 bits, signed. -/
def wrap64 (x : Int) : Int := wrapS 64 x

/-- n ÷ d rounded half to even, for either sign of d; 0 for d = 0. -/
def rndRat (n d : Int) : Int := if d > 0 then rndDiv n d.toNat else if d < 0 then rndDiv (-n) (-d).toNat else 0

/-- The velocity step of R227. -/
def velStep (v w acc dec : Int) : Int :=
  if (v = 0 || sgn v = sgn w) && mag w > mag v then v + sgn w * min acc (mag (w - v)) else v - sgn (v - w) * min dec (mag (v - w))

/-! ## The profile words (R219): their layout is private (notes/assumptions/30.md) -/

/-- A ratio change: its ratio, its blend and its direction. -/
structure Ratio where
  num : Int
  den : Nat
  bl : Nat
  neg : Bool
  deriving DecidableEq, Repr

/-- What the kernel carries from sample to sample. `due` holds late changes that wait for a blend's end, the oldest first (R243). -/
structure Prof where
  p : Int := 0
  v : Int := 0
  /-- The mode in effect plus 1; 0 while disabled. -/
  m1 : Nat := 0
  /-- The mode of the sample before, enabled or not. -/
  mode : Nat := 0
  cseq : Nat := 0
  gseq : Nat := 0
  eseq : Nat := 0
  home : Nat := 0
  dwell : Nat := 0
  t : Nat := 0
  hs : Nat := 0
  jstop : Bool := false
  run : Bool := false
  still : Bool := false
  pend : Bool := false
  due : List Ratio := []
  blend : Bool := false
  eng : Bool := false
  neg : Bool := false
  g0e : Bool := false
  p0 : Int := 0
  v0n : Int := 0
  v0d : Int := 0
  lam0 : W48 := 0
  jog : W48 := 0
  homeAt : Nat := 0
  lr : W48 := 0
  y : Int := 0
  num : Int := 0
  den : Nat := 0
  bl : Nat := 0
  g0n : Int := 0
  g0d : Int := 0
  /-- The read index, the tag, the sticky bits, the count of applied changes, the change of RING_LEN seen, and h. -/
  rd : Nat := 0
  tag : Nat := 0
  sticky : Nat := 0
  applied : Nat := 0
  ringSeq : Nat := 0
  hpos : W48 := 0
  /-- Within a sample: a run has ended at rest (Table 7.5). -/
  rest : Bool := false
  deriving DecidableEq, Repr

/-- A word made of a low and a high part. -/
def joinI (n : Nat) (lo : W48) (hi : Nat) : Int := (BitVec.ofNat n (lo.toNat + hi * 2 ^ 48)).toInt

/-- A ratio change in two words. -/
def Ratio.of (a b : W48) : Ratio := { num := sfld a 31 0, den := fld b 31 0, bl := fld a 47 32 + fld b 46 32 * 2 ^ 16, neg := bit b 47 }
def Ratio.words (r : Ratio) : List W48 :=
  [BitVec.ofNat 48 ((w48 r.num).toNat % 2 ^ 32 + r.bl % 2 ^ 16 * 2 ^ 32), BitVec.ofNat 48 (r.den + r.bl / 2 ^ 16 % 2 ^ 15 * 2 ^ 32 + b2n r.neg * 2 ^ 47)]

/-- The words that hold changes that are due: the words of a run serve too, since gearing and a run exclude each other. -/
def dueWords : List Nat := [62, 44, 46]

/-- The profile words, 40 to 63. -/
def Prof.load (w : Nat → W48) : Prof :=
  let f (n i : Nat) : Bool := bit (w n) i
  { p := joinI 64 (w 40) (fld (w 41) 15 0), v := (w 42).toInt, m1 := fld (w 43) 2 0, home := fld (w 43) 5 3, jstop := f 43 6, run := f 43 7, still := f 43 8,
    pend := f 43 9, blend := f 43 11, eng := f 43 12, neg := f 43 13, g0e := f 43 14, cseq := fld (w 43) 23 16, gseq := fld (w 43) 31 24,
    eseq := fld (w 43) 39 32, mode := fld (w 43) 42 40, p0 := joinI 64 (w 44) (fld (w 41) 31 16), dwell := fld (w 41) 47 32,
    v0n := joinI 96 (w 45) (w 46).toNat, v0d := (w 47).toInt,
    lam0 := w 48, t := fld (w 49) 31 0, hs := fld (w 49) 47 32, jog := w 50, homeAt := (w 51).toNat, lr := w 52, y := joinI 64 (w 53) (fld (w 54) 15 0),
    bl := fld (w 54) 46 16, num := sfld (w 55) 31 0, den := fld (w 56) 31 0, g0n := (w 57).toInt, g0d := (w 58).toInt,
    rd := fld (w 59) 15 0, tag := fld (w 59) 47 16, sticky := (w 60).toNat &&& 0x181C0, applied := fld (w 60) 31 24, ringSeq := fld (w 60) 39 32, hpos := w 61,
    due := (dueWords.take (fld (w 60) 1 0)).map fun n => Ratio.of (w n) (w (n + 1)) }

/-- The upper part of a wide number. -/
def hiPart (n : Nat) (x : Int) : Nat := (BitVec.ofInt n x).toNat / 2 ^ 48

/-- Write the two words of each change that is due over the words of a list. -/
def placeDue (l : List (Nat × W48)) (due : List Ratio) : List (Nat × W48) :=
  (dueWords.zip due).foldl (fun l x => x.2.words.zipIdx.foldl (fun l y => Tab.set l (x.1 + y.2) y.1 (~~~ y.1)) l) l

/-- The status words 36 to 39 (Table 7.2) and the profile words as they are written, with PSTAT's live bits. -/
def Prof.save (s : Prof) (pstat : Nat) : List (Nat × W48) :=
  let nat (n : Nat) : W48 := BitVec.ofNat 48 n
  placeDue [(36, nat (pstat + s.sticky)), (37, nat (s.rd + s.tag * 65536)), (38, s.hpos), (39, w48 s.v),
   (40, w48 s.p), (41, nat (hiPart 64 s.p + hiPart 64 s.p0 * 2 ^ 16 + s.dwell * 2 ^ 32)), (42, w48 s.v),
   (43, nat (s.m1 + s.home * 8 + b2n s.jstop * 64 + b2n s.run * 128 + b2n s.still * 256 + b2n s.pend * 512 + b2n s.blend * 2048 +
     b2n s.eng * 4096 + b2n s.neg * 8192 + b2n s.g0e * 16384 + s.cseq * 2 ^ 16 + s.gseq * 2 ^ 24 + s.eseq * 2 ^ 32 + s.mode * 2 ^ 40)),
   (44, w48 s.p0), (45, w48 s.v0n), (46, nat (hiPart 96 s.v0n)), (47, w48 s.v0d), (48, s.lam0), (49, nat (s.t % 2 ^ 32 + s.hs % 65536 * 2 ^ 32)), (50, s.jog),
   (51, nat s.homeAt), (52, s.lr), (53, w48 s.y), (54, nat (hiPart 64 s.y + s.bl * 65536)), (55, w48 s.num), (56, nat s.den), (57, w48 s.g0n), (58, w48 s.g0d),
   (59, nat (s.rd + s.tag * 65536)), (60, nat (s.due.length % 4 + s.sticky + s.applied % 256 * 2 ^ 24 + s.ringSeq * 2 ^ 32)), (61, s.hpos)] s.due

/-- PSTAT's sticky bits (Table 7.10). -/
def stUnderrun : Nat := 0x40
def stSegErr : Nat := 0x80
def stGearLate : Nat := 0x100
def stDrift : Nat := 0x8000
def stLag : Nat := 0x10000

def Prof.stick (s : Prof) (b : Nat) : Prof := { s with sticky := s.sticky ||| b }

/-- A run ends; c segments are consumed (Table 7.5). -/
def Prof.endRun (s : Prof) (c : Nat) : Prof := { s with run := false, rd := (s.rd + c) % 65536, tag := 0 }

/-- The old mode's activity ends (R223, R224): a segment in progress is consumed, homing returns to IDLE, gearing is disengaged and no standstill is requested. -/
def Prof.leave (s : Prof) : Prof :=
  let s := if s.run then s.endRun 1 else s
  { s with home := 0, still := false, dwell := 0, eng := false, pend := false, due := [], blend := false }

/-- A stop of JOG (R227) ends in the first sample that carries another JOG_VEL or enters JOG; an axis that is disabled keeps it. -/
def Prof.jogOn (s : Prof) (mode : Nat) (vel : W48) : Prof :=
  { s with mode := mode, jstop := s.jstop && s.mode = mode && s.jog = vel }

/-! ## PVT segments (R228 to R231) -/

structure Seg where
  pEnd : W48
  vEnd : Int
  dur : Nat
  line : Bool
  lp : Nat
  rel : Bool
  stop : Bool
  tag : Nat
  ok : Bool
  deriving DecidableEq, Repr

/-- A segment record (Table 7.4); ok says whether it keeps to Table 7.4 and R228. -/
def Seg.of (w0 w1 w2 w3 : W48) : Seg :=
  let dur := fld w2 31 0
  let line := bit w2 32
  { pEnd := w0, vEnd := w1.toInt, dur := dur, line := line, lp := fld w2 34 33, rel := bit w2 35, stop := bit w2 36, tag := fld w3 31 0,
    ok := fld w2 47 37 = 0 && fld w3 47 32 = 0 && dur ≠ 0 && (if line then dur < 2 ^ 31 else fld w2 34 33 = 0) }

/-- The unit of a segment's velocities: a line position source, or cycles. -/
def Seg.unit (g : Seg) : Option Nat := if g.line then some g.lp else none

/-- The end position of a segment that starts at p0. -/
def Seg.p1 (g : Seg) (p0 : Int) : Int := if g.rel then wrap64 (p0 + g.pEnd.toInt * 65536) else g.pEnd.toInt * 65536

/-- Units of the parameter per duration unit. -/
def Seg.scale (g : Seg) : Nat := if g.line then 65536 else 1

/-- The reference at parameter x of a segment from p0 with velocity n ÷ d (R229). -/
def Seg.at (g : Seg) (p0 n d x : Int) : Int :=
  let k := if d < 0 then -1 else 1
  let n := k * n
  let d := k * d
  let dl := wrap64 (g.p1 p0 - p0)
  let w : Int := g.dur
  let e : Int := w * g.scale
  let c1 := n * w
  let c2 := 3 * dl * d - (2 * n + g.vEnd * d) * w
  let c3 := -2 * dl * d + (n + g.vEnd * d) * w
  wrap64 (p0 + rndRat (c1 * x * e ^ 2 + c2 * x ^ 2 * e + c3 * x ^ 3) (d * e ^ 3))

/-- A velocity converted between units by the sources' travel in this sample (R230): numerator and denominator. -/
def convertVel (v : Int) (src dst : Option Nat) (travel : Nat → Int) : Int × Int :=
  if src = dst then (v, 1)
  else
    let low (u : Option Nat) : Bool := match u with
      | some l => mag (travel l) < 65536
      | none => false
    if low src || low dst then (0, 1)
    else match src, dst with
      | none, some l => (v * 65536, travel l)
      | some l, none => (v * travel l, 65536)
      | some a, some b => (v * travel a, travel b)
      | none, none => (v, 1)

/-- Start a segment at the present reference (R229): its λ0 is given. -/
def Prof.startSeg (s : Prof) (g : Seg) (v : Int × Int) (lam0 : W48) : Prof :=
  { s with run := true, t := 0, p0 := s.p, v0n := v.1, v0d := v.2, lam0 := lam0, tag := g.tag }

/-! ## Homing moves (R239) -/

/-- One sample of a move to x. -/
def Prof.move (s : Prof) (x : Int) (acc dec vlim : Int) : Prof :=
  let dd := wrap64 (x - s.p)
  if mag dd ≤ acc && mag s.v ≤ dec then { s with p := x, v := 0, home := 5 }
  else
    let v := if dd * s.v > 0 && s.v * s.v ≥ mag dd * (2 * dec) then s.v - sgn s.v * min dec (mag s.v) else velStep s.v (sgn dd * vlim) acc dec
    { s with v := v, p := wrap64 (s.p + v) }

/-! ## Gearing (R242 to R245) -/

/-- What the mirror says of gearing. -/
structure GearIn where
  at' : W48
  num : Int
  den : Nat
  neg : Bool
  blend : Nat
  engBlend : Nat
  seq : Nat
  deriving DecidableEq, Repr

/-- σ. -/
def dirOf (neg : Bool) : Int := if neg then -1 else 1

/-- g0 as a rational. -/
def Prof.g0 (s : Prof) : Int × Int := (s.g0n, if s.g0e then s.g0d * 65536 else s.g0d)

/-- A ratio times a travel, exact and rounded once. -/
def ratioOf (n d travel : Int) : Int := rndRat (n * travel * 65536) d

/-- Begin a ratio change at a (R244). -/
def Prof.change (s : Prof) (a : W48) (ya : Int) (g0n g0d : Int) (g0e : Bool) (num : Int) (den bl : Nat) (neg : Bool) : Prof :=
  { s with lr := a, y := wrap64 ya, g0n := g0n, g0d := g0d, g0e := g0e, num := num, den := den, bl := bl, neg := neg, blend := bl > 0 }

/-- How far the master has gone past a change's position in its direction. -/
def Prof.past (s : Prof) (lam : W48) : Int := dirOf s.neg * (lam - s.lr).toInt

/-- At the blend's end the reference point moves to it (R244). -/
def Prof.finish (s : Prof) (lam : W48) : Prof :=
  if s.blend && s.past lam ≥ s.bl * 65536 then
    let g := s.g0
    let up := dirOf s.neg * rndRat ((g.1 * s.den + s.num * g.2) * s.bl * 2 ^ 31) (g.2 * s.den)
    { s with blend := false, y := wrap64 (s.y + up), lr := s.lr + w48 (dirOf s.neg * (s.bl * 65536)) }
  else s

/-- The reference under the present ratio or blend (R242, R244). -/
def Prof.geared (s : Prof) (lam : W48) : Int :=
  let d := (lam - s.lr).toInt
  if s.blend then
    let g := s.g0
    if s.past lam ≤ 0 then wrap64 (s.y + ratioOf g.1 g.2 d)
    else
      let n := g.1 * d * 65536 * (2 * s.bl * s.den) + dirOf s.neg * (s.num * g.2 - g.1 * s.den) * d * d
      wrap64 (s.y + rndRat n (2 * s.bl * s.den * g.2))
  else wrap64 (s.y + ratioOf s.num s.den d)

/-- Rebase the reference point (R242). -/
def Prof.rebase (s : Prof) (lam : W48) : Prof :=
  let d := (lam - s.lr).toInt
  if !s.blend && mag d > 2 ^ 46 then
    let m := sgn d * (mag d / s.den)
    { s with lr := s.lr + w48 (m * s.den), y := wrap64 (s.y + m * s.num * 65536) }
  else s

/-- Whether a change is due at master position x (R243). -/
def GearIn.due (g : GearIn) (x : W48) : Bool := dirOf g.neg * (x - g.at').toInt ≥ 0

/-- Engagement (R245): any pending change is dropped. -/
def Prof.engage (s : Prof) (g : GearIn) (lam prev : W48) : Prof :=
  let dl := (lam - prev).toInt
  let s := { s with eng := true, pend := false, due := [], gseq := g.seq }
  if mag dl < 65536 then s.change lam s.p 0 1 false g.num g.den g.engBlend g.neg
  else s.change lam s.p s.v dl true g.num g.den g.engBlend g.neg

/-- The change the mirror carries. -/
def GearIn.ratio (g : GearIn) : Ratio := { num := g.num, den := g.den, bl := g.blend, neg := g.neg }

/-- A pending change that is due at this sample (R243): late when it lies behind the master as it is first seen, or falls due before the running blend's end;
it then waits among the changes that are due. -/
def Prof.judge (s : Prof) (g : GearIn) (lam prev : W48) (new : Bool) : Prof :=
  if s.pend && g.due lam && ((new && g.due prev) || !s.due.isEmpty || (s.blend && dirOf s.neg * (g.at' - s.lr).toInt < s.bl * 65536)) then
    { s with pend := false, due := s.due ++ [g.ratio] }.stick stGearLate
  else s

/-- A ratio change takes effect at master position a. -/
def Prof.apply (s : Prof) (r : Ratio) (a lam : W48) : Prof :=
  let ya := s.y + ratioOf s.num s.den (a - s.lr).toInt
  ({ s with applied := s.applied + 1 }.change a ya s.num s.den false r.num r.den r.bl r.neg).finish lam

/-- Late changes take effect in their order while no blend runs (R243): the first n, which waited for a blend, at its end, the others at the present λ. -/
def Prof.takeLate (s : Prof) (lam : W48) : Nat → List Ratio → Prof
  | _, [] => { s with due := [] }
  | n, r :: l => if s.blend then { s with due := r :: l } else (s.apply r (if n > 0 then s.lr else lam) lam).takeLate lam (n - 1) l

/-- A pending change takes effect on time, at GEAR_AT (R243). -/
def Prof.take (s : Prof) (g : GearIn) (lam : W48) : Prof :=
  if s.pend && !s.blend && s.due.isEmpty && g.due lam then { s with pend := false }.apply g.ratio g.at' lam else s

/-- One sample of gearing: the new state with its reference. A new change replaces one that is pending and not yet due (R243). -/
def Prof.gear (s : Prof) (g : GearIn) (lam prev : W48) (engaging : Bool) : Prof :=
  let n := s.due.length
  let new := s.gseq ≠ g.seq
  let s := if engaging then s.engage g lam prev else { s with gseq := g.seq, pend := s.pend || new }
  let s := s.judge g lam prev new
  let s := s.finish lam
  let s := s.takeLate lam n s.due
  let s := s.take g lam
  let s := s.rebase lam
  { s with p := s.geared lam }

end Sys2Proof.Machine
end

