-- ==== Sys2Proof/Machine/Profile.lean ====
section
/-! DEFINITION. The profile kernels 0x09 PVT and 0x0A GEAR (chapter 7). -/

namespace Sys2Proof.Machine

/-! ## Master positions (R229, R241, R638) -/

/-- The master of a kind at the cycle of a record. -/
def Masters.pos (m : Masters) (kind ix : Nat) : W48 :=
  match kind with
  | 0 => m.lps.getD ix 0
  | 1 => BitVec.ofInt 48 ((m.qes.getD ix 0).toInt * 65536)
  | 2 => Tab.get m.refs ix 0
  | _ => Tab.get m.fbs ix 0

/-- The present and the previous value of a master, for an operation that fired in cycle k. -/
def State.master (s : State) (k kind ix : Nat) : W48 × W48 := ((s.mastersOf k).pos kind ix, (s.mastersOf (k - 1)).pos kind ix)

/-- The travel of line position l in the firing cycle, in 2^-16 count. -/
def State.lpTravel (s : State) (k l : Nat) : Int :=
  let m := s.master k 0 l
  (m.1 - m.2).toInt

/-! ## One sample's inputs -/

/-- What a sample of the kernel reads: configuration, the mirror copy, the axis block, and the firing cycle. -/
structure ProfIn where
  gear : Bool
  out : W48
  ovel : Option W48
  cyc : Nat
  acc : Int
  dec : Int
  hcfg : W64
  hvel : Int
  hofs : W48
  hsig : Option W48
  hlevel : Int
  hlpAt : W48
  blk : W48
  echo : W48
  latch : W48
  sig : Int
  shift : Nat
  enable : Bool
  still : Bool
  fb : W48
  pmode : W48
  cmd : W48
  jogVel : W48
  g : GearIn
  gcfg : W48
  win : Nat
  wr : Nat
  len : Nat
  ringSeq : Nat
  deriving DecidableEq, Repr

/-- PMODE.MODE of the mirror. -/
def ProfIn.mode (i : ProfIn) : Nat := fld i.pmode 2 0

/-- A new command in the mirror, or 0. -/
def ProfIn.newCmd (i : ProfIn) (s : Prof) : Nat := if fld i.cmd 15 8 = s.cseq then 0 else fld i.cmd 2 0

/-- Read the configuration and the sample's inputs (Tables 7.2 and 7.3). -/
def profInputs (gear : Bool) (x : KEnv) : K ProfIn := do
  let blk ← x.ptr! 0
  let out ← x.ptr! 1
  let ovel ← x.ptr 2 false true
  let acc ← x.read48 (x.word 3)
  x.check (acc.toInt > 0) (x.word 3)
  let dec ← x.read48 (x.word 4)
  x.check (dec.toInt > 0) (x.word 4)
  let hcfg ← x.config (x.word 5) 0xFFFFFFFF07FF
  x.check (fld hcfg 31 16 ≠ 0) (x.word 5)
  let hvel ← x.read48 (x.word 6)
  x.check (hvel ≠ 0) (x.word 6)
  let hofs ← x.read48 (x.word 7)
  let hsig ← x.ptr 8 false (fld hcfg 1 0 ≠ 2)
  let hlev ← x.read48 (x.word 9)
  x.check (hiLane hlev > 0) (x.word 9)
  let hat ← x.read48 (x.word 10)
  let _ ← x.config (x.word 11) 0
  let c := fld x.w0 32 32
  let m (n : Nat) : W48 := x.word (12 + 12 * c + n)
  let pmode ← x.read48 (m 1)
  x.check (fld pmode 2 0 ≤ 4) (m 1)
  let cmd ← x.read48 (m 2)
  let jog ← x.read48 (m 3)
  let at' ← x.read48 (m 4)
  let num ← x.read48 (m 5)
  let den ← x.read48 (m 6)
  x.check (fld den 31 0 ≠ 0 || fld pmode 2 0 ≠ 4) (m 6)
  let gcfg ← x.read48 (m 7)
  let gb ← x.read48 (m 8)
  let eb ← x.read48 (m 9)
  let win ← x.read48 (m 10)
  let ring ← x.read48 (m 11)
  let en ← x.read48 (blk + BitVec.ofNat 48 (0x20 * c))
  let st ← x.read48 (blk + BitVec.ofNat 48 (0x160 + 8 * c))
  let fb ← x.read48 (blk + 0x0C0)
  let sh ← x.read48 (blk + 0x060)
  x.check (fld sh 5 0 ≤ 40 || ovel.isNone) (blk + 0x060)
  let echo ← x.read48 (blk + 0x170)
  let latch ← x.read48 (blk + 0x178)
  let sig ← x.signal true hsig
  let s ← kGet
  pure { gear := gear, out := out, ovel := ovel, cyc := (s.opStamp x.key).cyc, acc := acc.toInt, dec := dec.toInt, hcfg := hcfg, hvel := hvel.toInt, hofs := hofs, hsig := hsig,
         hlevel := hiLane hlev, hlpAt := hat, blk := blk, echo := echo, latch := latch, sig := hiLane sig, shift := fld sh 5 0, enable := bit en 0, still := bit st 0, fb := fb, pmode := pmode, cmd := cmd, jogVel := jog,
         g := { at' := at', num := sfld num 31 0, den := fld den 31 0, neg := bit gcfg 12, blend := fld gb 30 0, engBlend := fld eb 30 0, seq := fld cmd 23 16 },
         gcfg := gcfg, win := fld win 31 0, wr := fld ring 15 0, len := fld ring 26 16, ringSeq := (s.axSt (fld x.w0 14 8)).ringSeq }

/-- Read words n, n + 1, … of the profile block. -/
def KEnv.words (x : KEnv) : Nat → Nat → K (List W48)
  | _, 0 => pure []
  | n, k + 1 => do
    let w ← x.read48 (x.word n)
    let r ← x.words (n + 1) k
    pure (w :: r)

/-- Read the profile words; a change of RING_LEN not seen before takes the read index to 0 (R237). -/
def profState (x : KEnv) (i : ProfIn) : K Prof := do
  let l ← x.words 40 24
  let s := Prof.load fun n => l.getD (n - 40) 0
  pure (if s.ringSeq = i.ringSeq then s else { s with rd := 0, ringSeq := i.ringSeq })

/-! ## PVT runs (R229 to R232) -/

/-- Segment i of the ring, which follows the profile block (R225, R233). -/
def KEnv.segment (x : KEnv) (i : ProfIn) (n : Nat) : K Seg := do
  let a := x.op.param + BitVec.ofNat 48 (512 + 32 * (n % i.len))
  let w0 ← x.read48 a
  let w1 ← x.read48 (at8 a 1)
  let w2 ← x.read48 (at8 a 2)
  let w3 ← x.read48 (at8 a 3)
  pure (Seg.of w0 w1 w2 w3)

/-- Whether a segment is published that the kernel has not consumed (R234). -/
def ProfIn.avail (i : ProfIn) (rd : Nat) : Bool := i.len ≠ 0 && (65536 + i.wr - rd) % 65536 ≠ 0

/-- A segment has ended: the reference is its end, and the run ends or the next segment starts (R229, Table 7.5). -/
def KEnv.nextSeg (x : KEnv) (i : ProfIn) (g : Seg) (s : Prof) : K Prof := do
  let st ← kGet
  let s := { s with p := g.p1 s.p0 }
  let rd := (s.rd + 1) % 65536
  if g.stop then
    pure (if g.vEnd = 0 then { s.endRun 1 with rest := true } else (s.endRun 1).stick (stUnderrun + stSegErr))
  else if !i.avail rd then pure ((s.endRun 1).stick stUnderrun)
  else do
    let n ← x.segment i rd
    if !n.ok then pure ((s.endRun 1).stick stSegErr)
    else
      let lam := (st.master i.cyc 0 n.lp).1
      let lam0 := if g.line && n.line && g.lp = n.lp then s.lam0 + BitVec.ofNat 48 (g.dur * 65536) else lam
      pure ({ s with rd := rd }.startSeg n (convertVel g.vEnd g.unit n.unit (st.lpTravel i.cyc)) lam0)

/-- The parameter of the running segment; in the sample's first segment a duration in cycles has advanced by 1. -/
def Prof.param (s : Prof) (g : Seg) (lam : W48) (first : Bool) : Int :=
  if g.line then clampI (lam - s.lam0).toInt 0 (g.dur * 65536) else if first then s.t + 1 else s.t

/-- Run the segment in progress and those after it, crossing at most n ends (R231). -/
def KEnv.runSegs (x : KEnv) (i : ProfIn) : Nat → Bool → Prof → K Prof
  | n, first, s => do
    let st ← kGet
    let g ← x.segment i s.rd
    let y := s.param g (st.master i.cyc 0 g.lp).1 first
    let s := if g.line then s else { s with t := y.toNat }
    if y < g.dur * g.scale then pure { s with p := g.at s.p0 s.v0n s.v0d y }
    else match n with
      | 0 => pure (s.stick stLag)
      | n + 1 => do
        let s ← x.nextSeg i g s
        if s.run then x.runSegs i n false s else pure s

/-- START in PVT mode (R230). With no published segment the run underruns at once. -/
def KEnv.startRun (x : KEnv) (i : ProfIn) (s : Prof) : K Prof := do
  let st ← kGet
  if !i.avail s.rd then pure (s.stick stUnderrun)
  else do
    let n ← x.segment i s.rd
    if !n.ok then pure (s.stick stSegErr)
    else pure (s.startSeg n (convertVel s.v none n.unit (st.lpTravel i.cyc)) (st.master i.cyc 0 n.lp).1)

/-! ## Modes (R223, R224, R227, R238) -/

/-- A step of HOLD, JOG and searches: toward velocity w (R227). -/
def Prof.step (s : Prof) (i : ProfIn) (w : Int) : Prof :=
  let v := velStep s.v w i.acc i.dec
  { s with v := v, p := wrap64 (s.p + v) }

/-- Homing has found h (R238): it moves to h + HOME_OFS. -/
def Prof.found (s : Prof) (h : W48) : Prof := { s with home := 4, hpos := h }

/-- HOME_CFG's fields. -/
def ProfIn.method (i : ProfIn) : Nat := fld i.hcfg 1 0

/-- The switch is active (R238). -/
def ProfIn.switch (i : ProfIn) (echo : W48) : Bool := bit echo (fld i.hcfg 7 4) = bit i.hcfg 3

/-- Whether HOME_LP passes HOME_LP_AT in direction LP_DIR in this sample. -/
def ProfIn.passes (i : ProfIn) (m : W48 × W48) : Bool :=
  let k := dirOf (bit i.hcfg 10)
  k * (m.2 - i.hlpAt).toInt < 0 && k * (m.1 - i.hlpAt).toInt ≥ 0

/-- HOME_GO (R238, R240). -/
def Prof.homeGo (s : Prof) (i : ProfIn) (echo : W48) : Prof :=
  { s with home := if i.method = 1 && i.switch echo then 1 else 2, hs := 0, homeAt := i.cyc % 2 ^ 48 }

/-- The state changes of a homing sample before it moves: the search's condition, then the timeout (R238, R240). -/
def Prof.homeState (s : Prof) (i : ProfIn) (echo latch : W48) (sig : Int) (lp : W48 × W48) : Prof :=
  let s := if s.home = 2 && i.method = 2 then { s with hs := if mag sig ≥ i.hlevel then s.hs + 1 else 0 } else s
  let s :=
    match s.home with
    | 1 => if i.switch echo then s else { s with home := 2 }
    | 2 => (match i.method with
      | 0 => if bit echo 16 then s.found latch else s
      | 1 => if !i.switch echo then s else if bit i.hcfg 2 then { s with home := 3 } else s.found i.fb
      | 2 => if s.hs ≥ fld i.hcfg 31 16 then s.found i.fb else s
      | _ => if i.passes lp then s.found i.fb else s)
    | 3 => if bit echo 16 then s.found latch else s
    | _ => s
  let tmo := fld i.hcfg 47 32
  if 1 ≤ s.home && s.home ≤ 3 && tmo ≠ 0 && (BitVec.ofNat 48 i.cyc - BitVec.ofNat 48 s.homeAt).toNat ≥ tmo * 64 then { s with home := 6 } else s

/-- The motion of a homing sample; a hard stop found in it takes the reference to h at once. -/
def Prof.homeMove (s : Prof) (i : ProfIn) (was : Nat) : Prof :=
  match s.home with
  | 1 => s.step i (-i.hvel)
  | 2 => s.step i (if i.method = 3 then 0 else i.hvel)
  | 3 => s.step i i.hvel
  | 4 => if was ≠ 4 && i.method = 2 then { s with p := s.hpos.toInt * 65536, v := 0 }
    else s.move (wrap64 ((s.hpos + i.hofs).toInt * 65536)) i.acc i.dec (mag i.hvel)
  | _ => s.step i 0

/-- One sample of HOME mode. -/
def homeSample (i : ProfIn) (go : Bool) (s : Prof) : K Prof := do
  let st ← kGet
  let s := if go then s.homeGo i i.echo else s
  let was := s.home
  pure ((s.homeState i i.echo i.latch i.sig (st.master i.cyc 0 (fld i.hcfg 9 8))).homeMove i was)

/-- A velocity as its 48 bits hold it: one that does not fit has no stated value, so that it is free. -/
def kVel (v : Int) : K Int := do
  let s ← kGet
  if fitsS 48 v then pure v
  else do
    kSet s.useFree
    pure (Config.freeW48 s.freeCtr).toInt

/-- The samples of an enabled axis: what the mode in effect does, with a command c (0 for none) and whether gearing engages. -/
def KEnv.modeSample (x : KEnv) (i : ProfIn) (c : Nat) (engaging : Bool) (s : Prof) : K Prof := do
  let old := s.p
  match i.mode with
  | 2 =>
    let s := if c = 1 then { s with jstop := false } else s
    let s := if c = 2 then { s with jstop := true, jog := i.jogVel } else s
    pure (s.step i (if s.jstop then 0 else i.jogVel.toInt))
  | 1 =>
    let s := if c = 2 && s.run then s.endRun 1 else s
    let s ← if c = 1 && !s.run then x.startRun i s else pure s
    if s.run then do
      let s ← x.runSegs i 4 true s
      let v ← if s.rest then pure 0 else kVel (wrap64 (s.p - old))
      pure { s with v := v, rest := false }
    else pure (s.step i 0)
  | 3 => if i.gear then homeSample i (c = 4) s else pure (s.step i 0)
  | 4 =>
    if i.gear then do
      let st ← kGet
      let m := st.master i.cyc (fld i.gcfg 9 8) (fld i.gcfg 6 0)
      let s := s.gear i.g m.1 m.2 engaging
      let v ← kVel (wrap64 (s.p - old))
      pure { s with v := v }
    else pure (s.step i 0)
  | _ => pure (s.step i 0)

/-- FLUSH: any run ends and the read index becomes the mirror's WR (R237). CLEAR: the sticky bits go, and homing leaves DONE and ERROR (R240). -/
def Prof.common (s : Prof) (i : ProfIn) (c : Nat) : Prof :=
  match c with
  | 3 => { (s.endRun 0) with rd := i.wr }
  | 6 => { s with sticky := 0, home := if s.home ≥ 5 then 0 else s.home }
  | _ => s

/-! ## Standstill (R246, R247) -/

/-- Bring the standstill request up to date; broke says that a command or a mode change arrived. -/
def Prof.standstill (s : Prof) (i : ProfIn) (posRef : W48) (broke : Bool) : Prof :=
  let near := mag (i.fb - posRef).toInt ≤ i.win * 65536
  let s := if i.still && !near then s.stick stDrift else s
  if !bit i.pmode 8 then { s with still := false, dwell := 0 }
  else
    let rest := s.v = 0 && !s.run && !(1 ≤ s.home && s.home ≤ 4) && near
    let out := s.still && (broke || s.v ≠ 0 || s.run)
    let n := if rest then (if out then 1 else min (s.dwell + 1) 65535) else 0
    { s with dwell := n, still := if s.still then !out else !broke && rest && n ≥ fld i.pmode 31 16 }

/-! ## The kernel -/

/-- PSTAT without its sticky bits (Table 7.10). -/
def Prof.pstat (s : Prof) (i : ProfIn) : Nat :=
  i.mode + b2n (s.v ≠ 0) * 8 + b2n s.still * 16 + b2n s.run * 32 + b2n (s.pend || !s.due.isEmpty) * 512 + b2n s.blend * 1024 + b2n s.eng * 2048 + s.home * 4096

/-- Write a list of words of the profile block. -/
def KEnv.writeWords (x : KEnv) : List (Nat × W48) → K Unit
  | [] => pure ()
  | w :: r => do
    x.write (x.word w.1) w.2
    x.writeWords r

/-- A sample while ENABLE is 0 (R223). -/
def Prof.disabled (s : Prof) (i : ProfIn) : Prof :=
  let c := i.newCmd s
  let s := s.leave.jogOn i.mode i.jogVel
  let s := if c = 6 then { s with sticky := 0 } else s
  { s with p := i.fb.toInt * 65536, v := 0, m1 := 0, cseq := fld i.cmd 15 8, gseq := fld i.cmd 23 16, eseq := fld i.cmd 31 24 }

/-- A sample while ENABLE is 1. -/
def KEnv.enabledSample (x : KEnv) (i : ProfIn) (s : Prof) : K Prof := do
  let c := i.newCmd s
  let rise : Bool := s.m1 = 0
  let change : Bool := !rise && s.m1 ≠ i.mode + 1
  let s := if rise || change then s.leave else s
  let s := (if rise then { s with p := i.fb.toInt * 65536, v := 0 } else s).jogOn i.mode i.jogVel
  let eng : Bool := i.mode = 4 && (rise || change || fld i.cmd 31 24 ≠ s.eseq)
  let s := { s with m1 := i.mode + 1, cseq := fld i.cmd 15 8, eseq := fld i.cmd 31 24 }
  let s ← x.modeSample i c eng (s.common i c)
  pure (s.standstill i (w48 (rndDiv s.p 65536)) (change || (1 ≤ c && c ≤ 6)))

/-- The kernel: whether the standstill request rose in this sample, and whether homing timed out in it. -/
def profBody (gear : Bool) (x : KEnv) : K (Bool × Bool) := do
  let i ← profInputs gear x
  let s0 ← profState x i
  let s ← if i.enable then x.enabledSample i s0 else pure (s0.disabled i)
  let ref := w48 (rndDiv s.p 65536)
  x.write i.out ref
  (match i.ovel with
    | none => pure ()
    | some a =>
      let d := (ref - w48 (rndDiv s0.p 65536)).toInt
      let v := if s0.m1 = 0 && i.enable then 0 else (lane24 (rndDiv d (2 ^ i.shift))).val
      x.write a (laneWord v))
  x.writeWords (s.save (s.pstat i + b2n (s.applied ≠ s0.applied) * 2 ^ 17))
  pure (s.still && !s0.still, s.home = 6 && s0.home ≠ 6)

/-- The kernel numbers of the profile kernels. -/
def isProfile (r : OpRec) : Bool := isKernel 9 r || isKernel 10 r

/-- PVT (kernel 0x09, R218): HOLD, PVT and JOG. -/
def execPvt (t : Time) (e : Fin 32) (s : State) (ok : Bool := true) : Host.Outcome State Fault Refusal :=
  .next ((s.tick t).runKernel e 9 (fun x => do
    let _ ← profBody false x
    pure ()) ok)

/-- GEAR (kernel 0x0A, R218): every profile mode. -/
def execGear (t : Time) (e : Fin 32) (s : State) (ok : Bool := true) : Host.Outcome State Fault Refusal :=
  .next ((s.tick t).runKernel e 10 (fun x => do
    let _ ← profBody true x
    pure ()) ok)

/-- STANDSTILL_REQUEST (R246): the sample of a profile kernel in which the request rises. -/
def execStandstillRequest (t : Time) (e : Fin 32) (s : State) : Host.Outcome State Fault Refusal :=
  .next ((s.tick t).runTop e isProfile fun x => do
    let r ← profBody (x.op.code = 10) x
    pure (r.1, x.passOn))

/-- HOME_TIMEOUT (R240): the sample of a GEAR kernel in which homing enters ERROR. -/
def execHomeTimeout (t : Time) (e : Fin 32) (s : State) : Host.Outcome State Fault Refusal :=
  .next ((s.tick t).runTop e (isKernel 10) fun x => do
    let r ← profBody true x
    pure (r.2, x.passOn))

end Sys2Proof.Machine
end

