-- ==== Sys2Proof/Machine/Dispatch.lean ====
section
/-! DEFINITION. Which meaning each command has: one arm for each constructor of Instr, in the order of spec/opcode_table.json. -/

namespace Sys2Proof.Machine

/-- The effect of a command on everything but the queue. -/
def exec (i : Instr) (s : State) : Host.Outcome State Fault Refusal :=
  match i with
  | .registerWrite t m addr size val => Sys2Proof.Machine.execRegisterWrite t m addr size val s
  | .loReadShadow t m addr => Sys2Proof.Machine.execLoReadShadow t m addr s
  | .ecycW0Read t m e => Sys2Proof.Machine.execEcycW0Read t m e s
  | .irqSet t m p bits => Sys2Proof.Machine.execIrqSet t m p bits s
  | .commitGo t m p imm => Sys2Proof.Machine.execCommitGo t m p imm s
  | .commitArm t m p => Sys2Proof.Machine.execCommitArm t m p s
  | .commitDiscard t m p => Sys2Proof.Machine.execCommitDiscard t m p s
  | .commitConflict t m p val => Sys2Proof.Machine.execCommitConflict t m p val s
  | .commitCheckEnd t p => Sys2Proof.Machine.execCommitCheckEnd t p s
  | .commitTakeEffect t p => Sys2Proof.Machine.execCommitTakeEffect t p s
  | .commitImmediate t p => Sys2Proof.Machine.execCommitImmediate t p s
  | .gcommitGo t m imm => Sys2Proof.Machine.execGcommitGo t m imm s
  | .lockKey1 t m p => Sys2Proof.Machine.execLockKey1 t m p s
  | .lockKey2 t m p => Sys2Proof.Machine.execLockKey2 t m p s
  | .lockOtherValue t m p val => Sys2Proof.Machine.execLockOtherValue t m p val s
  | .unlockTimeout t p => Sys2Proof.Machine.execUnlockTimeout t p s
  | .errInfoClear t m => Sys2Proof.Machine.execErrInfoClear t m s
  | .trapStatClear t m e => Sys2Proof.Machine.execTrapStatClear t m e s
  | .eccStatClear t m e bits => Sys2Proof.Machine.execEccStatClear t m e bits s
  | .fltInfoClear t m c => Sys2Proof.Machine.execFltInfoClear t m c s
  | .scrubPass t hits => Sys2Proof.Machine.execScrubPass t hits s
  | .cycleStart t => Sys2Proof.Machine.execCycleStart t s
  | .axisMirrorWrite t a => Sys2Proof.Machine.execAxisMirrorWrite t a s
  | .commandWindowWrite t w b sl r loc1 v => Sys2Proof.Machine.execCommandWindowWrite t w b sl r loc1 v s
  | .transmitPointerReach t b sl => Sys2Proof.Machine.execTransmitPointerReach t b sl s
  | .fieldRelease t b sl => Sys2Proof.Machine.execFieldRelease t b sl s
  | .slotFrameReceive t b f => Sys2Proof.Machine.execSlotFrameReceive t b f s
  | .slotEndTruncate t b sl => Sys2Proof.Machine.execSlotEndTruncate t b sl s
  | .windowCloseMissing t b sl => Sys2Proof.Machine.execWindowCloseMissing t b sl s
  | .uplinkFragmentReceive t b f => Sys2Proof.Machine.execUplinkFragmentReceive t b f s
  | .dqPush t m b val => Sys2Proof.Machine.execDqPush t m b val s
  | .uqPop t m b => Sys2Proof.Machine.execUqPop t m b s
  | .downlinkDynamicSegment t b => Sys2Proof.Machine.execDownlinkDynamicSegment t b s
  | .timeEventFire t u => Sys2Proof.Machine.execTimeEventFire t u s
  | .angleEventFire t u => Sys2Proof.Machine.execAngleEventFire t u s
  | .operationDispatch t c => Sys2Proof.Machine.execOperationDispatch t c s
  | .preemptAccept t e => Sys2Proof.Machine.execPreemptAccept t e s
  | .spillDone t e => Sys2Proof.Machine.execSpillDone t e s
  | .spillReadbackDone t e => Sys2Proof.Machine.execSpillReadbackDone t e s
  | .farLoadReturn t e d hostData => Sys2Proof.Machine.execFarLoadReturn t e d hostData s
  | .operationEnd t e => Sys2Proof.Machine.execOperationEnd t e s
  | .operationComplete t e => Sys2Proof.Machine.execOperationComplete t e s
  | .delayListTick t l => Sys2Proof.Machine.execDelayListTick t l s
  | .refire t m op => Sys2Proof.Machine.execRefire t m op s
  | .doorbell t m n => Sys2Proof.Machine.execDoorbell t m n s
  | .flowEnWrite t m fl val => Sys2Proof.Machine.execFlowEnWrite t m fl val s
  | .load t m => Sys2Proof.Machine.execLoad t m s
  | .loadEnd t => Sys2Proof.Machine.execLoadEnd t s
  | .activate t m => Sys2Proof.Machine.execActivate t m s
  | .loadCtlClear t m => Sys2Proof.Machine.execLoadCtlClear t m s
  | .graphSwitch t => Sys2Proof.Machine.execGraphSwitch t s
  | .laharClrCnt t m => Sys2Proof.Machine.execLaharClrCnt t m s
  | .cellClrCnt t m c => Sys2Proof.Machine.execCellClrCnt t m c s
  | .routeRewrite t => Sys2Proof.Machine.execRouteRewrite t s
  | .copyDone t c => Sys2Proof.Machine.execCopyDone t c s
  | .mpy t e ok => Sys2Proof.Machine.execMpy t e s ok
  | .mac t e ok => Sys2Proof.Machine.execMac t e s ok
  | .msu t e ok => Sys2Proof.Machine.execMsu t e s ok
  | .macx t e ok => Sys2Proof.Machine.execMacx t e s ok
  | .msux t e ok => Sys2Proof.Machine.execMsux t e s ok
  | .adda t e ok => Sys2Proof.Machine.execAdda t e s ok
  | .parallelMove t e ok => Sys2Proof.Machine.execParallelMove t e s ok
  | .add t e ok => Sys2Proof.Machine.execAdd t e s ok
  | .sub t e ok => Sys2Proof.Machine.execSub t e s ok
  | .adds t e ok => Sys2Proof.Machine.execAdds t e s ok
  | .subs t e ok => Sys2Proof.Machine.execSubs t e s ok
  | .neg t e ok => Sys2Proof.Machine.execNeg t e s ok
  | .abs t e ok => Sys2Proof.Machine.execAbs t e s ok
  | .min t e ok => Sys2Proof.Machine.execMin t e s ok
  | .max t e ok => Sys2Proof.Machine.execMax t e s ok
  | .and t e ok => Sys2Proof.Machine.execAnd t e s ok
  | .or t e ok => Sys2Proof.Machine.execOr t e s ok
  | .xor t e ok => Sys2Proof.Machine.execXor t e s ok
  | .not t e ok => Sys2Proof.Machine.execNot t e s ok
  | .asl t e ok => Sys2Proof.Machine.execAsl t e s ok
  | .asr t e ok => Sys2Proof.Machine.execAsr t e s ok
  | .lsl t e ok => Sys2Proof.Machine.execLsl t e s ok
  | .lsr t e ok => Sys2Proof.Machine.execLsr t e s ok
  | .cmp t e ok => Sys2Proof.Machine.execCmp t e s ok
  | .tst t e ok => Sys2Proof.Machine.execTst t e s ok
  | .mov t e ok => Sys2Proof.Machine.execMov t e s ok
  | .movh t e ok => Sys2Proof.Machine.execMovh t e s ok
  | .cmov t e ok => Sys2Proof.Machine.execCmov t e s ok
  | .ld t e ok => Sys2Proof.Machine.execLd t e s ok
  | .st t e ok => Sys2Proof.Machine.execSt t e s ok
  | .ldp t e ok => Sys2Proof.Machine.execLdp t e s ok
  | .stp t e ok => Sys2Proof.Machine.execStp t e s ok
  | .fld t e ok => Sys2Proof.Machine.execFld t e s ok
  | .fst t e ok => Sys2Proof.Machine.execFst t e s ok
  | .nop t e ok => Sys2Proof.Machine.execNop t e s ok
  | .br t e ok => Sys2Proof.Machine.execBr t e s ok
  | .brr t e ok => Sys2Proof.Machine.execBrr t e s ok
  | .jl t e ok => Sys2Proof.Machine.execJl t e s ok
  | .loop t e ok => Sys2Proof.Machine.execLoop t e s ok
  | .done t e ok => Sys2Proof.Machine.execDone t e s ok
  | .movs t e ok => Sys2Proof.Machine.execMovs t e s ok
  | .movr t e ok => Sys2Proof.Machine.execMovr t e s ok
  | .movi t e ok => Sys2Proof.Machine.execMovi t e s ok
  | .rnd t e ok => Sys2Proof.Machine.execRnd t e s ok
  | .mova t e ok => Sys2Proof.Machine.execMova t e s ok
  | .clr t e ok => Sys2Proof.Machine.execClr t e s ok
  | .exp t e ok => Sys2Proof.Machine.execExp t e s ok
  | .norm t e ok => Sys2Proof.Machine.execNorm t e s ok
  | .bfsc t e ok => Sys2Proof.Machine.execBfsc t e s ok
  | .rds t e ok => Sys2Proof.Machine.execRds t e s ok
  | .post t e ok => Sys2Proof.Machine.execPost t e s ok
  | .sos t e ok => Sys2Proof.Machine.execSos t e s ok
  | .sosCascade t e ok => Sys2Proof.Machine.execSosCascade t e s ok
  | .pi t e ok => Sys2Proof.Machine.execPi t e s ok
  | .rampTimeout t e => Sys2Proof.Machine.execRampTimeout t e s
  | .piDq t e ok => Sys2Proof.Machine.execPiDq t e s ok
  | .clarke t e ok => Sys2Proof.Machine.execClarke t e s ok
  | .park t e ok => Sys2Proof.Machine.execPark t e s ok
  | .ipark t e ok => Sys2Proof.Machine.execIpark t e s ok
  | .svm t e ok => Sys2Proof.Machine.execSvm t e s ok
  | .pvt t e ok => Sys2Proof.Machine.execPvt t e s ok
  | .gear t e ok => Sys2Proof.Machine.execGear t e s ok
  | .standstillRequest t e => Sys2Proof.Machine.execStandstillRequest t e s
  | .homeTimeout t e => Sys2Proof.Machine.execHomeTimeout t e s
  | .axisIn t e ok => Sys2Proof.Machine.execAxisIn t e s ok
  | .axisOut t e ok => Sys2Proof.Machine.execAxisOut t e s ok
  | .pcmdStart t m a => Sys2Proof.Machine.execPcmdStart t m a s
  | .pcmdStop t m a => Sys2Proof.Machine.execPcmdStop t m a s
  | .pcmdFlush t m a => Sys2Proof.Machine.execPcmdFlush t m a s
  | .homeGo t m a => Sys2Proof.Machine.execHomeGo t m a s
  | .wake t m a => Sys2Proof.Machine.execWake t m a s
  | .pcmdClear t m a => Sys2Proof.Machine.execPcmdClear t m a s
  | .ringPut t m a n => Sys2Proof.Machine.execRingPut t m a n s
  | .qeTransition t q onB level stamp => Sys2Proof.Machine.execQeTransition t q onB level stamp s
  | .illegalTransition t q => Sys2Proof.Machine.execIllegalTransition t q s
  | .index t q active => Sys2Proof.Machine.execIndex t q s active
  | .armIdx t m q => Sys2Proof.Machine.execArmIdx t m q s
  | .lpSourceLost t l => Sys2Proof.Machine.execLpSourceLost t l s
  | .lpBroadcastReceive t dev l st => Sys2Proof.Machine.execLpBroadcastReceive t dev l st s
  | .comparePush t m c lo hi => Sys2Proof.Machine.execComparePush t m c lo hi s
  | .compareFlush t m c => Sys2Proof.Machine.execCompareFlush t m c s
  | .compareForce t m c => Sys2Proof.Machine.execCompareForce t m c s
  | .compareReach t c => Sys2Proof.Machine.execCompareReach t c s
  | .pulseEnd t c => Sys2Proof.Machine.execPulseEnd t c s
  | .foreignSync t b => Sys2Proof.Machine.execForeignSync t b s
  | .startAttemptEnd t b => Sys2Proof.Machine.execStartAttemptEnd t b s
  | .withdrawnSilence t b => Sys2Proof.Machine.execWithdrawnSilence t b s
  | .backoffEnd t b => Sys2Proof.Machine.execBackoffEnd t b s
  | .admissionRunOpen t b => Sys2Proof.Machine.execAdmissionRunOpen t b s
  | .admitGo t m b => Sys2Proof.Machine.execAdmitGo t m b s
  | .request t b r => Sys2Proof.Machine.execRequest t b r s
  | .admissionNoResponse t b => Sys2Proof.Machine.execAdmissionNoResponse t b s
  | .mreply t b sl seq t2 t3 t4 => Sys2Proof.Machine.execMreply t b sl seq t2 t3 t4 s
  | .joinTimeout t b h => Sys2Proof.Machine.execJoinTimeout t b h s
  | .nodeSuspect t b h => Sys2Proof.Machine.execNodeSuspect t b h s
  | .nodeSuspectClear t b h => Sys2Proof.Machine.execNodeSuspectClear t b h s
  | .nodeExclude t b h => Sys2Proof.Machine.execNodeExclude t b h s
  | .ntcmdRelease t m b h => Sys2Proof.Machine.execNtcmdRelease t m b h s
  | .reintegrate t m b h => Sys2Proof.Machine.execReintegrate t m b h s
  | .craterClrCnt t m => Sys2Proof.Machine.execCraterClrCnt t m s
  | .branchClrCnt t m b => Sys2Proof.Machine.execBranchClrCnt t m b s
  | .nodeTableClrCnt t m b => Sys2Proof.Machine.execNodeTableClrCnt t m b s
  | .resampleInterval t ch => Sys2Proof.Machine.execResampleInterval t ch s
  | .blockClose t ch => Sys2Proof.Machine.execBlockClose t ch s
  | .recordWriteDone t r => Sys2Proof.Machine.execRecordWriteDone t r s
  | .ringRdWrite t m r val => Sys2Proof.Machine.execRingRdWrite t m r val s
  | .fillComplete t u => Sys2Proof.Machine.execFillComplete t u s
  | .captureDone t u => Sys2Proof.Machine.execCaptureDone t u s
  | .autoTimeout t u => Sys2Proof.Machine.execAutoTimeout t u s
  | .tcmdArm t m u => Sys2Proof.Machine.execTcmdArm t m u s
  | .tcmdAck t m u => Sys2Proof.Machine.execTcmdAck t m u s
  | .tcmdStop t m u => Sys2Proof.Machine.execTcmdStop t m u s
  | .tcmdForce t m u => Sys2Proof.Machine.execTcmdForce t m u s
  | .geyserClrCnt t m => Sys2Proof.Machine.execGeyserClrCnt t m s
  | .ptpSync t f => Sys2Proof.Machine.execPtpSync t f s
  | .ptpFollowUp t f => Sys2Proof.Machine.execPtpFollowUp t f s
  | .ptpDelayResp t f => Sys2Proof.Machine.execPtpDelayResp t f s
  | .delayReqSend t => Sys2Proof.Machine.execDelayReqSend t s
  | .cascadeTimeMessage t sec ns frac lv1 => Sys2Proof.Machine.execCascadeTimeMessage t sec ns frac s lv1
  | .ppsInEdge t rising => Sys2Proof.Machine.execPpsInEdge t s rising
  | .timeStep t => Sys2Proof.Machine.execTimeStep t s
  | .masterLost t => Sys2Proof.Machine.execMasterLost t s
  | .secondBoundary t => Sys2Proof.Machine.execSecondBoundary t s
  | .ppsOutFall t => Sys2Proof.Machine.execPpsOutFall t s
  | .stepAccept t m => Sys2Proof.Machine.execStepAccept t m s
  | .latch t m => Sys2Proof.Machine.execLatch t m s
  | .secSet t m => Sys2Proof.Machine.execSecSet t m s
  | .nowNsLoRead t m => Sys2Proof.Machine.execNowNsLoRead t m s
  | .pcmdClaim t m => Sys2Proof.Machine.execPcmdClaim t m s
  | .pcmdRelease t m => Sys2Proof.Machine.execPcmdRelease t m s
  | .pcmdResync t m => Sys2Proof.Machine.execPcmdResync t m s
  | .echoOn t m b => Sys2Proof.Machine.execEchoOn t m b s
  | .echoOff t m b => Sys2Proof.Machine.execEchoOff t m b s
  | .peerClaimChange t high => Sys2Proof.Machine.execPeerClaimChange t high s
  | .intlkChange t high => Sys2Proof.Machine.execIntlkChange t high s
  | .claimRaise t => Sys2Proof.Machine.execClaimRaise t s
  | .releasePoint t => Sys2Proof.Machine.execReleasePoint t s
  | .agreementRecord t r => Sys2Proof.Machine.execAgreementRecord t r s
  | .agreementTimeout t => Sys2Proof.Machine.execAgreementTimeout t s
  | .mirroredWrite t addr size val since => Sys2Proof.Machine.execMirroredWrite t addr size val s since
  | .mirrorTimeout t => Sys2Proof.Machine.execMirrorTimeout t s
  | .forwardedSlotData t b sl words sub => Sys2Proof.Machine.execForwardedSlotData t b sl words sub s
  | .staleMaskExchange t masks => Sys2Proof.Machine.execStaleMaskExchange t masks s
  | .digestExchange t digest count safety => Sys2Proof.Machine.execDigestExchange t digest count safety s
  | .echoAutoStart t b => Sys2Proof.Machine.execEchoAutoStart t b s
  | .echoForwardedFrame t b sl words sub => Sys2Proof.Machine.execEchoForwardedFrame t b sl words sub s
  | .resyncRoundEnd t dirty kib copy => Sys2Proof.Machine.execResyncRoundEnd t dirty s kib copy
  | .rootElection t cands found => Sys2Proof.Machine.execRootElection t cands found s
  | .bar2Request t r => Sys2Proof.Machine.execBar2Request t r s
  | .cascadeReadTimeout t tag => Sys2Proof.Machine.execCascadeReadTimeout t tag s
  | .cascadeInterrupt t dev vec => Sys2Proof.Machine.execCascadeInterrupt t dev vec s
  | .remotePendClear t m hi bits => Sys2Proof.Machine.execRemotePendClear t m hi bits s
  | .selfTestDispatch t => Sys2Proof.Machine.execSelfTestDispatch t s
  | .selfTestTimeout t e => Sys2Proof.Machine.execSelfTestTimeout t e s
  | .nodeSafetyTimeout t b sl => Sys2Proof.Machine.execNodeSafetyTimeout t b sl s
  | .cmdMiss t b sl => Sys2Proof.Machine.execCmdMiss t b sl s
  | .cycleMiss t b => Sys2Proof.Machine.execCycleMiss t b s
  | .axcmdStop t m a => Sys2Proof.Machine.execAxcmdStop t m a s
  | .axcmdAck t m a => Sys2Proof.Machine.execAxcmdAck t m a s
  | .ss1tExpire t a => Sys2Proof.Machine.execSs1tExpire t a s
  | .ss1rTmax t a => Sys2Proof.Machine.execSs1rTmax t a s
  | .stoFeedbackSample t hs ls => Sys2Proof.Machine.execStoFeedbackSample t hs ls s
  | .offPulseTestEnd t passed => Sys2Proof.Machine.execOffPulseTestEnd t passed s
  | .sinSample t levels => Sys2Proof.Machine.execSinSample t levels s
  | .sinDiscrepancy t p => Sys2Proof.Machine.execSinDiscrepancy t p s
  | .channelDisagree t => Sys2Proof.Machine.execChannelDisagree t s
  | .clockCrossCheck t rc => Sys2Proof.Machine.execClockCrossCheck t rc s
  | .supplyExcursion t rail bank => Sys2Proof.Machine.execSupplyExcursion t rail s bank
  | .selftestEnd t passed => Sys2Proof.Machine.execSelftestEnd t passed s
  | .scmdAck t m => Sys2Proof.Machine.execScmdAck t m s
  | .scmdDsto t m => Sys2Proof.Machine.execScmdDsto t m s
  | .paramAck t m val => Sys2Proof.Machine.execParamAck t m val s
  | .por t asserted => Sys2Proof.Machine.execPor t asserted s
  | .nrstIn t asserted => Sys2Proof.Machine.execNrstIn t asserted s
  | .perst t asserted => Sys2Proof.Machine.execPerst t asserted s
  | .hotReset t asserted => Sys2Proof.Machine.execHotReset t asserted s
  | .trst t asserted => Sys2Proof.Machine.execTrst t asserted s
  | .rstReq t m reach target => Sys2Proof.Machine.execRstReq t m reach target s
  | .rstHold t m val => Sys2Proof.Machine.execRstHold t m val s
  | .wdogWarn t => Sys2Proof.Machine.execWdogWarn t s
  | .wdogExpire t => Sys2Proof.Machine.execWdogExpire t s
  | .wdogKick t m => Sys2Proof.Machine.execWdogKick t m s
  | .resetRelease t src straps banks => Sys2Proof.Machine.execResetRelease t src straps s banks
  | .fuseLoadDone t copy0 copy1 => Sys2Proof.Machine.execFuseLoadDone t copy0 copy1 s
  | .pllLock t => Sys2Proof.Machine.execPllLock t s
  | .exitStepDone t noCal => Sys2Proof.Machine.execExitStepDone t s noCal
  | .flashImageCheck t image => Sys2Proof.Machine.execFlashImageCheck t image s
  | .bootWriteRecord t => Sys2Proof.Machine.execBootWriteRecord t s
  | .bootWaitRecord t => Sys2Proof.Machine.execBootWaitRecord t s
  | .bootWaitEnd t => Sys2Proof.Machine.execBootWaitEnd t s
  | .bootEndRecord t => Sys2Proof.Machine.execBootEndRecord t s
  | .hostMemoryRequest t m addr write len data => Sys2Proof.Machine.execHostMemoryRequest t m addr write len data s
  | .configWrite t memEn busMaster d3hot => Sys2Proof.Machine.execConfigWrite t memEn busMaster d3hot s
  | .vecArm t m hi bits => Sys2Proof.Machine.execVecArm t m hi bits s
  | .msixMaskChange t v masked => Sys2Proof.Machine.execMsixMaskChange t v masked s
  | .tailWrite t m c val => Sys2Proof.Machine.execTailWrite t m c val s
  | .dmaElementStart t desc => Sys2Proof.Machine.execDmaElementStart t desc s
  | .dmaHostCompletion t c cpl => Sys2Proof.Machine.execDmaHostCompletion t c cpl s
  | .dmaElementLanded t c => Sys2Proof.Machine.execDmaElementLanded t c s
  | .chCmdResume t m c => Sys2Proof.Machine.execChCmdResume t m c s
  | .chCmdStop t m c => Sys2Proof.Machine.execChCmdStop t m c s
  | .chCmdSkip t m c => Sys2Proof.Machine.execChCmdSkip t m c s
  | .chCmdReset t m c => Sys2Proof.Machine.execChCmdReset t m c s
  | .tlbInv t m val => Sys2Proof.Machine.execTlbInv t m val s
  | .invalidationDone t => Sys2Proof.Machine.execInvalidationDone t s
  | .tableWalkDone t e => Sys2Proof.Machine.execTableWalkDone t e s
  | .canFrameReceive t n f => Sys2Proof.Machine.execCanFrameReceive t n f s
  | .txreq t m n hi bits => Sys2Proof.Machine.execTxreq t m n hi bits s
  | .txcan t m n hi bits => Sys2Proof.Machine.execTxcan t m n hi bits s
  | .canTxSuccess t n => Sys2Proof.Machine.execCanTxSuccess t n s
  | .canFailedAttempt t n k => Sys2Proof.Machine.execCanFailedAttempt t n k s
  | .recover t m n => Sys2Proof.Machine.execRecover t m n s
  | .canRecovered t n => Sys2Proof.Machine.execCanRecovered t n s
  | .rxfullFree t m n hi bits => Sys2Proof.Machine.execRxfullFree t m n hi bits s
  | .canDisable t n => Sys2Proof.Machine.execCanDisable t n s
  | .ethFrameReceive t n f => Sys2Proof.Machine.execEthFrameReceive t n f s
  | .rxRdWrite t m n val => Sys2Proof.Machine.execRxRdWrite t m n val s
  | .txWrWrite t m n val => Sys2Proof.Machine.execTxWrWrite t m n val s
  | .ethFrameSent t n => Sys2Proof.Machine.execEthFrameSent t n s
  | .mbxRxFree t m n bits => Sys2Proof.Machine.execMbxRxFree t m n bits s
  | .mbxTx t m n bits => Sys2Proof.Machine.execMbxTx t m n bits s
  | .mdioCmd t m val => Sys2Proof.Machine.execMdioCmd t m val s
  | .mdioDone t data => Sys2Proof.Machine.execMdioDone t data s
  | .ethLinkChange t n up aneg => Sys2Proof.Machine.execEthLinkChange t n up aneg s
  | .gpioSet t m bits => Sys2Proof.Machine.execGpioSet t m bits s
  | .gpioClr t m bits => Sys2Proof.Machine.execGpioClr t m bits s
  | .padWrite t m k val => Sys2Proof.Machine.execPadWrite t m k val s
  | .twiCmd t m val => Sys2Proof.Machine.execTwiCmd t m val s
  | .twiDone t acked rx arbLost => Sys2Proof.Machine.execTwiDone t acked rx arbLost s
  | .twiTimeout t => Sys2Proof.Machine.execTwiTimeout t s
  | .bwWindowEnd t c => Sys2Proof.Machine.execBwWindowEnd t c s
  | .freeze t m on => Sys2Proof.Machine.execFreeze t m on s
  | .counterOverflow t e fl => Sys2Proof.Machine.execCounterOverflow t e fl s
  | .clrPeak t m c => Sys2Proof.Machine.execClrPeak t m c s
  | .hiRead t m addr => Sys2Proof.Machine.execHiRead t m addr s
  | .grantWindowClose t b g => Sys2Proof.Machine.execGrantWindowClose t b g s
  | .taleirReceiverLockLoss t b fault => Sys2Proof.Machine.execTaleirReceiverLockLoss t b s fault
  | .luavanPortLockChange t p up neighbour err => Sys2Proof.Machine.execLuavanPortLockChange t p up neighbour s err
  | .pxLinkChange t up info retry => Sys2Proof.Machine.execPxLinkChange t up info s retry
  | .pcieLinkChange t up speed width => Sys2Proof.Machine.execPcieLinkChange t up speed width s
  | .cascadeReadCompletion t tag part ok data => Sys2Proof.Machine.execCascadeReadCompletion t tag part ok data s
  | .pcieCompletionTimeout t o => Sys2Proof.Machine.execPcieCompletionTimeout t o s
  | .canReceiveError t n k => Sys2Proof.Machine.execCanReceiveError t n k s
  | .sinterSelfTest t passed => Sys2Proof.Machine.execSinterSelfTest t passed s
  | .clockWindowTimeout t => Sys2Proof.Machine.execClockWindowTimeout t s
  | .partnerSafetyDemand t d => Sys2Proof.Machine.execPartnerSafetyDemand t d s

end Sys2Proof.Machine
end

