-- ==== Sys2Proof/Safety.lean ====
section
/-! DEFINITION. What the statements are said with: the canonical form that every step keeps, when a register write is performed, and what a command
leaves unchanged. -/

namespace Sys2Proof.Machine

/-- The canonical form of memory: addresses rise strictly and no listed byte is what an unlisted one reads as. -/
def Memory.wf (m : List Host.Cell) : Bool := Tab.wf (fun _ => (0 : Byte)) m

/-- A state whose memory, registers and staged copies are in canonical form. -/
def State.Canonical (s : State) : Prop := Memory.wf s.mem = true ∧ Tab.wf resetOf s.regs = true ∧ Tab.wf resetOf s.stage = true

/-- Whether a write by m to the register at a is performed: the host's BAR accesses are served (R532), the page is implemented (R40) and served (R513), its block
is not in reset (R522), the pair does not discard the write (R434), the page is not locked, but for LOCK and IRQ_STAT (R64), and the pad is not held by flash boot
(R614). -/
def State.takes (s : State) (m : Master) (a : Nat) : Bool :=
  s.barOpen m && match pageKind (a / 0x1000) with
  | none => false
  | some (k, n) =>
    !(s.rst.safeBoot && (!diagnosticPage k || k = .sinCore)) && !s.pageInReset k n && !(s.pairDiscards m && !notMirrored k) &&
    (!s.locked k (a / 0x1000) || a % 0x1000 = 0x28 || a % 0x1000 = 0x10) && !s.padHeld a

/-- The state in which the effect of a performed register write is computed: at the write's instant, with a key sequence of the page broken (R65) and the write
carried to the standby where this device mirrors it (R432). -/
def State.entered (s : State) (t : Time) (m : Master) (a : Nat) (v : W32) : State := ((s.tick t).gate m a v).1

/-- Everything of a state but its registers, their commit and lock state and shadows, the time, the pending message bits and what has left the device. -/
def State.rest (s : State) : State :=
  { s with now := 0, freeCtr := 0, regs := [], hwSet := [], pages := [], shadows := [], out := [], pcie := { s.pcie with pba := 0 } }

/-- Registers outside a list read as before. -/
def RegsKept (s u : State) (may : List Nat) : Prop := ∀ a, a ∉ may → u.rd a = s.rd a

/-- Every byte of memory reads as before. -/
def MemKept (s u : State) : Prop := ∀ a, u.byte a = s.byte a

/-- What a command leaves as it is: registers outside the list may, every byte of memory, and everything else as r says. -/
def Frame (s u : State) (may : List Nat) (r : State) : Prop := RegsKept s u may ∧ MemKept s u ∧ u.rest = r

/-- A device in pair mode that is neither ACTIVE nor STANDBY leaves RUN for SAFE with both STO outputs low; Sinter is otherwise as it was (R482, R491). -/
def SinHeld (s u : State) : Prop :=
  u.sin = if s.pairMode && s.sin.state = 4 then
    { s.sin with state := 3, test := none, hs := false, ls := false, hsAt := if s.sin.hs then u.now else s.sin.hsAt, lsAt := if s.sin.ls then u.now else s.sin.lsAt }
  else s.sin

/-- exec answers a next state of which P holds. -/
def Answers (c : Instr) (s : State) (P : State → Prop) : Prop := ∃ u, exec c s = .next u ∧ P u

/-- The registers that setting a cause of page p may change: its IRQ_STAT, and the arming of vectors (R49, R534). -/
def irqRegs (p : Nat) : List Nat := [R.IRQ_STAT p, R.router_VEC_ARM 0, R.router_VEC_ARM 1]

/-- Registers outside a list and outside the performance pages, which count the engines' events (chapter 18), read as before. -/
def QuietRegs (s u : State) (may : List Nat) : Prop := ∀ a, a ∉ may → (a < 0xF8000 ∨ 0x100000 ≤ a) → u.rd a = s.rd a

/-- Every engine but one is as before. -/
def EngsKept (s u : State) (e : Nat) : Prop := ∀ d, d ≠ e → u.eng d = s.eng d

/-- The bank an instruction of the operation v reads its operands from: advanced to its place, after the loop-end tests of its address (R112, R129, R130). -/
def State.readBank (s : State) (v : Serv) : Bank := (v.bank.advance.loopEnd s.freeCtr v.bank.pc).1

/-- The operation v at the top of engine e issues the word w now: the engine may issue, the word belongs to row r and is valid where it stands, and no
far load holds it back (R89, R113, Table 4.13). -/
def State.Issues (s : State) (e : Nat) (r : BRow) (v : Serv) (w : W48) : Prop :=
  s.top e = some v ∧ s.canIssue e v = true ∧ w = s.word48 (engInstrAddr e v.bank.pc) ∧ (rowOfWord w).1 = r ∧ wordValid w = true ∧
  (∀ d ∈ wordD w, d ∉ v.pendingD) ∧ (r = .mem 4 → s.pendingLoads e < 4) ∧ s.eccAt (engInstrAddr e v.bank.pc) = .good ∧
  issueBad v.bank.advance s.freeCtr w = false

/-- What an instruction that issued leaves: the operation at the top is x but for its bank, where only the listed registers have a new latest write, the
operations below and the other engines are as before, and so is every register but the counts of events. -/
def Retired (s u : State) (e : Nat) (v x v' : Serv) (rs : List Nat) : Prop :=
  u.top e = some v' ∧ (u.eng e).servs.tail = (s.eng e).servs.tail ∧ v' = { x with bank := v'.bank, ended := v'.ended } ∧
  (v'.ended = true ↔ v'.bank.fin = some 0) ∧ (∀ r, r ∉ rs → v'.bank.latest r = (s.readBank v).latest r) ∧ EngsKept s u e ∧ QuietRegs s u [] ∧
  u.rest = { s.rest with engs := u.engs, perf := u.perf, mem := u.mem, ecc := u.ecc }

/-- The instruction at the next address follows, or the branch taken, at its place (R112, R128); the loops and their ends stay. -/
def Sequential (s : State) (v v' : Serv) : Prop :=
  let b := (s.readBank v).next (match (v.bank.advance.loopEnd s.freeCtr v.bank.pc).2 with
    | some x => x
    | none => (v.bank.pc + 1) % 8192)
  v'.bank.pc = b.pc ∧ v'.bank.br = b.br ∧ v'.bank.slots = b.slots ∧ v'.bank.fin = b.fin ∧ v'.bank.ls0 = b.ls0 ∧ v'.bank.le0 = b.le0 ∧
  v'.bank.ls1 = b.ls1 ∧ v'.bank.le1 = b.le1

/-- A word stored at a frame address: it reads back sign-extended, and every other byte is as before. -/
def Stored (s u : State) (e depth addr : Nat) (x : W48) : Prop :=
  ∃ n, s.localWord e depth addr = some (n, false) ∧ u.le (engDataAddr e n) 8 = (x.signExtend 64).toNat ∧
    (∀ a, a < engDataAddr e n ∨ engDataAddr e n + 8 ≤ a → u.byte a = s.byte a)

/-- The command of an ALU operation. -/
def aluInstr (op : AluOp) (t : Time) (e : Fin 32) (ok : Bool := true) : Instr :=
  match op with
  | .add => .add t e ok
  | .sub => .sub t e ok
  | .adds => .adds t e ok
  | .subs => .subs t e ok
  | .neg => .neg t e ok
  | .abs => .abs t e ok
  | .min => .min t e ok
  | .max => .max t e ok
  | .and => .and t e ok
  | .or => .or t e ok
  | .xor => .xor t e ok
  | .not => .not t e ok
  | .asl => .asl t e ok
  | .asr => .asr t e ok
  | .lsl => .lsl t e ok
  | .lsr => .lsr t e ok
  | .cmp => .cmp t e ok
  | .tst => .tst t e ok
  | .mov => .mov t e ok
  | .movh => .movh t e ok
  | .cmov => .cmov t e ok

/-- The command of a multiply operation. -/
def macInstr (op : MacOp) (t : Time) (e : Fin 32) (ok : Bool := true) : Instr :=
  match op with
  | .none => .parallelMove t e ok
  | .mpy => .mpy t e ok
  | .mac => .mac t e ok
  | .msu => .msu t e ok
  | .macx => .macx t e ok
  | .msux => .msux t e ok
  | .adda => .adda t e ok

/-- The commands of an instruction's row: one, where the row exists. -/
def brassInstr (r : BRow) (t : Time) (e : Fin 32) (ok : Bool) : List Instr :=
  match r with
  | .mac op => [macInstr op t e ok]
  | .alu op => [aluInstr op t e ok]
  | .mem n => (([.ld t e ok, .st t e ok, .ldp t e ok, .stp t e ok, .fld t e ok, .fst t e ok] : List Instr)[n]?).toList
  | .ctl c =>
    match c with
    | 0x00 => [.nop t e ok]
    | 0x01 => [.br t e ok]
    | 0x02 => [.brr t e ok]
    | 0x03 => [.jl t e ok]
    | 0x04 => [.loop t e ok]
    | 0x05 => [.done t e ok]
    | 0x08 => [.movs t e ok]
    | 0x09 => [.movr t e ok]
    | 0x0A => [.movi t e ok]
    | 0x10 => [.rnd t e ok]
    | 0x11 => [.mova t e ok]
    | 0x12 => [.clr t e ok]
    | 0x13 => [.exp t e ok]
    | 0x14 => [.norm t e ok]
    | 0x15 => [.bfsc t e ok]
    | 0x18 => [.rds t e ok]
    | 0x19 => [.post t e ok]
    | _ => []

/-- The commands of a kernel and its number, and those of the library's operations. -/
def kernelInstr (t : Time) (e : Fin 32) (ok : Bool) : List (Instr × (OpRec → Bool)) :=
  [(.sos t e ok, isKernel 1), (.sosCascade t e ok, isKernel 2), (.pi t e ok, isKernel 3), (.piDq t e ok, isKernel 4), (.clarke t e ok, isKernel 5),
   (.park t e ok, isKernel 6), (.ipark t e ok, isKernel 7), (.svm t e ok, isKernel 8), (.pvt t e ok, isKernel 9), (.gear t e ok, isKernel 10),
   (.axisIn t e ok, isLibrary), (.axisOut t e ok, isLibrary)]

/-- A LOCKSTEP trap of engine e (Table 3.11) is recorded with its PC and no data address; memory is as before unless the trap retires the engine, whose cell's
regions may then move (R171). -/
def Locksteps (s : State) (t : Time) (u : State) (e pc : Nat) : Prop :=
  u.b (R.engine_TRAP_STAT e) 0 = true ∧ u.f (R.engine_TRAP_STAT e) 7 4 = 7 ∧ u.rd (R.engine_TRAP_PC e) = BitVec.ofNat 32 pc ∧
  u.rd48 (R.engine_TRAP_ADDR_LO e) = 0 ∧ u.b (R.IRQ_STAT (enginePage e)) 8 = true ∧ (((s.tick t).fdFault 4 e).2 = false → MemKept s u)

/-! ### Kernels -/

/-- An operation that key names reads word w at va: through a TLB hit, in device memory, with good check bits (R88, R194, R554). -/
def State.Sees (s : State) (e key : Nat) (va : W48) (w : W64) : Prop :=
  va.toNat % 8 = 0 ∧ ∃ a, s.tlbLook (e / 4) (s.opCtx key).1 (s.opCtx key).2.1 va false (s.opCtx key).2.2 = .ok { host := false, addr := a } ∧
    s.farFail { host := false, addr := a } = none ∧ 0x01000000 ≤ a ∧ s.copyTouch a = s ∧ (s.busRead .engine a 8).2 = .ok w.toNat

/-- The operation may write at every address of a list through TLB hits, and these are distinct places. -/
def State.Writable (s : State) (e key : Nat) (l : List W48) : Prop :=
  ∃ at' : W48 → Phys, (∀ va ∈ l, va.toNat % 8 = 0 ∧ s.tlbLook (e / 4) (s.opCtx key).1 (s.opCtx key).2.1 va true (s.opCtx key).2.2 = .ok (at' va) ∧
    s.farFail (at' va) = none) ∧ (l.map at').Nodup

/-- A fresh operation at the top of engine e that `is` describes: its commit buffer is empty, and no engine drains (R164). -/
def State.KernelStarts (s : State) (e : Nat) (v : Serv) (is : OpRec → Bool) : Prop :=
  s.top e = some v ∧ s.fresh e v = true ∧ is (s.opRec v.key) = true ∧ v.cbuf = [] ∧ (∀ d, ∀ x ∈ (s.eng d).servs, x.draining = false)

/-- The kernel has ended: its words stand in the commit buffer in the order written, its posted words are ready, and nothing else has changed. -/
def KernelEnds (s u : State) (e : Nat) (v : Serv) (posts : Tab W48) (ws : List (W48 × W48)) : Prop :=
  (∃ v', u.top e = some v' ∧ v'.ended = true ∧ v'.posted = posts ∧ v' = { v with cbuf := v'.cbuf, seq := v'.seq, posted := posts, ended := true } ∧
    v'.cbuf.map (fun c => (c.va, c.val)) = ws) ∧ (u.eng e).servs.tail = (s.eng e).servs.tail ∧
  EngsKept s u e ∧ QuietRegs s u [] ∧ MemKept s u ∧ u.rest = { s.rest with engs := u.engs, perf := u.perf }

/-- Pointer word w names the address a, with REL where it is allowed (R194). -/
def KEnv.Points (x : KEnv) (rel : Bool) (w : W64) (a : W48) : Prop :=
  fld w 62 48 = 0 ∧ if bit w 63 then rel = true ∧ x.slot = true ∧ a = w.setWidth 48 + BitVec.ofNat 48 (x.w0.toNat % 2 ^ 20) else a = w.setWidth 48 ∧ a ≠ 0

/-- The pointer words of the coefficient sets A and B choose the set at cs (R186). -/
def KEnv.Chooses (x : KEnv) (wa wb : W64) (cs : W48) : Prop :=
  ∃ ca, x.Points false wa ca ∧ ((wb = 0 ∧ x.setB = false ∧ cs = ca) ∨ ∃ cb, x.Points false wb cb ∧ cs = if x.setB then cb else ca)

/-- The STAT word that a run leaves, and whether it is written (R197). -/
def statWrite (va : W48) (old : W64) (o : Noted) : List (W48 × W48) :=
  let w : W48 := old.setWidth 48
  let bits := w.toNat % 64 ||| (o.bits ||| b2n (o.sats > 0))
  let cnt := min (fld w 31 16 + o.sats) 65535
  if bits = w.toNat % 64 ∧ cnt = fld w 31 16 then [] else [(va, BitVec.ofNat 48 (bits + cnt * 65536))]

/-- A run that only reads gives a, and leaves nothing but counts of events. -/
def State.Reads {α : Type} (s : State) (k : K α) (a : α) : Prop :=
  ∃ s1, k.run s = (some a, s1) ∧ s1.rest = { s.rest with perf := s1.perf } ∧ QuietRegs s s1 []

/-- The words a profile kernel writes in a sample from p to q, in their order (R218, R226, Table 7.2): the reference, the velocity output where there is one, and the
status and profile words. -/
def KEnv.profWrites (x : KEnv) (i : ProfIn) (p q : Prof) : List (W48 × W48) :=
  let ref := w48 (rndDiv q.p 65536)
  let vel := if p.m1 = 0 && i.enable then 0 else (lane24 (rndDiv (ref - w48 (rndDiv p.p 65536)).toInt (2 ^ i.shift))).val
  (i.out, ref) :: i.ovel.toList.map (fun a => (a, laneWord vel)) ++ (q.save (q.pstat i)).map fun w => (x.word w.1, w.2)

/-- The places a profile kernel may write. -/
def KEnv.profPlaces (x : KEnv) (i : ProfIn) : List W48 := i.out :: i.ovel.toList ++ (List.range 28).map fun n => x.word (36 + n)

/-! ### Sinter -/

/-- A failure of class k was counted (R487, R498). -/
def Counted (s u : State) (k : Nat) : Prop := u.f (R.sinClass_DET k) 15 0 = min (s.f (R.sinClass_DET k) 15 0 + 1) 65535

/-- Sinter is LATCHED by class k: the class is counted, both outputs are low, and every axis under Sinter is in STO (R482, R487). -/
def Latched (s u : State) (k : Nat) : Prop :=
  u.sin.state = 2 ∧ u.sin.hs = false ∧ u.sin.ls = false ∧ u.sin.test = none ∧ Counted s u k ∧ u.b (R.IRQ_STAT P.sinCore) 9 = true ∧
  (∀ a ∈ s.allAxes, (u.sax a).sto = true) ∧ MemKept s u

/-- The registers that stopping axes may change, with those of page p and Sinter's core page. -/
def sinRegs (p k : Nat) : List Nat := R.sinClass_DET k :: irqRegs p ++ irqRegs P.sinCore ++ (List.range 4).map fun n => R.IRQ_STAT (P.sinAxis n)

/-- The registers that good events of the cells' channels may change: a level that falls is shown, with its cause (R466). -/
def passRegs : List Nat := (List.range 8).flatMap fun c => irqRegs (cellPage c)

/-- A scrub pass after s has been a good event of each cell and has left the other fault disposition channels as they were (R466). -/
def State.GoodPasses (u s : State) : Prop :=
  (∀ c, c < 8 → u.fdCh 5 c = (({ s with now := u.now } : State).fdGood 5 c).fdCh 5 c) ∧ ∀ k ch, k ≠ 5 → ch < 0x1000 → u.fdCh k ch = s.fdCh k ch

end Sys2Proof.Machine
end

