-- ==== Sys2Proof/Certificates/Slice0/Obligations.lean ====
section
/-! DEFINITION. The statements for the provers. Each docstring names the rules of spec/ it formalises, or says where it states a choice of the model. -/

open Sys2Proof Sys2Proof.Machine

/-- With commands waiting, step runs exec on the front one with the queue's rest; with none it leaves the state (the model's choice, log entry 2). -/
def Obligations.StepRunsTheFrontCommand : Prop :=
  (∀ s c r, s.pending = c :: r → step s = exec c { s with pending := r }) ∧ (∀ s, s.pending = [] → step s = .next s)

/-- The state after reset: every register at the Reset column of its table (R9), which is resetOf, but for the values log entry 6 names; every lockable page
locked (R63), no page unlocked or with a commit pending (R59), memory 0 (R505), the queue empty. -/
def Obligations.ResetState : Prop :=
  (∀ a, State.reset.rd a = resetOf a ∧ State.reset.rdStage a = resetOf a) ∧ (∀ a, State.reset.byte a = 0) ∧
  (∀ p, State.reset.page p = {}) ∧ State.reset.pending = [] ∧
  (∀ k p, State.reset.locked k p = decide (pageCaps k / 4 % 2 = 1)) ∧
  (∀ c, c < 8 → resetOf (R.cell_REMAP c) = BitVec.ofNat 32 c)

/-- The invariant of StepKeepsCanonicalForm holds after reset. -/
def Obligations.ResetIsCanonical : Prop := State.reset.Canonical

/-- A register write is performed exactly where State.takes says so: the gate lets it through there and nowhere else. Where it does not, no register is changed
but the record of a failed access and its counts (ERR_ADDR, ERR_INFO, PCIE_ERR.UR, RST_STAT.ISO) and, on a locked page, the cause LOCK_VIOL (R40, R64, R522, R531);
memory and everything else stays. -/
def Obligations.GateOfRegisterWrites : Prop :=
  (∀ (s : State) t m a v (f : State → State), s.takes m a = true →
    s.gated t m a v f = f (s.entered t m a v) ∧ Frame s (s.entered t m a v) [] s.rest ∧
    (∀ p, p ≠ a / 0x1000 ∨ a % 0x1000 = 0x28 → (s.entered t m a v).page p = s.page p) ∧
    (a % 0x1000 ≠ 0x28 → ((s.entered t m a v).page (a / 0x1000)).key1 = none)) ∧
  (∀ (s : State) t m a v (f : State → State), s.takes m a = false →
    Frame s (s.gated t m a v f) ([R.chip_ERR_ADDR, R.chip_ERR_INFO, R.pcie_PCIE_ERR, R.reset_RST_STAT] ++ irqRegs (a / 0x1000)) s.rest) ∧
  (∀ (s : State) t m a v (f : State → State) k n, s.barOpen m = true → pageKind (a / 0x1000) = some (k, n) → s.rst.safeBoot = false →
    s.pageInReset k n = false → s.pairDiscards m = false → s.locked k (a / 0x1000) = true → a % 0x1000 ≠ 0x28 → a % 0x1000 ≠ 0x10 →
    (s.gated t m a v f).b (R.IRQ_STAT (a / 0x1000)) 3 = true ∧ (s.gated t m a v f).b R.chip_ERR_INFO 0 = true)

/-- COMMIT_GO, COMMIT_ARM, COMMIT_DISCARD and COMMIT_CONFLICT: a request captures the stage and starts its check; one that comes while a check is in progress or a
commit is pending is rejected BUSY; DISCARD copies the active values into the stage; two requests in one write are rejected RANGE, naming COMMIT. -/
def Obligations.CommitRequests : Prop :=
  (∀ s t m (p : Fin 2048) imm, s.takes m (R.COMMIT p) = true → staged p = true → (s.page p).check = none → (s.page p).pend = none →
    Answers (.commitGo t m p imm) s fun u =>
      (u.page p).check = some { arm := false, imm := imm, since := u.now } ∧ (u.page p).checkLatch = ofPage s.stage p ∧ (u.page p).armed = false ∧
      (u.page p).pend = none ∧ (∀ q : Nat, q ≠ p → u.page q = s.page q) ∧ Frame s u [] s.rest) ∧
  (∀ s t m (p : Fin 2048), s.takes m (R.COMMIT p) = true → staged p = true → (s.page p).check = none → (s.page p).pend = none →
    Answers (.commitArm t m p) s fun u =>
      (u.page p).check = some { arm := true, imm := false, since := u.now } ∧ (u.page p).checkLatch = ofPage s.stage p ∧
      (u.page p).armed = (s.page p).armed ∧ (u.page p).pend = none ∧ (∀ q : Nat, q ≠ p → u.page q = s.page q) ∧ Frame s u [] s.rest) ∧
  (∀ s t m (p : Fin 2048) imm, s.takes m (R.COMMIT p) = true → staged p = true → ((s.page p).check.isSome || (s.page p).pend.isSome) = true →
    Answers (.commitGo t m p imm) s fun u =>
      u.f (R.COMMIT_STAT p) 3 0 = 4 ∧ u.f (R.COMMIT_STAT p) 15 8 = 1 ∧ u.f (R.COMMIT_STAT p) 25 16 = 0 ∧
      u.f (R.COMMIT_STAT p) 31 28 = s.f (R.COMMIT_STAT p) 31 28 ∧ u.b (R.IRQ_STAT p) 1 = true ∧
      (u.page p).check = (s.page p).check ∧ (u.page p).pend = (s.page p).pend ∧ (u.page p).unlocked = false ∧
      (∀ q : Nat, q ≠ p → u.page q = s.page q) ∧ Frame s u (R.COMMIT_STAT p :: irqRegs p) s.rest) ∧
  (∀ s t m (p : Fin 2048), s.takes m (R.COMMIT p) = true → staged p = true →
    Answers (.commitDiscard t m p) s fun u =>
      (∀ a msk, a / 0x1000 = p → stMask a = some msk → u.rdStage a &&& msk = s.rd a &&& msk) ∧
      (∀ a, a / 0x1000 ≠ p → u.rdStage a = s.rdStage a) ∧ (u.page p).armed = false ∧ (u.page p).pend = (s.page p).pend ∧
      (u.page p).check = (s.page p).check ∧ ((s.page p).armed = true → u.rd (R.COMMIT_STAT p) = BitVec.ofNat 32 (s.f (R.COMMIT_STAT p) 31 28 * 2 ^ 28)) ∧
      ((s.page p).armed = false → u.rd (R.COMMIT_STAT p) = s.rd (R.COMMIT_STAT p)) ∧
      (∀ q : Nat, q ≠ p → u.page q = s.page q) ∧ Frame s u [R.COMMIT_STAT p] { s.rest with stage := u.stage }) ∧
  (∀ s t m (p : Fin 2048) val, s.takes m (R.COMMIT p) = true → staged p = true → 2 ≤ b2n (bit val 0) + b2n (bit val 1) + b2n (bit val 2) →
    Answers (.commitConflict t m p val) s fun u =>
      u.f (R.COMMIT_STAT p) 3 0 = 4 ∧ u.f (R.COMMIT_STAT p) 15 8 = 2 ∧ u.f (R.COMMIT_STAT p) 25 16 = 7 ∧ u.b (R.IRQ_STAT p) 1 = true ∧
      (u.page p).check = (s.page p).check ∧ (u.page p).pend = (s.page p).pend ∧ (u.page p).armed = (s.page p).armed ∧
      (∀ q : Nat, q ≠ p → u.page q = s.page q) ∧ Frame s u (R.COMMIT_STAT p :: irqRegs p) s.rest)

/-- COMMIT_CHECK_END: a check that passes leaves the commit PENDING or the page ARMED with the captured stage, one that fails is REJECTED with its reason and
field and locks the page; the stage and every active value stay (R50, R56, R61, R66). Which check fails is State.checkPage; ARM is judged with the pages armed already (R57). -/
def Obligations.CommitCheckEnd : Prop :=
  (∀ s t (p : Fin 2048) c, (s.page p).check = some c → c.arm = false →
    (s.tick t).checkPage ((s.tick t).withLatch p (s.page p).checkLatch) p c.imm = none →
    Answers (.commitCheckEnd t p) s fun u =>
      (u.page p).check = none ∧ (u.page p).pend.isSome = true ∧ (u.page p).latch = (s.page p).checkLatch ∧
      u.rd (R.COMMIT_STAT p) = BitVec.ofNat 32 (1 + s.f (R.COMMIT_STAT p) 31 28 * 2 ^ 28) ∧
      (∀ q : Nat, q ≠ p → u.page q = s.page q) ∧ Frame s u [R.COMMIT_STAT p] s.rest) ∧
  (∀ s t (p : Fin 2048) c, (s.page p).check = some c → c.arm = true →
    (s.tick t).checkPage (((s.tick t).armedView p).withLatch p (s.page p).checkLatch) p c.imm = none →
    Answers (.commitCheckEnd t p) s fun u =>
      (u.page p).check = none ∧ (u.page p).armed = true ∧ (u.page p).armLatch = (s.page p).checkLatch ∧ (u.page p).pend = (s.page p).pend ∧
      u.rd (R.COMMIT_STAT p) = BitVec.ofNat 32 (2 + s.f (R.COMMIT_STAT p) 31 28 * 2 ^ 28) ∧
      (∀ q : Nat, q ≠ p → u.page q = s.page q) ∧ Frame s u [R.COMMIT_STAT p] s.rest) ∧
  (∀ s t (p : Fin 2048) c r, (s.page p).check = some c →
    (s.tick t).checkPage ((if c.arm then (s.tick t).armedView p else s.tick t).withLatch p (s.page p).checkLatch) p c.imm = some r →
    Answers (.commitCheckEnd t p) s fun u =>
      (u.page p).check = none ∧ (c.arm = true → (u.page p).armed = false) ∧ (u.page p).pend = (s.page p).pend ∧ (u.page p).unlocked = false ∧
      u.rd (R.COMMIT_STAT p) = BitVec.ofNat 32 (4 + r.1 * 256 + r.2 * 65536 + s.f (R.COMMIT_STAT p) 31 28 * 2 ^ 28) ∧
      u.b (R.IRQ_STAT p) 1 = true ∧ (∀ q : Nat, q ≠ p → u.page q = s.page q) ∧ Frame s u (R.COMMIT_STAT p :: irqRegs p) s.rest)

/-- What the state v is in which the block of page p acts on a commit that takes effect in s: the latched values are active together, COMMIT_STAT reads DONE with SEQ advanced,
COMMIT_DONE is raised, nothing is pending and the page is locked again (R52, R54, R66). -/
def Sys2Proof.Machine.Activated (s v : State) (p : Nat) : Prop :=
  (∀ a msk, a / 0x1000 = p → stMask a = some msk → v.rd a = (s.rd a &&& ~~~ msk) ||| (Tab.get (s.page p).latch a (resetOf a) &&& msk)) ∧
  v.f (R.COMMIT_STAT p) 3 0 = 3 ∧ v.f (R.COMMIT_STAT p) 31 28 = (s.f (R.COMMIT_STAT p) 31 28 + 1) % 16 ∧ v.b (R.IRQ_STAT p) 0 = true ∧
  (v.page p).pend = none ∧ (v.page p).unlocked = false ∧ (∀ q, q ≠ p → v.page q = s.page q) ∧
  (∀ a, a / 0x1000 ≠ p → (∀ e ∈ (s.page p).latch, e.1 ≠ a) → a ∉ irqRegs p → v.rd a = s.rd a) ∧ v.rest = s.rest

/-- COMMIT_TAKE_EFFECT, COMMIT_IMMEDIATE and GCOMMIT_GO: a pending commit that is due (at the first boundary 128 engine cycles or more after GO), or immediate, takes
effect: its values become active together and the block acts on them. With no page armed GCOMMIT_GO is rejected EMPTY and changes nothing else; with every page of the group
passing, all become PENDING with their captured stage and GCOMMIT_STAT reads PENDING; with one failing, all are disarmed (R52, R54, R61, R62). -/
def Obligations.CommitsTakeEffect : Prop :=
  (∀ s t (p : Fin 2048) w k n, (s.page p).pend = some w → pageKind p = some (k, n) →
    (((s.tick t).cycleDue && w.due (s.tick t).now) || (s.cycling && w.due s.tau)) = true →
    Answers (.commitTakeEffect t p) s fun u =>
      let s' := if k = .perfCell then (s.tick t).slotsAll else s.tick t
      ∃ v, Activated s' v p ∧ (w.group = false → u = v.commitEffect s' k n) ∧
        (u = v.commitEffect s' k n ∨ u = (v.commitEffect s' k n).wr R.chip_GCOMMIT_STAT 3)) ∧
  (∀ s t (p : Fin 2048) w k n, (s.page p).pend = some w → pageKind p = some (k, n) → w.imm = true →
    Answers (.commitImmediate t p) s fun u =>
      let s' := if k = .perfCell then (s.tick t).slotsAll else s.tick t
      ∃ v, Activated s' v p ∧ (w.group = false → u = v.commitEffect s' k n) ∧
        (u = v.commitEffect s' k n ∨ u = (v.commitEffect s' k n).wr R.chip_GCOMMIT_STAT 3)) ∧
  (∀ (w : Pend) x, w.due x = (!w.imm && decide (w.since + 128 * 16 ≤ x))) ∧
  (∀ s t m imm, s.takes m R.chip_GCOMMIT = true → s.armedPages = [] →
    Answers (.gcommitGo t m imm) s fun u => u.rd R.chip_GCOMMIT_STAT = 0xB04 ∧ Frame s u [R.chip_GCOMMIT_STAT] s.rest) ∧
  (∀ s t m imm, s.takes m R.chip_GCOMMIT = true → s.armedPages ≠ [] → Tab.sortedFrom 0 s.pages = true →
    (∀ r ∈ (s.entered t m R.chip_GCOMMIT (if imm then 0x11 else 1)).groupChecks s.armedPages imm, r.2 = none) →
    Answers (.gcommitGo t m imm) s fun u => u.rd R.chip_GCOMMIT_STAT = 1 ∧
      (∀ p ∈ s.armedPages, (u.page p).armed = false ∧ (u.page p).latch = (s.page p).armLatch ∧ (∃ w, (u.page p).pend = some w ∧ w.group = true) ∧
        u.f (R.COMMIT_STAT p) 3 0 = 1) ∧ u.rest = s.rest ∧ MemKept s u) ∧
  (∀ s t m imm, s.takes m R.chip_GCOMMIT = true → Tab.sortedFrom 0 s.pages = true →
    (∃ r ∈ (s.entered t m R.chip_GCOMMIT (if imm then 0x11 else 1)).groupChecks s.armedPages imm, r.2 ≠ none) →
    Answers (.gcommitGo t m imm) s fun u => u.f R.chip_GCOMMIT_STAT 3 0 = 4 ∧
      (∀ p ∈ s.armedPages, (u.page p).armed = false ∧ (u.page p).pend = (s.page p).pend ∧ u.f (R.COMMIT_STAT p) 3 0 = 4) ∧ u.rest = s.rest ∧ MemKept s u)

/-- LOCK_KEY1, LOCK_KEY2, LOCK_OTHER_VALUE and UNLOCK_TIMEOUT: the two keys in a row unlock a lockable page within 65,536 engine cycles, and anything else leaves it locked
(R65, R66, R641; R494 for the pages of Sinter, in State.mayUnlock). -/
def Obligations.WriteLock : Prop :=
  (∀ s t m (p : Fin 2048), s.takes m (R.LOCK p) = true → lockable p = true →
    Answers (.lockKey1 t m p) s fun u => (u.page p).key1 = some u.now ∧ (u.page p).unlocked = (s.page p).unlocked ∧
      (∀ q : Nat, q ≠ p → u.page q = s.page q) ∧ Frame s u [] s.rest) ∧
  (∀ s t m (p : Fin 2048) k, s.takes m (R.LOCK p) = true → lockable p = true → (s.page p).key1 = some k →
    Answers (.lockKey2 t m p) s fun u => (u.page p).key1 = none ∧
      ((u.page p).unlocked = true ↔ s.mayUnlock p = true ∧ (s.tick t).now - k ≤ 65536 * 16) ∧
      (∀ q : Nat, q ≠ p → u.page q = s.page q) ∧ Frame s u [] s.rest) ∧
  (∀ s t m (p : Fin 2048), s.takes m (R.LOCK p) = true → lockable p = true → (s.page p).key1 = none →
    Answers (.lockKey2 t m p) s fun u => (u.page p).unlocked = false ∧ (∀ q : Nat, q ≠ p → u.page q = s.page q) ∧ Frame s u [] s.rest) ∧
  (∀ s t m (p : Fin 2048) val, s.takes m (R.LOCK p) = true → lockable p = true → val ≠ 0xA5C3 → val ≠ 0x3C5A →
    Answers (.lockOtherValue t m p val) s fun u => (u.page p).key1 = none ∧ (u.page p).unlocked = false ∧
      (∀ q : Nat, q ≠ p → u.page q = s.page q) ∧ Frame s u [] s.rest) ∧
  (∀ s t (p : Fin 2048) k, (s.page p).key1 = some k → 65536 * 16 < (s.tick t).now - k →
    Answers (.unlockTimeout t p) s fun u => (u.page p).key1 = none ∧ (u.page p).unlocked = (s.page p).unlocked ∧
      (∀ q : Nat, q ≠ p → u.page q = s.page q) ∧ Frame s u [] s.rest) ∧
  (∀ s t m (p : Fin 2048), s.takes m (R.LOCK p) = true → lockable p = false →
    Answers (.lockKey2 t m p) s fun u => (∀ q : Nat, u.page q = s.page q) ∧ Frame s u [] s.rest)

/-- IRQ_SET, and the commands that clear a record: IRQ_SET sets the bits the page defines as if hardware had; writing 1 to VALID of ERR_INFO, TRAP_STAT or FLT_INFO clears VALID and
the count, unless hardware set VALID in the same engine cycle (R12); a write of ECC_STAT clears both counts but for
what hardware counted in the same engine cycle. -/
def Obligations.CausesAndRecords : Prop :=
  (∀ s t m (p : Fin 2048) bits k n, s.takes m (p * 0x1000 + 0x18) = true → pageKind p = some (k, n) →
    Answers (.irqSet t m p bits) s fun u => u.rd (R.IRQ_STAT p) = s.rd (R.IRQ_STAT p) ||| (bits &&& BitVec.ofNat 32 (pageIrqMask k)) ∧
      Frame s u (irqRegs p) s.rest) ∧
  (∀ s t m, s.takes m R.chip_ERR_INFO = true → (s.tick t).w1cBits R.chip_ERR_INFO 1 = 1 →
    Answers (.errInfoClear t m) s fun u => u.b R.chip_ERR_INFO 0 = false ∧ u.f R.chip_ERR_INFO 15 8 = 0 ∧ u.f R.chip_ERR_INFO 7 1 = s.f R.chip_ERR_INFO 7 1 ∧
      Frame s u [R.chip_ERR_INFO] s.rest) ∧
  (∀ s t m (e : Fin 32), s.takes m (R.engine_TRAP_STAT e) = true → (s.tick t).w1cBits (R.engine_TRAP_STAT e) 1 = 1 →
    Answers (.trapStatClear t m e) s fun u => u.b (R.engine_TRAP_STAT e) 0 = false ∧ u.f (R.engine_TRAP_STAT e) 31 16 = 0 ∧
      u.f (R.engine_TRAP_STAT e) 15 1 = s.f (R.engine_TRAP_STAT e) 15 1 ∧ Frame s u [R.engine_TRAP_STAT e] s.rest) ∧
  (∀ s t m (e : Fin 32) bits, s.takes m (R.engine_ECC_STAT e) = true → bits ≠ 0 →
    Answers (.eccStatClear t m e bits) s fun u => u.rd (R.engine_ECC_STAT e) = (s.tick t).hwNoted (R.engine_ECC_STAT e) ∧ Frame s u [R.engine_ECC_STAT e] s.rest) ∧
  (∀ s t m (c : Fin 8), s.takes m (R.xlCell_FLT_INFO c) = true → (s.tick t).w1cBits (R.xlCell_FLT_INFO c) 1 = 1 →
    Answers (.fltInfoClear t m c) s fun u => u.b (R.xlCell_FLT_INFO c) 0 = false ∧ u.f (R.xlCell_FLT_OP c) 31 24 = 0 ∧
      u.f (R.xlCell_FLT_OP c) 23 0 = s.f (R.xlCell_FLT_OP c) 23 0 ∧ Frame s u [R.xlCell_FLT_INFO c, R.xlCell_FLT_OP c] s.rest) ∧
  (∀ s t m, s.takes m R.chip_ERR_INFO = true → (s.tick t).w1cBits R.chip_ERR_INFO 1 = 0 →
    Answers (.errInfoClear t m) s fun u => Frame s u [] s.rest)

/-- LO_READ_SHADOW, HI_READ, ECYC_W0_READ and NOW_NS_LO_READ: a read of a low half answers the live value and captures what goes with it in a shadow of the master;
a read of a captured half answers the shadow and releases it, one with no shadow held the live value (R45, R397, R601). Shadows are kept per pair, the model's choice
(log entry 12). State.beforeRead brings counters that are kept lazily up to date. -/
def Obligations.ShadowedReads : Prop :=
  (∀ (s : State) t m (a : BitVec 25), s.barOpen m = true → (s.readGate m a.toNat).2 = true → captures a.toNat ≠ [] →
    (((s.tick t).beforeRead a.toNat).shadow m a.toNat).find? (·.1 = a.toNat) = none →
    Answers (.loReadShadow t m a) s fun u =>
      let r := (s.tick t).beforeRead a.toNat
      u.out = .readData m a.toNat ((r.regRead a.toNat).setWidth 64) :: r.out ∧
      (∀ b ∈ captures a.toNat, (u.shadow m a.toNat).find? (·.1 = b) = some (b, r.regRead b)) ∧ u.regs = r.regs ∧ u.rest = r.rest) ∧
  (∀ (s : State) t m (a : BitVec 25) v, s.barOpen m = true → (s.readGate m a.toNat).2 = true → 4 ≤ a.toNat → captures (a.toNat - 4) ≠ [] →
    (((s.tick t).beforeRead a.toNat).shadow m a.toNat).find? (·.1 = a.toNat) = some (a.toNat, v) →
    Answers (.hiRead t m a) s fun u =>
      let r := (s.tick t).beforeRead a.toNat
      u.out = .readData m a.toNat (v.setWidth 64) :: r.out ∧ (u.shadow m a.toNat).find? (·.1 = a.toNat) = none ∧ u.regs = r.regs ∧ u.rest = r.rest) ∧
  (∀ (s : State) t m (a : BitVec 25), s.barOpen m = true → (s.readGate m a.toNat).2 = true → 4 ≤ a.toNat → captures (a.toNat - 4) ≠ [] → captures a.toNat = [] →
    (((s.tick t).beforeRead a.toNat).shadow m a.toNat).find? (·.1 = a.toNat) = none →
    Answers (.hiRead t m a) s fun u =>
      let r := (s.tick t).beforeRead a.toNat
      u.out = .readData m a.toNat ((r.regRead a.toNat).setWidth 64) :: r.out ∧ u.regs = r.regs ∧ u.rest = r.rest) ∧
  (∀ (s : State) t m, s.barOpen m = true → (s.readGate m R.invarCore_NOW_NS_LO).2 = true → s.shadow m R.invarCore_NOW_NS_LO = [] →
    Answers (.nowNsLoRead t m) s fun u =>
      u.out = .readData m R.invarCore_NOW_NS_LO ((half48 (s.tick t).nsNow 0).setWidth 64) :: s.out ∧
      (u.shadow m R.invarCore_NOW_NS_LO).find? (·.1 = R.invarCore_NOW_NS_HI) = some (R.invarCore_NOW_NS_HI, half48 (s.tick t).nsNow 1) ∧
      (u.shadow m R.invarCore_NOW_NS_LO).map (·.1) = [R.invarCore_NOW_NS_HI, R.invarCore_NOW_SEC_LO, R.invarCore_NOW_SEC_HI, R.invarCore_NOW_FRAC] ∧
      u.regs = s.regs ∧ u.rest = s.rest) ∧
  (∀ (s : State) t m v, s.barOpen m = true → (s.readGate m R.invarCore_NOW_SEC_LO).2 = true →
    (s.shadow m R.invarCore_NOW_SEC_LO).find? (·.1 = R.invarCore_NOW_SEC_LO) = some (R.invarCore_NOW_SEC_LO, v) →
    Answers (.loReadShadow t m (BitVec.ofNat 25 R.invarCore_NOW_SEC_LO)) s fun u =>
      u.out = .readData m R.invarCore_NOW_SEC_LO (v.setWidth 64) :: s.out ∧
      (u.shadow m R.invarCore_NOW_SEC_LO) = (s.shadow m R.invarCore_NOW_SEC_LO).filter (·.1 ≠ R.invarCore_NOW_SEC_LO) ∧ u.regs = s.regs ∧ u.rest = s.rest) ∧
  (∀ (s : State) t m (e : Fin 32), s.barOpen m = true → (s.readGate m (R.perfCell_ECYC_W0 (e / 4) (e % 4))).2 = true →
    (((s.tick t).beforeRead (R.perfCell_ECYC_W0 (e / 4) (e % 4))).shadow m (R.perfCell_ECYC_W0 (e / 4) (e % 4))) = [] →
    Answers (.ecycW0Read t m e) s fun u =>
      let r := (s.tick t).beforeRead (R.perfCell_ECYC_W0 (e / 4) (e % 4))
      u.out = .readData m (R.perfCell_ECYC_W0 (e / 4) (e % 4)) ((BitVec.ofNat 32 (r.ecycOf e)).setWidth 64) :: r.out ∧
      u.shadow m (R.perfCell_ECYC_W0 (e / 4) (e % 4)) = [(R.perfCell_ECYC_W0 (e / 4) (e % 4) + 4, BitVec.ofNat 32 (r.ecycOf e / 2 ^ 32))] ∧
      u.regs = r.regs ∧ u.rest = r.rest)

/-- OPERATION_DISPATCH, PREEMPT_ACCEPT, SPILL_DONE and SPILL_READBACK_DONE: the head of a cell's ready list enters the idle engine of lowest index in the entry
state of R70, or asks for the engine of lowest priority; a pre-emption at depth 1 keeps the operation below, with two in service it waits for the spill of 44
locations, with three the operation at the top is re-fired; the spilled operation comes back to run (R70, R95 to R100, R155, R156). -/
def Obligations.DispatchAndPreemption : Prop :=
  (∀ (s : State) t (c : Fin 8) x e, s.cellInReset c = false → s.blockInReset 0x0F = false → s.lahar.cellWait = [] → (s.readyOf c).head? = some x →
    s.idleEngine c = some e → x.key ≠ runtimeKey → (x.again = true ∨ s.lastToken x.key + 6 ≤ ecyc (s.tick t).now) →
    Answers (.operationDispatch t c) s fun u =>
      (∃ v, (u.eng e).servs = [v] ∧ v.key = x.key ∧ v.prio = x.prio ∧ v.cbuf = [] ∧ v.posted = [] ∧ v.ended = false ∧
        v.bank = entryBank (s.opRec x.key) (x.key % 4096) (s.rd (R.cell_CTL_INIT c)) (s.opSt x.key).toks) ∧
      u.opSt x.key = { s.opSt x.key with phase := 2, eng := e, depth := 0 } ∧ (∀ k, k ≠ x.key → u.opSt k = s.opSt k) ∧
      u.readyOf c = (s.readyOf c).tail ∧ (∀ d, d ≠ c.val → u.readyOf d = s.readyOf d) ∧ EngsKept s u e ∧ QuietRegs s u [] ∧ MemKept s u ∧
      u.rest = { s.rest with engs := u.engs, perf := u.perf, lahar := u.lahar }) ∧
  (∀ (s : State) t (c : Fin 8) x e, s.cellInReset c = false → s.blockInReset 0x0F = false → s.lahar.cellWait = [] → (s.readyOf c).head? = some x →
    s.idleEngine c = none → s.victim c x.prio = some e →
    Answers (.operationDispatch t c) s fun u =>
      u.eng e = { s.eng e with preq := some x } ∧ u.readyOf c = (s.readyOf c).tail ∧ EngsKept s u e ∧
      Frame s u [] { s.rest with engs := u.engs, lahar := u.lahar }) ∧
  (∀ (s : State) t (e : Fin 32) x v, (s.eng e).preq = some x → (s.eng e).servs = [v] → v.bank.inSlot = false → (s.eng e).mode = 0 → x.key ≠ runtimeKey →
    Answers (.preemptAccept t e) s fun u =>
      (∃ w, (u.eng e).servs = [w, { v with bank := v.bank.breakHist }] ∧ w.key = x.key ∧ w.prio = x.prio ∧
        w.bank = entryBank (s.opRec x.key) (x.key % 4096) (s.rd (R.cell_CTL_INIT (e / 4))) (s.opSt x.key).toks) ∧
      (u.eng e).preq = none ∧ u.opSt x.key = { s.opSt x.key with phase := 2, eng := e, depth := 1 } ∧ EngsKept s u e ∧ QuietRegs s u [] ∧ MemKept s u ∧
      u.rest = { s.rest with engs := u.engs, perf := u.perf, lahar := u.lahar }) ∧
  (∀ (s : State) t (e : Fin 32) x v w, (s.eng e).preq = some x → (s.eng e).servs = [v, w] → v.bank.inSlot = false → (s.eng e).mode = 0 →
    Answers (.preemptAccept t e) s fun u =>
      (u.eng e).mode = 1 ∧ (u.eng e).servs = [{ v with bank := v.bank.breakHist }, w] ∧ (u.eng e).preq = some x ∧ EngsKept s u e ∧ QuietRegs s u [] ∧
      MemKept s u ∧ u.rest = { s.rest with engs := u.engs, perf := u.perf }) ∧
  (∀ (s : State) t (e : Fin 32) x v w y, (s.eng e).preq = some x → (s.eng e).servs = [v, w, y] → v.bank.inSlot = false → (s.eng e).mode = 0 →
    x.key ≠ runtimeKey → v.key ≠ runtimeKey → v.key ≠ x.key →
    Answers (.preemptAccept t e) s fun u =>
      (∃ z, (u.eng e).servs = [z, w, y] ∧ z.key = x.key) ∧ (u.opSt v.key).phase = 1 ∧ (u.opSt v.key).toks = (s.opSt v.key).toks ∧
      (∃ r ∈ u.readyOf (s.execCell (s.opRec v.key).cell), r.key = v.key ∧ r.again = true) ∧ EngsKept s u e ∧
      QuietRegs s u [R.cell_ABORT_CNT (s.execCell (s.opRec v.key).cell)] ∧ MemKept s u ∧
      u.rest = { s.rest with engs := u.engs, perf := u.perf, lahar := u.lahar }) ∧
  (∀ (s : State) t (e : Fin 32) x v w, (s.eng e).preq = some x → (s.eng e).servs = [v, w] → (s.eng e).mode = 1 → v.loads = [] → v.walks = [] →
    Answers (.spillDone t e) s fun u =>
      (∃ z, (u.eng e).servs = [z, v, w] ∧ z.key = x.key) ∧ (u.eng e).mode = 0 ∧ (u.eng e).preq = none ∧
      (∀ a, a < loc64 (s.spillAddr e) ∨ loc64 (s.spillAddr e) + 352 ≤ a → u.byte a = s.byte a) ∧ EngsKept s u e ∧ QuietRegs s u [] ∧
      u.rest = { s.rest with engs := u.engs, perf := u.perf, lahar := u.lahar, mem := u.mem, ecc := u.ecc }) ∧
  (∀ (s : State) t (e : Fin 32), (s.eng e).mode = 2 → s.spillBad e = false →
    Answers (.spillReadbackDone t e) s fun u =>
      (u.eng e).mode = 0 ∧ (u.eng e).servs = (s.eng e).servs ∧ (u.eng e).preq = (s.eng e).preq ∧ EngsKept s u e ∧ QuietRegs s u [] ∧ MemKept s u ∧
      u.rest = { s.rest with engs := u.engs, perf := u.perf })

/-- FAR_LOAD_RETURN, TABLE_WALK_DONE, OPERATION_END and OPERATION_COMPLETE: a returned load writes its register and is pending no more, unless a store of its
operation before it is still to be translated; a walk that ends with a leaf
lets its access go on; an operation that has ended drains, and completed it is released and its posted word reaches the arc it feeds (R88, R89, R131, R163, R552). -/
def Obligations.OperationLifetime : Prop :=
  (∀ (s : State) t (e d : Fin 32) data depth v l, s.depthWith e (fun v => !v.ghost && (v.mayReturn d).isSome) = some depth → s.servAt e depth = some v →
    v.mayReturn d = some l → (l.own.isSome = true ∨ l.at'.host = true) →
    Answers (.farLoadReturn t e d data) s fun u =>
      u.servAt e depth = some { v with loads := v.loads.erase l, bank := v.bank.land d (match l.own with
        | some y => y.2
        | none => data.setWidth 48) } ∧
      EngsKept s u e ∧ QuietRegs s u [] ∧ MemKept s u ∧ u.rest = { s.rest with engs := u.engs, perf := u.perf }) ∧
  (∀ (s : State) t (e : Fin 32) depth v w r p, s.depthWith e (fun v => !v.walks.isEmpty) = some depth → s.servAt e depth = some v → v.walks = w :: r →
    (s.walkFor (e / 4) (s.opCtx v.key).1 (s.opCtx v.key).2.1 w.va w.store (s.opCtx v.key).2.2 (!w.stale)).2 = .ok p → s.farFail p = none → w.store = false →
    Answers (.tableWalkDone t e) s fun u =>
      (∃ l, u.servAt e depth = some { v with walks := r, loads := v.loads ++ [l] } ∧ l.d = w.d ∧ l.at' = p) ∧ EngsKept s u e ∧ QuietRegs s u [] ∧ MemKept s u ∧
      u.rest = { s.rest with engs := u.engs, perf := u.perf, xl := u.xl }) ∧
  (∀ (s : State) t (e : Fin 32) depth v, (s.tick t).depthWith e ((s.tick t).drainReady e) = some depth → s.servAt e depth = some v → v.key ≠ runtimeKey →
    Answers (.operationEnd t e) s fun u =>
      u.servAt e depth = some { v with ended := true, draining := true } ∧ u.opSt v.key = { s.opSt v.key with phase := 3 } ∧ EngsKept s u e ∧
      Frame s u [] { s.rest with engs := u.engs, lahar := u.lahar }) ∧
  (∀ (s : State) t (e : Fin 32) v, (s.eng e).servs = [v] → v.draining = true → v.cbuf = [] → v.key ≠ runtimeKey → v.key / 4096 ≠ s.bankNo →
    (s.opRec v.key).flow = none → s.lahar.cellWait = [] →
    Answers (.operationComplete t e) s fun u =>
      (u.eng e).servs = [] ∧ u.opSt v.key = { aborts := (s.opSt v.key).aborts, code := (s.opSt v.key).code } ∧ (∀ i, u.tok i = s.tok i) ∧ MemKept s u ∧ EngsKept s u e ∧
      QuietRegs s u (R.lahar_LOAD_STAT :: irqRegs (enginePage e)) ∧
      u.rest = { s.rest with engs := u.engs, perf := u.perf, lahar := u.lahar, fd := u.fd }) ∧
  (∀ (s : State) t (e : Fin 32) v g i a, (s.eng e).servs = [v] → v.draining = true → v.cbuf = [] → v.key = opKey s.bankNo (v.key % 4096) → s.graph = some g →
    g.arcs[i]? = some a → a.kind = 0 → a.src = v.key % 4096 → a.viaDl = false → s.tok i = none → (s.opSt (opKey s.bankNo a.dstOp)).phase ≠ 0 →
    a.dstOp ≠ v.key % 4096 →
    Answers (.operationComplete t e) s fun u =>
      (u.eng e).servs = [] ∧ (∃ x, u.tok i = some x ∧ x.word = Tab.get v.posted a.srcPort 0 ∧ x.at' = (s.opSt v.key).pair) ∧ MemKept s u ∧ EngsKept s u e)

/-- REFIRE, DOORBELL, FLOW_EN_WRITE, LOAD, LOAD_END, ACTIVATE, LOAD_CTL_CLEAR and GRAPH_SWITCH: a held or quarantined operation with tokens goes back into its ready list;
a doorbell's token goes to its arc, or with the pair waits for the boundary; a load reads an image into the inactive bank, and its check says what LOAD_STAT reads; the switch
takes place at the first boundary 128 engine cycles or more after ACTIVATE, on a standby with the agreement record of that boundary (R153, R166, R175 to R178, R430). -/
def Obligations.LaharHostCommands : Prop :=
  (∀ (s : State) t m (op : BitVec 12) g, s.takes m R.lahar_REFIRE = true → s.graph = some g → op.toNat < g.ops.length →
    ((s.opSt (opKey s.bankNo op.toNat)).phase = 4 ∨ (s.opSt (opKey s.bankNo op.toNat)).phase = 5) →
    s.cellRetired (s.execCell (s.opRec (opKey s.bankNo op.toNat)).cell) = false → (s.opSt (opKey s.bankNo op.toNat)).toks ≠ [] →
    Answers (.refire t m op) s fun u =>
      let k := opKey s.bankNo op.toNat
      (u.opSt k).phase = 1 ∧ (u.opSt k).toks = (s.opSt k).toks ∧ (∀ j, j ≠ k → u.opSt j = s.opSt j) ∧
      u.readyOf (s.execCell (s.opRec k).cell) =
        readyHead { key := k, prio := (s.opRec k).prio, cyc := ecyc u.now, again := true } (s.readyOf (s.execCell (s.opRec k).cell)) ∧
      Frame s u [] { s.rest with lahar := u.lahar }) ∧
  (∀ (s : State) t m (n : Byte), s.takes m R.lahar_DOORBELL = true → s.pairMode = true → s.pair.claim = true →
    Answers (.doorbell t m n) s fun u =>
      u.lahar = { s.lahar with bells := s.lahar.bells ++ [{ kind := 5, src := n.setWidth 12, word := (s.rd R.lahar_DB_VALUE).setWidth 48 }] } ∧
      Frame s u [] { s.rest with lahar := u.lahar }) ∧
  (∀ (s : State) t m (n : Byte) i g a, s.takes m R.lahar_DOORBELL = true → s.pairMode = false → s.graph = some g → s.arcsOf 5 n.toNat = [i] → g.arcs[i]? = some a →
    s.tok i = none → (s.opSt (opKey s.bankNo a.dstOp)).phase ≠ 0 →
    Answers (.doorbell t m n) s fun u =>
      (∃ x, u.tok i = some x ∧ x.word = (s.rd R.lahar_DB_VALUE).setWidth 48) ∧ (∀ j, j ≠ i → u.tok j = s.tok j) ∧ Frame s u [] { s.rest with lahar := u.lahar }) ∧
  (∀ (s : State) t m (i : Fin 16) val, s.takes m (R.lahar_FLOW_EN i) = true → s.pairMode = false →
    Answers (.flowEnWrite t m i val) s fun u => u.rd (R.lahar_FLOW_EN i) = val ∧ Frame s u [R.lahar_FLOW_EN i] { s.rest with lahar := u.lahar }) ∧
  (∀ (s : State) t m (i : Fin 16) val, s.takes m (R.lahar_FLOW_EN i) = true → s.pairMode = true →
    Answers (.flowEnWrite t m i val) s fun u => Tab.get u.lahar.flowPend i none = some val ∧ Frame s u [] { s.rest with lahar := u.lahar }) ∧
  (∀ (s : State) t m, s.takes m R.lahar_LOAD_CTL = true → s.loadState ≠ 1 → s.loadState ≠ 4 →
    Answers (.load t m) s fun u =>
      u.loadState = 1 ∧ u.graphOf (1 - s.bankNo) = none ∧ u.graphOf s.bankNo = s.graphOf s.bankNo ∧
      u.lahar.snap = some (s.f R.lahar_LOAD_ADDR 22 12 * 4096, s.mem) ∧ Frame s u [R.lahar_LOAD_STAT] { s.rest with lahar := u.lahar, xl := u.xl }) ∧
  (∀ (s : State) t m, s.takes m R.lahar_LOAD_CTL = true → (s.loadState = 1 ∨ s.loadState = 4) →
    Answers (.load t m) s fun u => u.f R.lahar_LOAD_STAT 15 8 = 8 ∧ u.loadState = s.loadState ∧ u.b (R.IRQ_STAT P.lahar) 9 = true ∧
      Frame s u (R.lahar_LOAD_STAT :: irqRegs P.lahar) s.rest) ∧
  (∀ (s : State) t off n, s.lahar.snap = some (off, s.mem) → s.ecc = [] → n = min (min (s.le (sharedAddr off + 8) 4) 2097152) (0x800000 - off) →
    Img.check (s.bytes (sharedAddr off) (max n 128)) off false = none →
    Answers (.loadEnd t) s fun u =>
      u.graphOf (1 - s.bankNo) = some (Img.graph (s.bytes (sharedAddr off) (max n 128))) ∧ u.rd R.lahar_LOAD_STAT = 2 ∧ u.b (R.IRQ_STAT P.lahar) 8 = true ∧
      u.lahar.snap = none ∧ Frame s u (R.lahar_LOAD_STAT :: irqRegs P.lahar) { s.rest with lahar := u.lahar }) ∧
  (∀ (s : State) t off n code idx, s.lahar.snap = some (off, s.mem) → s.ecc = [] → n = min (min (s.le (sharedAddr off + 8) 4) 2097152) (0x800000 - off) →
    Img.check (s.bytes (sharedAddr off) (max n 128)) off false = some (code, idx) →
    Answers (.loadEnd t) s fun u =>
      u.lahar = { s.lahar with snap := none } ∧ u.rd R.lahar_LOAD_STAT = BitVec.ofNat 32 (3 + code * 256 + idx * 65536) ∧ u.b (R.IRQ_STAT P.lahar) 9 = true ∧
      Frame s u (R.lahar_LOAD_STAT :: irqRegs P.lahar) { s.rest with lahar := u.lahar }) ∧
  (∀ (s : State) t m, s.takes m R.lahar_LOAD_CTL = true → (s.loadState = 0 ∨ s.loadState = 2) →
    Answers (.activate t m) s fun u => u.loadState = 4 ∧ u.lahar = { s.lahar with act := some u.now } ∧ Frame s u [R.lahar_LOAD_STAT] { s.rest with lahar := u.lahar }) ∧
  (∀ (s : State) t m, s.takes m R.lahar_LOAD_CTL = true → (s.loadState = 2 ∨ s.loadState = 3) →
    Answers (.loadCtlClear t m) s fun u => u.rd R.lahar_LOAD_STAT = 0 ∧ u.graphOf (1 - s.bankNo) = none ∧ u.graphOf s.bankNo = s.graphOf s.bankNo ∧
      Frame s u [R.lahar_LOAD_STAT] { s.rest with lahar := u.lahar, xl := u.xl }) ∧
  (∀ (s : State) t, (s.switchDue = false ∨ s.switchHeld = true) → Answers (.graphSwitch t) s fun u => Frame s u [] s.rest) ∧
  (∀ (s : State) t a, s.lahar.act = some a → a + 2048 ≤ s.tau → s.cycling = true → s.switchHeld = false → s.graphOf (1 - s.bankNo) = none →
    Answers (.graphSwitch t) s fun u =>
      u.running = false ∧ u.bankNo = 1 - s.bankNo ∧ u.f R.lahar_GRAPH_STAT 15 8 = (s.f R.lahar_GRAPH_STAT 15 8 + 1) % 256 ∧ u.lahar.act = none ∧
      u.b (R.IRQ_STAT P.lahar) 10 = true ∧ (∀ i, u.tok i = none) ∧ MemKept s u) ∧
  (∀ (s : State) t a g, s.lahar.act = some a → a + 2048 ≤ s.tau → s.cycling = true → s.switchHeld = false → s.graphOf (1 - s.bankNo) = some g → (∀ c, c < 8 → s.cellRetired c = false) →
    Answers (.graphSwitch t) s fun u =>
      u.running = true ∧ u.bankNo = 1 - s.bankNo ∧ u.f R.lahar_GRAPH_STAT 15 8 = (s.f R.lahar_GRAPH_STAT 15 8 + 1) % 256 ∧
      u.f R.lahar_GRAPH_STAT 31 16 = g.imageId % 65536 ∧ u.lahar.act = none ∧ u.b (R.IRQ_STAT P.lahar) 10 = true)

/-- LAHAR_CLR_CNT, CELL_CLR_CNT, ROUTE_REWRITE, COPY_DONE, DELAY_LIST_TICK, SELF_TEST_DISPATCH and SELF_TEST_TIMEOUT: the counts are cleared; the routing table names the
target of a retired cell from the boundary after its retirement; a finished copy is shown; due entries of a delay list leave it; the self-test reaches each idle engine every
10 ms, and one that has not answered within 100 µs is taken off (R157, R159, R170, R171, R465). -/
def Obligations.LaharUpkeep : Prop :=
  (∀ (s : State) t m, s.takes m (R.CTRL P.lahar) = true →
    Answers (.laharClrCnt t m) s fun u =>
      u.rd R.lahar_ERR_CNT = 0 ∧ (∀ l, l < 4 → u.f (R.lahar_DL_STAT l) 26 16 = 0 ∧ u.f (R.lahar_DL_STAT l) 10 0 = s.f (R.lahar_DL_STAT l) 10 0) ∧
      (∀ c, c < 8 → u.rd (R.cell_ABORT_CNT c) = 0 ∧ u.f (R.cell_READY c) 28 16 = 0 ∧ u.f (R.cell_READY c) 15 0 = s.f (R.cell_READY c) 15 0) ∧
      Frame s u (R.lahar_ERR_CNT :: (List.range 4).map R.lahar_DL_STAT ++ (List.range 8).flatMap fun c => [R.cell_ABORT_CNT c, R.cell_READY c]) s.rest) ∧
  (∀ (s : State) t m (c : Fin 8), s.takes m (R.CTRL (cellPage c)) = true →
    Answers (.cellClrCnt t m c) s fun u => u.rd (R.cell_ABORT_CNT c) = 0 ∧ u.f (R.cell_READY c) 28 16 = 0 ∧ u.f (R.cell_READY c) 15 0 = s.f (R.cell_READY c) 15 0 ∧
      Frame s u [R.cell_ABORT_CNT c, R.cell_READY c] s.rest) ∧
  (∀ (s : State) t c, s.lahar.reroute = [(c, s.cycle - 1)] → 0 < s.cycle →
    Answers (.routeRewrite t) s fun u => u.rd R.crater_ROUTE = routeReplace (s.rd R.crater_ROUTE) c (s.execCell c) ∧
      u.rdStage R.crater_ROUTE = routeReplace (s.rdStage R.crater_ROUTE) c (s.execCell c) ∧ u.lahar = { s.lahar with reroute := [] } ∧
      (∀ a, a ≠ R.crater_ROUTE → u.rdStage a = s.rdStage a) ∧ Frame s u [R.crater_ROUTE] { s.rest with lahar := u.lahar, stage := u.stage }) ∧
  (∀ (w : W32) c g b, c < 8 → g < 8 → b < 8 →
    fld (routeReplace w c g) (3 * b + 2) (3 * b) = (if fld w (3 * b + 2) (3 * b) = c then g else fld w (3 * b + 2) (3 * b))) ∧
  (∀ (s : State) t (c : Fin 8) x, s.b (R.cell_COPY_STAT c) 0 = true → s.copyInto c = some x → (∀ h y, s.movedTo h = some y → y.target = c.val → y.bad = []) →
    Answers (.copyDone t c) s fun u => u.b (R.cell_COPY_STAT c) 0 = false ∧ u.b (R.cell_COPY_STAT c) 1 = true ∧
      u.f (R.cell_COPY_STAT c) 29 16 = x.size / 64 % 16384 ∧ u.b (R.STATUS (cellPage c)) 9 = false ∧ u.b (R.IRQ_STAT (cellPage c)) 10 = true ∧
      Frame s u ([R.cell_COPY_STAT c, R.STATUS (cellPage c)] ++ irqRegs (cellPage c)) s.rest) ∧
  (∀ (s : State) t (c : Fin 8), s.b (R.cell_COPY_STAT c) 0 = true →
    Answers (.copyDone t c) s fun u => u.b (R.cell_COPY_STAT c) 0 = false ∧ u.b (R.cell_COPY_STAT c) 1 = true ∧ u.b (R.STATUS (cellPage c)) 9 = false) ∧
  (∀ (s : State) t (l : Fin 4) n e r, s.blockInReset 0x0F = false → s.pairMode = false → (s.tick t).dlTicks l = n → n ≠ 0 → s.dlist l = e :: r →
    (e.due - (s.rd48 (R.lahar_DL_TICK_LO l) + BitVec.ofNat 48 n)).toInt ≤ 0 →
    (∀ x ∈ r, 0 < (x.due - (s.rd48 (R.lahar_DL_TICK_LO l) + BitVec.ofNat 48 n)).toInt) →
    Answers (.delayListTick t l) s fun u => u.dlist l = r ∧ u.rd48 (R.lahar_DL_TICK_LO l) = s.rd48 (R.lahar_DL_TICK_LO l) + BitVec.ofNat 48 n ∧
      u.f (R.lahar_DL_STAT l) 10 0 = r.length % 2048 ∧
      Frame s u ([R.lahar_DL_TICK_LO l, R.lahar_DL_TICK_LO l + 4, R.lahar_DL_STAT l, R.lahar_ERR_CNT] ++ irqRegs P.lahar) { s.rest with lahar := u.lahar }) ∧
  (∀ (s : State) t (e : Fin 32), 1 < s.sin.state → s.sin.engTest + nsT 10000000 ≤ (s.tick t).now → s.engUp e = true → s.cellInReset (e / 4) = false →
    (s.eng e).preq = none → (s.eng e).servs = [] →
    Answers (.selfTestDispatch t) s fun u => u.sin.engTest = u.now ∧ (∃ v, (u.eng e).servs = [v] ∧ v.key = runtimeKey) ∧ (u.eng e).testSince = some u.now ∧ MemKept s u) ∧
  (∀ (s : State) t (e : Fin 32) x v, (s.eng e).testSince = some x → x + nsT 100000 ≤ (s.tick t).now → (s.eng e).servs = [v] → v.key = runtimeKey → v.ghost = false →
    (s.eng e).preq = none → (s.fdCh 4 e).perm = true →
    Answers (.selfTestTimeout t e) s fun u => (u.eng e).servs = [] ∧ (u.eng e).testSince = none ∧ MemKept s u)

/-- The 21 ALU instructions: the result of Table 4.8 stands in the destination register and its flags in FLG; CMP and TST write no D register, CMOV writes
when its condition holds and changes no flag; everything else of the operation, the engine and the device stays (R81, R121 to R123). Where its encoding is invalid, or it may not
stand where it does, it traps ILLEGAL, CODE 1: the trap is recorded and the operation is aborted and quarantined (R101, R107, R113, R165, Table 4.13); a far load pending into a
register the instruction names holds it back, and nothing issues (R89). Any instruction of the engine during which the self-check of its datapath fails traps LOCKSTEP, CODE 7
(Table 3.11). -/
def Obligations.AluInstructions : Prop :=
  (∀ op (s : State) t (e : Fin 32) v w, op ≠ .cmov → s.Issues e (.alu op) v w →
    Answers (aluInstr op t e) s fun u => ∃ v',
      let b := s.readBank v
      let r := aluResult op w (b.satMode s.freeCtr) (b.d s.freeCtr (fld w 33 29)) (b.d s.freeCtr (fld w 28 24))
      let dst := if op = .cmp ∨ op = .tst then [] else [fld w 38 34]
      Retired s u e v v v' (regFLG :: dst) ∧ Sequential s v v' ∧ MemKept s u ∧ (∀ d ∈ dst, v'.bank.latest d = r.val.setWidth 112) ∧
      v'.bank.latest regFLG = (r.upd.apply ((b.latest regFLG).setWidth 16)).setWidth 112) ∧
  (∀ (s : State) t (e : Fin 32) v w, s.Issues e (.alu .cmov) v w →
    Answers (.cmov t e) s fun u => ∃ v',
      let b := s.readBank v
      Retired s u e v v v' [fld w 38 34] ∧ Sequential s v v' ∧ MemKept s u ∧
      v'.bank.latest (fld w 38 34) = (if condHolds (b.r16 s.freeCtr regFLG .op) (fld w 27 24) then (b.d s.freeCtr (fld w 33 29)).setWidth 112
        else b.latest (fld w 38 34))) ∧
  (∀ (s : State) t (e : Fin 32) v w op, s.top e = some v → s.canIssue e v = true → w = s.word48 (engInstrAddr e v.bank.pc) → (rowOfWord w).1 = .alu op →
    wordValid w = false → s.eccAt (engInstrAddr e v.bank.pc) = .good → s.b (R.engine_TRAP_STAT e) 0 = false → (s.eng e).servs = [v] → v.ghost = false →
    Answers (aluInstr op t e) s fun u =>
      u.b (R.engine_TRAP_STAT e) 0 = true ∧ u.f (R.engine_TRAP_STAT e) 7 4 = 1 ∧ u.f (R.engine_TRAP_STAT e) 9 8 = 0 ∧ u.f (R.engine_TRAP_STAT e) 31 16 = 1 ∧
      u.rd (R.engine_TRAP_PC e) = BitVec.ofNat 32 v.bank.pc ∧ u.f (R.engine_TRAP_OP e) 11 0 = v.key % 4096 ∧ u.b (R.IRQ_STAT (enginePage e)) 8 = true ∧
      (u.eng e).servs = [] ∧ (u.opSt v.key).phase = 5 ∧ EngsKept s u e ∧ MemKept s u) ∧
  (∀ (s : State) t (e : Fin 32) v w op d, s.top e = some v → s.canIssue e v = true → w = s.word48 (engInstrAddr e v.bank.pc) → (rowOfWord w).1 = .alu op →
    wordValid w = true → d ∈ wordD w → d ∈ v.pendingD →
    Answers (aluInstr op t e) s fun u =>
      u.top e = some { v with bank := v.bank.breakHist } ∧ EngsKept s u e ∧ QuietRegs s u [] ∧ MemKept s u ∧
      u.rest = { s.rest with engs := u.engs, perf := u.perf }) ∧
  (∀ (s : State) t (e : Fin 32) v w r i, s.Issues e r v w → i ∈ brassInstr r t e false → s.b (R.engine_TRAP_STAT e) 0 = false →
    Answers i s fun u => Locksteps s t u e v.bank.pc)

/-- MPY, MAC, MSU, MACX, MSUX, ADDA and a parallel instruction with moves only: the accumulator takes the product or sum of Table 4.6, wrapped or saturated, AOV is set when
it left its range; the early access reads before the late access writes, each with its pointer updated (R73, R74, R81, R87, R116 to R120). -/
def Obligations.MultiplyAccumulate : Prop :=
  (∀ op (s : State) t (e : Fin 32) v w x y, s.Issues e (.mac op) v w →
    (s.earlyAccess e (s.topDepth e) v.seed (s.readBank v) w).1 = .word x →
    (s.lateAccess e (s.topDepth e) v.seed (s.readBank v) (s.earlyAccess e (s.topDepth e) v.seed (s.readBank v) w).2 w).2.1 = .word y →
    Answers (macInstr op t e) s fun u => ∃ v',
      let b := s.readBank v
      let acc := b.a s.freeCtr (fld w 40 39) .acc
      let r := if bit w 41 then macSingle op (b.satAcc s.freeCtr) acc (b.d s.freeCtr (fld w 38 34)) (b.d s.freeCtr (fld w 33 29))
        else macDual op (b.satAcc s.freeCtr) acc (b.d s.freeCtr (fld w 38 34)) (b.d s.freeCtr (fld w 33 29))
      let mov := (if bit w 28 then [fld w 27 23, regP (fld w 22 20)] else []) ++ (if bit w 17 then regP (fld w 10 8) :: (if bit w 16 then [] else [fld w 15 11]) else [])
      Retired s u e v v v' ((if op = .none then [] else [regA (fld w 40 39)]) ++ (if r.2 then [regFLG] else []) ++ mov) ∧ Sequential s v v' ∧
      (op ≠ .none → v'.bank.latest (regA (fld w 40 39)) = r.1) ∧
      (r.2 = true → v'.bank.latest regFLG = (((b.latest regFLG).setWidth 16 : BitVec 16) ||| 32).setWidth 112) ∧
      (bit w 28 = true → v'.bank.latest (fld w 27 23) = x.setWidth 112 ∧
        ((bit w 17 = true ∧ fld w 22 20 = fld w 10 8) ∨
          v'.bank.latest (regP (fld w 22 20)) = (b.ptr s.freeCtr (fld w 22 20) (fld w 19 18)).2.latest (regP (fld w 22 20)))) ∧
      (bit w 17 = true → v'.bank.latest (regP (fld w 10 8)) = (b.ptr s.freeCtr (fld w 10 8) (fld w 7 6)).2.latest (regP (fld w 10 8))) ∧
      (bit w 17 = true → bit w 16 = false → v'.bank.latest (fld w 15 11) = y.setWidth 112) ∧
      (bit w 17 = true → bit w 16 = true →
        Stored s u e (s.topDepth e) (b.ptr s.freeCtr (fld w 10 8) (fld w 7 6)).1 (b.d s.freeCtr (fld w 15 11))) ∧
      ((bit w 17 && bit w 16) = false → MemKept s u))

/-- LD, ST, LDP, STP, FLD and FST: a load writes its register with the word at its local address and a store writes it, through a pointer that is updated;
a store to resident data traps CODE 3; a far load that hits the TLB becomes pending and a far store enters the commit buffer, memory unchanged; a misaligned far load
traps FAR_ERROR, CODE 5 (R83 to R90, R124 to R126, R162). -/
def Obligations.MemoryInstructions : Prop :=
  (∀ (s : State) t (e : Fin 32) v w x, s.Issues e (.mem 0) v w →
    s.localRead e (s.topDepth e) v.seed (memAddr s.freeCtr (s.readBank v) w).1 = .word x →
    Answers (.ld t e) s fun u => ∃ v',
      let a := memAddr s.freeCtr (s.readBank v) w
      Retired s u e v v v' [fld w 36 32, regP (fld w 39 37)] ∧ Sequential s v v' ∧ MemKept s u ∧ v'.bank.latest (fld w 36 32) = x.setWidth 112 ∧
      v'.bank.latest (regP (fld w 39 37)) = a.2.latest (regP (fld w 39 37))) ∧
  (∀ (s : State) t (e : Fin 32) v w, s.Issues e (.mem 1) v w → s.localWriteTrap e (s.topDepth e) (memAddr s.freeCtr (s.readBank v) w).1 = none →
    Answers (.st t e) s fun u => ∃ v',
      let a := memAddr s.freeCtr (s.readBank v) w
      Retired s u e v v v' [regP (fld w 39 37)] ∧ Sequential s v v' ∧ v'.bank.latest (regP (fld w 39 37)) = a.2.latest (regP (fld w 39 37)) ∧
      Stored s u e (s.topDepth e) a.1 ((s.readBank v).d s.freeCtr (fld w 36 32))) ∧
  (∀ (s : State) t (e : Fin 32) v w x, s.Issues e (.mem 2) v w →
    s.localRead e (s.topDepth e) v.seed (memAddr s.freeCtr (s.readBank v) w).1 = .word x →
    Answers (.ldp t e) s fun u => ∃ v',
      let a := memAddr s.freeCtr (s.readBank v) w
      Retired s u e v v v' [setReg w, regP (fld w 39 37)] ∧ Sequential s v v' ∧ MemKept s u ∧ v'.bank.latest (setReg w) = ((x.setWidth 16 : BitVec 16)).setWidth 112 ∧
      (regP (fld w 39 37) ≠ setReg w → v'.bank.latest (regP (fld w 39 37)) = a.2.latest (regP (fld w 39 37)))) ∧
  (∀ (s : State) t (e : Fin 32) v w, s.Issues e (.mem 3) v w → s.localWriteTrap e (s.topDepth e) (memAddr s.freeCtr (s.readBank v) w).1 = none →
    Answers (.stp t e) s fun u => ∃ v',
      let a := memAddr s.freeCtr (s.readBank v) w
      Retired s u e v v v' [regP (fld w 39 37)] ∧ Sequential s v v' ∧ v'.bank.latest (regP (fld w 39 37)) = a.2.latest (regP (fld w 39 37)) ∧
      Stored s u e (s.topDepth e) a.1 (ext16 (setReg w) ((s.readBank v).r16 s.freeCtr (setReg w) .op))) ∧
  (∀ (s : State) t (e : Fin 32) v w c, s.Issues e (.mem 1) v w → s.localWriteTrap e (s.topDepth e) (memAddr s.freeCtr (s.readBank v) w).1 = some c →
    s.b (R.engine_TRAP_STAT e) 0 = false →
    Answers (.st t e) s fun u => u.b (R.engine_TRAP_STAT e) 0 = true ∧ u.f (R.engine_TRAP_STAT e) 7 4 = c ∧ (c = 2 ∨ c = 3) ∧
      u.rd (R.engine_TRAP_PC e) = BitVec.ofNat 32 v.bank.pc ∧ u.b (R.IRQ_STAT (enginePage e)) 8 = true ∧ MemKept s u) ∧
  (∀ (s : State) t (e : Fin 32) v w p, s.Issues e (.mem 4) v w →
    let va := (s.readBank v).d s.freeCtr (fld w 31 27) + w48 (sfld w 26 11 * 8)
    s.tlbLook (e / 4) (s.opCtx v.key).1 (s.opCtx v.key).2.1 va false (s.opCtx v.key).2.2 = .ok p → s.farFail p = none →
    Answers (.fld t e) s fun u => ∃ v' l, Retired s u e v { v with seq := v.seq + 1, loads := v.loads ++ [l] } v' [] ∧ Sequential s v v' ∧ MemKept s u ∧
      l.d = fld w 36 32 ∧ l.at' = p ∧ l.va = va) ∧
  (∀ (s : State) t (e : Fin 32) v w, s.Issues e (.mem 4) v w →
    let va := (s.readBank v).d s.freeCtr (fld w 31 27) + w48 (sfld w 26 11 * 8)
    s.tlbLook (e / 4) (s.opCtx v.key).1 (s.opCtx v.key).2.1 va false (s.opCtx v.key).2.2 = .miss →
    Answers (.fld t e) s fun u => ∃ v' y, u.top e = some v' ∧ v'.walks = v.walks ++ [y] ∧ y.d = fld w 36 32 ∧ y.va = va ∧ y.store = false ∧ v'.loads = v.loads ∧
      u.f (tlbCnt (e / 4)) 15 0 = min (s.f (tlbCnt (e / 4)) 15 0 + 1) 65535 ∧ EngsKept s u e ∧ QuietRegs s u [tlbCnt (e / 4)] ∧ MemKept s u) ∧
  (∀ (s : State) t (e : Fin 32) v w p l, s.Issues e (.mem 5) v w →
    let va := (s.readBank v).d s.freeCtr (fld w 31 27) + w48 (sfld w 26 11 * 8)
    s.tlbLook (e / 4) (s.opCtx v.key).1 (s.opCtx v.key).2.1 va true (s.opCtx v.key).2.2 = .ok p → s.farFail p = none →
    cbufPut v.cbuf { at' := p, va := va, val := (s.readBank v).d s.freeCtr (fld w 36 32), seq := v.seq } = some l →
    Answers (.fst t e) s fun u => ∃ v' m, Retired s u e v { v with seq := v.seq + 1, cbuf := l, loads := m } v' [] ∧ Sequential s v v' ∧ MemKept s u ∧
      m.map (·.d) = v.loads.map (·.d)) ∧
  (∀ (s : State) t (e : Fin 32) v w p, s.Issues e (.mem 4) v w →
    let va := (s.readBank v).d s.freeCtr (fld w 31 27) + w48 (sfld w 26 11 * 8)
    s.tlbLook (e / 4) (s.opCtx v.key).1 (s.opCtx v.key).2.1 va false (s.opCtx v.key).2.2 = .ok p → s.farFail p = some .size →
    s.b (R.engine_TRAP_STAT e) 0 = false →
    Answers (.fld t e) s fun u => u.b (R.engine_TRAP_STAT e) 0 = true ∧ u.f (R.engine_TRAP_STAT e) 7 4 = 5 ∧ u.rd (R.engine_TRAP_PC e) = BitVec.ofNat 32 v.bank.pc ∧
      u.rd48 (R.engine_TRAP_ADDR_LO e) = va ∧ u.b (R.IRQ_STAT (enginePage e)) 8 = true ∧ MemKept s u)

/-- NOP, BR, BRR, JL, LOOP and DONE: a branch whose condition holds goes to its target after two delay slots, JL saves the address after them, LOOP sets its count and its start
and end and skips the body at a count of 0, and DONE ends the operation after two delay slots (R112, R128 to R131). -/
def Obligations.ControlInstructions : Prop :=
  (∀ (s : State) t (e : Fin 32) v w, s.Issues e (.ctl 0) v w →
    Answers (.nop t e) s fun u => ∃ v', Retired s u e v v v' [] ∧ Sequential s v v' ∧ MemKept s u) ∧
  (∀ (s : State) t (e : Fin 32) v w, s.Issues e (.ctl 1) v w →
    Answers (.br t e) s fun u => ∃ v', Retired s u e v v v' [] ∧ MemKept s u ∧ v'.bank.pc = (v.bank.pc + 1) % 8192 ∧
      v'.bank.br = (if condHolds ((s.readBank v).r16 s.freeCtr regFLG .ad) (fld w 39 36) then some (2, fld w 12 0) else none)) ∧
  (∀ (s : State) t (e : Fin 32) v w, s.Issues e (.ctl 2) v w →
    Answers (.brr t e) s fun u => ∃ v', Retired s u e v v v' [] ∧ MemKept s u ∧ v'.bank.pc = (v.bank.pc + 1) % 8192 ∧
      v'.bank.br = (if condHolds ((s.readBank v).r16 s.freeCtr regFLG .ad) (fld w 39 36) then some (2, ((s.readBank v).d s.freeCtr (fld w 33 29)).toNat % 8192)
        else none)) ∧
  (∀ (s : State) t (e : Fin 32) v w, s.Issues e (.ctl 3) v w →
    Answers (.jl t e) s fun u => ∃ v',
      let c := condHolds ((s.readBank v).r16 s.freeCtr regFLG .ad) (fld w 39 36)
      Retired s u e v v v' (if c then [fld w 33 29] else []) ∧ MemKept s u ∧ v'.bank.pc = (v.bank.pc + 1) % 8192 ∧
      v'.bank.br = (if c then some (2, fld w 12 0) else none) ∧
      (c = true → v'.bank.latest (fld w 33 29) = BitVec.ofNat 112 ((v.bank.pc + 3) % 8192))) ∧
  (∀ (s : State) t (e : Fin 32) v w, s.Issues e (.ctl 4) v w →
    Answers (.loop t e) s fun u => ∃ v',
      let n := fld w 39 39
      let cnt := if bit w 38 then fld w 28 13 else fld ((s.readBank v).d s.freeCtr (fld w 33 29)) 15 0
      Retired s u e v v v' [regLC n] ∧ MemKept s u ∧ v'.bank.latest (regLC n) = BitVec.ofNat 112 cnt ∧
      (if n = 0 then v'.bank.ls0 = (v.bank.pc + 1) % 8192 ∧ v'.bank.le0 = fld w 12 0 ∧ v'.bank.ls1 = v.bank.ls1 ∧ v'.bank.le1 = v.bank.le1
        else v'.bank.ls1 = (v.bank.pc + 1) % 8192 ∧ v'.bank.le1 = fld w 12 0 ∧ v'.bank.ls0 = v.bank.ls0 ∧ v'.bank.le0 = v.bank.le0) ∧
      v'.bank.pc = (if cnt = 0 then (fld w 12 0 + 1) % 8192 else (v.bank.pc + 1) % 8192)) ∧
  (∀ (s : State) t (e : Fin 32) v w, s.Issues e (.ctl 5) v w →
    Answers (.done t e) s fun u => ∃ v', Retired s u e v v v' [] ∧ MemKept s u ∧ v'.bank.fin = some 2 ∧ v'.ended = false) ∧
  (∀ (b : Bank) k d, b.br = some (1, k) → (b.next d).pc = k ∧ (b.next d).br = none) ∧
  (∀ (b : Bank) n k d, b.br = some (n + 2, k) → (b.next d).pc = d ∧ (b.next d).br = some (n + 1, k))

/-- MOVS, MOVR, MOVI, RND, MOVA, CLR, EXP, NORM, BFSC, RDS and POST: each writes the register it names with the value of its rule, and the flags its rule names; where NORM or BFSC
names one register for both results, which of the two stands is open (log entry 79)
(R78 to R80, R132 to R140). -/
def Obligations.RegisterInstructions : Prop :=
  (∀ (s : State) t (e : Fin 32) v w, s.Issues e (.ctl 0x08) v w →
    Answers (.movs t e) s fun u => ∃ v', Retired s u e v v v' [selReg (fld w 39 34)] ∧ Sequential s v v' ∧ MemKept s u ∧
      v'.bank.latest (selReg (fld w 39 34)) = ((((s.readBank v).d s.freeCtr (fld w 33 29)).setWidth 16 : BitVec 16) &&& selMask (fld w 39 34)).setWidth 112) ∧
  (∀ (s : State) t (e : Fin 32) v w, s.Issues e (.ctl 0x09) v w →
    Answers (.movr t e) s fun u => ∃ v', Retired s u e v v v' [fld w 33 29] ∧ Sequential s v v' ∧ MemKept s u ∧
      v'.bank.latest (fld w 33 29) = (if fld w 39 34 = 0x24 then bnkWord (s.topDepth e)
        else ext16 (selReg (fld w 39 34)) ((s.readBank v).r16 s.freeCtr (selReg (fld w 39 34)) .op)).setWidth 112) ∧
  (∀ (s : State) t (e : Fin 32) v w, s.Issues e (.ctl 0x0A) v w →
    Answers (.movi t e) s fun u => ∃ v', Retired s u e v v v' [selReg (fld w 39 34)] ∧ Sequential s v v' ∧ MemKept s u ∧
      v'.bank.latest (selReg (fld w 39 34)) = (BitVec.ofNat 16 (fld w 15 0) &&& selMask (fld w 39 34)).setWidth 112) ∧
  (∀ (s : State) t (e : Fin 32) v w, s.Issues e (.ctl 0x10) v w →
    Answers (.rnd t e) s fun u => ∃ v',
      let b := s.readBank v
      let r := rndAcc (bit w 39) (b.satMode s.freeCtr) (b.a s.freeCtr (fld w 37 36) .op) (sfld w 27 22)
      Retired s u e v v v' [fld w 33 29, regFLG] ∧ Sequential s v v' ∧ MemKept s u ∧ v'.bank.latest (fld w 33 29) = r.val.setWidth 112 ∧
      v'.bank.latest regFLG = (r.upd.apply ((b.latest regFLG).setWidth 16)).setWidth 112) ∧
  (∀ (s : State) t (e : Fin 32) v w, s.Issues e (.ctl 0x11) v w →
    Answers (.mova t e) s fun u => ∃ v', Retired s u e v v v' [regA (fld w 37 36)] ∧ Sequential s v v' ∧ MemKept s u ∧
      v'.bank.latest (regA (fld w 37 36)) = widen (bit w 39) ((s.readBank v).d s.freeCtr (fld w 33 29))) ∧
  (∀ (s : State) t (e : Fin 32) v w, s.Issues e (.ctl 0x12) v w →
    Answers (.clr t e) s fun u => ∃ v', Retired s u e v v v' [regA (fld w 37 36)] ∧ Sequential s v v' ∧ MemKept s u ∧ v'.bank.latest (regA (fld w 37 36)) = 0) ∧
  (∀ (s : State) t (e : Fin 32) v w, s.Issues e (.ctl 0x13) v w →
    Answers (.exp t e) s fun u => ∃ v', Retired s u e v v v' [fld w 33 29] ∧ Sequential s v v' ∧ MemKept s u ∧
      v'.bank.latest (fld w 33 29) =
        (expWord (fld w 39 38) ((s.readBank v).d s.freeCtr (fld w 28 24)) ((s.readBank v).a s.freeCtr (fld w 37 36) .op)).setWidth 112) ∧
  (∀ (s : State) t (e : Fin 32) v w, s.Issues e (.ctl 0x14) v w → fld w 39 38 = 0 →
    Answers (.norm t e) s fun u => ∃ v',
      let b := s.readBank v
      let r := normOf 48 0 (b.d s.freeCtr (fld w 28 24)).toInt
      Retired s u e v v v' [fld w 33 29, fld w 23 19, regFLG] ∧ Sequential s v v' ∧ MemKept s u ∧
      (fld w 33 29 ≠ fld w 23 19 → v'.bank.latest (fld w 33 29) = (w48 r.1).setWidth 112 ∧ v'.bank.latest (fld w 23 19) = (w48 r.2).setWidth 112) ∧
      v'.bank.latest regFLG = (FlagUpd.apply { z := some (r.1 = 0), n := some (r.1 < 0) } ((b.latest regFLG).setWidth 16)).setWidth 112) ∧
  (∀ (s : State) t (e : Fin 32) v w, s.Issues e (.ctl 0x14) v w → fld w 39 38 = 1 →
    Answers (.norm t e) s fun u => ∃ v',
      let b := s.readBank v
      let h := normOf 24 0 (hiLane (b.d s.freeCtr (fld w 28 24)))
      let l := normOf 24 0 (loLane (b.d s.freeCtr (fld w 28 24)))
      Retired s u e v v v' [fld w 33 29, fld w 23 19, regFLG] ∧ Sequential s v v' ∧ MemKept s u ∧
      (fld w 33 29 ≠ fld w 23 19 → v'.bank.latest (fld w 33 29) = (packLanes h.1 l.1).setWidth 112 ∧
        v'.bank.latest (fld w 23 19) = (packLanes h.2 l.2).setWidth 112) ∧
      v'.bank.latest regFLG = (FlagUpd.apply { z := some (h.1 = 0 && l.1 = 0), n := some (h.1 < 0) } ((b.latest regFLG).setWidth 16)).setWidth 112) ∧
  (∀ (s : State) t (e : Fin 32) v w, s.Issues e (.ctl 0x14) v w → fld w 39 38 = 2 →
    Answers (.norm t e) s fun u => ∃ v',
      let a := (s.readBank v).a s.freeCtr (fld w 37 36) .op
      let h := normOf 56 9 (accHi a)
      let l := normOf 56 9 (accLo a)
      Retired s u e v v v' [regA (fld w 37 36), fld w 23 19] ∧ Sequential s v v' ∧ MemKept s u ∧
      v'.bank.latest (regA (fld w 37 36)) = packAcc h.1 l.1 ∧ v'.bank.latest (fld w 23 19) = (packLanes h.2 l.2).setWidth 112) ∧
  (∀ (s : State) t (e : Fin 32) v w, s.Issues e (.ctl 0x14) v w → fld w 39 38 = 3 →
    Answers (.norm t e) s fun u => ∃ v',
      let r := normOf 112 17 ((s.readBank v).a s.freeCtr (fld w 37 36) .op).toInt
      Retired s u e v v v' [regA (fld w 37 36), fld w 23 19] ∧ Sequential s v v' ∧ MemKept s u ∧
      v'.bank.latest (regA (fld w 37 36)) = BitVec.ofInt 112 r.1 ∧ v'.bank.latest (fld w 23 19) = (w48 r.2).setWidth 112) ∧
  (∀ (s : State) t (e : Fin 32) v w, s.Issues e (.ctl 0x15) v w →
    Answers (.bfsc t e) s fun u => ∃ v',
      let b := s.readBank v
      let k := if bit w 39 then sfld w 5 0 else clampI (b.d s.freeCtr (fld w 18 14)).toInt (-24) 23
      let r := bfsc (b.satMode s.freeCtr) (b.d s.freeCtr (fld w 28 24)) (sfld (b.d s.freeCtr (fld w 23 19)) 7 0) k
      Retired s u e v v v' [fld w 33 29, fld w 23 19, regFLG] ∧ Sequential s v v' ∧ MemKept s u ∧
      (fld w 33 29 ≠ fld w 23 19 → v'.bank.latest (fld w 33 29) = r.1.setWidth 112 ∧ v'.bank.latest (fld w 23 19) = (w48 r.2.1).setWidth 112) ∧ v'.bank.latest regFLG = (r.2.2.apply ((b.latest regFLG).setWidth 16)).setWidth 112) ∧
  (∀ (s : State) t (e : Fin 32) v w, s.Issues e (.ctl 0x18) v w → (fld w 39 34 < 4 ∨ 12 ≤ fld w 39 34) →
    Answers (.rds t e) s fun u => ∃ v', Retired s u e v v v' [fld w 33 29] ∧ Sequential s v v' ∧ MemKept s u ∧
      v'.bank.latest (fld w 33 29) = ((s.tick t).rdsValue e v.key (fld w 39 34)).setWidth 112) ∧
  (∀ (s : State) t (e : Fin 32) v w, s.Issues e (.ctl 0x19) v w → fld w 39 38 < (s.opRec v.key).nOut →
    Answers (.post t e) s fun u => ∃ v',
      Retired s u e v { v with posted := Tab.set v.posted (fld w 39 38) ((s.readBank v).d s.freeCtr (fld w 33 29)) 0 } v' [] ∧ Sequential s v v' ∧ MemKept s u) ∧
  (∀ (s : State) t (e : Fin 32) v w, s.Issues e (.ctl 0x18) v w → 4 ≤ fld w 39 34 → fld w 39 34 < 12 →
    Answers (.rds t e) s fun u => ∃ v', Retired s u e v v v' [fld w 33 29] ∧ Sequential s v v' ∧ MemKept s u ∧
      v'.bank.latest (fld w 33 29) = (((s.tick t).slots e (s.eng e).slotClass).rdsValue e v.key (fld w 39 34)).setWidth 112) ∧
  (∀ (s : State) t (e : Fin 32) v w, s.Issues e (.ctl 0x19) v w → (s.opRec v.key).nOut ≤ fld w 39 38 →
    Answers (.post t e) s fun u => ∃ v', Retired s u e v v v' [] ∧ Sequential s v v' ∧ MemKept s u)

/-- CLARKE, PARK, IPARK and SVM: with configuration in order and every place readable and writable, the sample ends with the output of its rule in the commit buffer and the
word of port 0 on every output port (R186, R194, R207, R209, R211). -/
def Obligations.TransformKernels : Prop :=
  (∀ (s : State) t (e : Fin 32) v cfg w1 w2 w3 ab c pab pc out, s.KernelStarts e v (isKernel 5) →
    let x := s.kenv e v
    (∀ y ∈ [(x.word 0, cfg), (x.word 1, w1), (x.word 2, w2), (x.word 3, w3), (pab, ab)], s.Sees e v.key y.1 y.2) → (cfg = 0 ∨ cfg = 1) →
    x.Points true w1 pab → (if cfg = 1 then x.Points true w2 pc ∧ s.Sees e v.key pc c else (w2 = 0 ∨ x.Points true w2 pc) ∧ c = 0) → x.Points false w3 out →
    s.Writable e v.key [out] →
    Answers (.clarke t e) s fun u => KernelEnds s u e v x.passOn [(out, clarke (cfg = 1) (ab.setWidth 48) (c.setWidth 48))]) ∧
  (∀ (s : State) t (e : Fin 32) v w1 w2 w3 ab an pin pan out, s.KernelStarts e v (isKernel 6) →
    let x := s.kenv e v
    (∀ y ∈ [(x.word 0, 0), (x.word 1, w1), (x.word 2, w2), (x.word 3, w3), (pin, ab), (pan, an)], s.Sees e v.key y.1 y.2) →
    x.Points false w1 pin → x.Points false w2 pan → x.Points false w3 out → s.Writable e v.key [out] →
    Answers (.park t e) s fun u => KernelEnds s u e v x.passOn [(out, park (ab.setWidth 48) (an.setWidth 48))]) ∧
  (∀ (s : State) t (e : Fin 32) v cfg w1 w2 w3 w4 dq an om pin pan pom out, s.KernelStarts e v (isKernel 7) →
    let x := s.kenv e v
    (∀ y ∈ [(x.word 0, cfg), (x.word 1, w1), (x.word 2, w2), (x.word 3, w3), (x.word 4, w4), (pin, dq), (pan, an)], s.Sees e v.key y.1 y.2) → cfg.toNat < 16 →
    x.Points false w1 pin → x.Points false w2 pan → (w3 = 0 ∧ om = 0 ∨ x.Points false w3 pom ∧ s.Sees e v.key pom om) → x.Points false w4 out →
    s.Writable e v.key [out] →
    Answers (.ipark t e) s fun u => KernelEnds s u e v x.passOn [(out, ipark cfg.toNat (dq.setWidth 48) (an.setWidth 48) (om.setWidth 48))]) ∧
  (∀ (s : State) t (e : Fin 32) v cfg w1 w2 w3 w4 lim ab bus pin pbus oab oc, s.KernelStarts e v (isKernel 8) →
    let x := s.kenv e v
    (∀ y ∈ [(x.word 0, cfg), (x.word 1, w1), (x.word 2, w2), (x.word 3, w3), (x.word 4, w4), (x.word 5, lim), (pin, ab)], s.Sees e v.key y.1 y.2) →
    (cfg = 0 ∨ cfg = 1) → 0 ≤ loLane (lim.setWidth 48) → loLane (lim.setWidth 48) ≤ hiLane (lim.setWidth 48) →
    x.Points false w1 pin → (w2 = 0 ∧ bus = none ∨ x.Points false w2 pbus ∧ ∃ y, s.Sees e v.key pbus y ∧ bus = some (y.setWidth 48)) →
    x.Points false w3 oab → x.Points false w4 oc → s.Writable e v.key [oab, oc] →
    Answers (.svm t e) s fun u =>
      let r := svmVector (cfg = 1) (ab.setWidth 48) bus
      let d := svmDuties r.1 r.2 (loLane (lim.setWidth 48)) (hiLane (lim.setWidth 48))
      KernelEnds s u e v x.passOn [(oab, packLanes d.1 d.2.1), (oc, packLanes d.2.2 0)])

/-- SOS and SOS_CASCADE with one section, whose states, exponent, output and STAT follow runSection, and whose state and input are 0 while ENABLED is 0 (R187, R197 to R202). -/
def Obligations.SectionKernels : Prop :=
  ∀ (s : State) t (e : Fin 32) v k cfg w1 w2 wa wb st s1 s2 sctl inp b0 b1 b2 a1 a2 g pin out cs, (k = 1 ∨ k = 2) → s.KernelStarts e v (isKernel k) →
    let x := s.kenv e v
    (∀ y ∈ [(x.word 0, cfg), (x.word 1, w1), (x.word 2, w2), (x.word 3, wa), (x.word 4, wb), (x.word 5, st), (x.word 6, s1), (x.word 7, s2), (x.word 8, sctl),
      (cs, b0), (at8 cs 1, b1), (at8 cs 2, b2), (at8 cs 3, a1), (at8 cs 4, a2), (at8 cs 5, g), (pin, inp)], s.Sees e v.key y.1 y.2) →
    fld cfg 3 0 = 1 → cfg &&& ~~~ 0x10F#64 = 0 → x.Points true w1 pin → x.Points false w2 out → x.Chooses wa wb cs → g.toNat < 4 → sctlOk sctl = true →
    s.Writable e v.key [x.word 6, x.word 7, x.word 8, out, x.word 5] →
    Answers (if k = 1 then .sos t e else .sosCascade t e) s fun u =>
      let z (w : W64) : W48 := if x.enabled then w.setWidth 48 else 0
      let co (lane : W48 → Int) : Coef :=
        coefOf lane (b0.setWidth 48) (b1.setWidth 48) (b2.setWidth 48) (a1.setWidth 48) (a2.setWidth 48)
      let o := runSection {
        hi := co hiLane, lo := co loLane, csh := g.toNat, bf := bit sctl 0, e := if x.enabled then sfld sctl 15 8 else 0, emin := sfld sctl 23 16,
        emax := sfld sctl 31 24, head := fld sctl 35 32, s1 := z s1, s2 := z s2 } (bit cfg 8) (z inp)
      KernelEnds s u e v x.passOn
        ([(x.word 6, if x.enabled then o.s1 else 0), (x.word 7, if x.enabled then o.s2 else 0),
          (x.word 8, (BitVec.ofNat 64 (setFld sctl 15 8 (if x.enabled then (o.e % 256).toNat else 0)).toNat).setWidth 48), (out, o.y)] ++
         statWrite (x.word 5) st { sats := o.sats, bits := b2n o.bfx * 2 })

/-- PI in velocity mode and in position mode, RAMP_TIMEOUT and PI_DQ, enabled: output, integrators, ramp and STAT follow piStage and rampStep (R203 to R206, R210); the run in
which the ramp's step count reaches RAMP_TMO is that of RAMP_TIMEOUT, any other that of PI. -/
def Obligations.ControllerKernels : Prop :=
  (∀ (s : State) t (e : Fin 32) v cfg w1 w2 w3 w4 wa wb st ig r w10 w11 w12 kp ki g ol il ref fb ff pref pfb pff out cs,
    s.KernelStarts e v (isKernel 3) →
    let x := s.kenv e v
    (∀ y ∈ [(x.word 0, cfg), (x.word 1, w1), (x.word 2, w2), (x.word 3, w3), (x.word 4, w4), (x.word 5, wa), (x.word 6, wb), (x.word 7, st), (x.word 8, ig),
      (x.word 9, r), (x.word 10, w10), (x.word 11, w11), (x.word 12, w12), (cs, kp), (at8 cs 1, ki), (at8 cs 2, g), (at8 cs 3, ol), (at8 cs 4, il), (pref, ref)],
      s.Sees e v.key y.1 y.2) → x.enabled = true →
    cfg &&& ~~~ 0x3F01#64 = 0 → fld cfg 13 8 ≤ 40 → x.Points false w1 pref →
    (w2 = 0 ∧ bit cfg 0 = false ∧ fb = 0 ∨ x.Points false w2 pfb ∧ s.Sees e v.key pfb fb) → (w3 = 0 ∧ ff = 0 ∨ x.Points false w3 pff ∧ s.Sees e v.key pff ff) →
    x.Points false w4 out → x.Chooses wa wb cs →
    w10 &&& ~~~ 0xFFFF0003#64 = 0 → fld w10 1 0 ≠ 3 → w11.toNat < 2 ^ 48 → w12.toNat < 2 ^ 32 → g &&& ~~~ 0xFF0F#64 = 0 → fld g 3 0 ≤ 8 →
    -24 ≤ sfld g 15 8 → sfld g 15 8 ≤ 8 → loLane (ol.setWidth 48) ≤ hiLane (ol.setWidth 48) → loLane (il.setWidth 48) ≤ hiLane (il.setWidth 48) →
    s.Writable e v.key [out, x.word 8, x.word 9, x.word 10, x.word 7] →
    let pos := bit cfg 0
    let rp := if pos then rampStep { r := r.setWidth 48, rs := fld w10 1 0, n := fld w10 31 16 } (ref.setWidth 48) (fb.setWidth 48) (fld w11 31 0) else { r := 0, rs := 0, n := 0 }
    let d := (rp.r - fb.setWidth 48).toInt
    let er := if pos then lane24 (rndDiv d (2 ^ fld cfg 13 8)) else lane24 (hiLane (ref.setWidth 48) - hiLane (fb.setWidth 48))
    let o := piStage {
      kp := hiLane (kp.setWidth 48), ki := hiLane (ki.setWidth 48), gp := fld g 3 0, gi := sfld g 15 8, lo := loLane (ol.setWidth 48),
      hi := hiLane (ol.setWidth 48), ilo := loLane (il.setWidth 48), ihi := hiLane (il.setWidth 48), err := er.val, integ := (ig.setWidth 48 : W48).toInt,
      ff := if pos && rp.rs = 1 then 0 else hiLane (ff.setWidth 48) * 2 ^ 24 }
    let tmo : Bool := pos && fld w11 47 32 ≠ 0 && rp.n ≥ fld w11 47 32
    let ferr : Bool := pos && fld w12 31 0 ≠ 0 && mag d > fld w12 31 0 * 65536
    Answers (if tmo then .rampTimeout t e else .pi t e) s fun u => KernelEnds s u e v x.passOn
      ([(out, packLanes o.y 0), (x.word 8, w48 o.integ)] ++
       (if pos then [(x.word 9, rp.r), (x.word 10, BitVec.ofNat 48 (rp.rs + rp.n * 65536))] else []) ++
       statWrite (x.word 7) st { bits := b2n o.ilim * 4 + b2n o.olim * 8 + b2n ferr * 16 + b2n tmo * 32, sats := er.hit + o.sats })) ∧
  (∀ (s : State) t (e : Fin 32) v w1 w2 w3 w4 w5 wa wb st igd igq kp ki g ild ilq vm l psi rd rq fb om prd prq pfb pom out cs cfg,
    s.KernelStarts e v (isKernel 4) →
    let x := s.kenv e v
    (∀ y ∈ [(x.word 0, cfg), (x.word 1, w1), (x.word 2, w2), (x.word 3, w3), (x.word 4, w4), (x.word 5, w5), (x.word 6, wa), (x.word 7, wb), (x.word 8, st),
      (x.word 9, igd), (x.word 10, igq), (cs, kp), (at8 cs 1, ki), (at8 cs 2, g), (at8 cs 3, ild), (at8 cs 4, ilq), (at8 cs 5, vm), (at8 cs 6, l), (at8 cs 7, psi),
      (prq, rq), (pfb, fb), (pom, om)], s.Sees e v.key y.1 y.2) → x.enabled = true → (cfg = 0 ∨ cfg = 1) →
    (w1 = 0 ∧ rd = 0 ∨ x.Points false w1 prd ∧ s.Sees e v.key prd rd) → x.Points false w2 prq → x.Points false w3 pfb → x.Points false w4 pom → x.Points false w5 out →
    x.Chooses wa wb cs → g &&& ~~~ 0xFFF0F#64 = 0 → fld g 3 0 ≤ 8 → -24 ≤ sfld g 15 8 → sfld g 15 8 ≤ 8 → fld g 19 16 ≤ 8 →
    loLane (ild.setWidth 48) ≤ hiLane (ild.setWidth 48) → loLane (ilq.setWidth 48) ≤ hiLane (ilq.setWidth 48) → 0 < hiLane (vm.setWidth 48) →
    s.Writable e v.key [out, x.word 9, x.word 10, x.word 8] →
    Answers (.piDq t e) s fun u =>
      let h (w : W64) : Int := hiLane (w.setWidth 48)
      let lo (w : W64) : Int := loLane (w.setWidth 48)
      let ed := lane24 (h rd - h fb)
      let eq := lane24 (h rq - lo fb)
      let f := if cfg = 1 then decouple (h om) (h fb) (lo fb) (h l) (lo l) (h psi) (fld g 19 16) else (0, 0)
      let d := piStage {
        kp := h kp, ki := h ki, gp := fld g 3 0, gi := sfld g 15 8, lo := -(h vm), hi := h vm, ilo := lo ild, ihi := h ild, err := ed.val,
        integ := (igd.setWidth 48 : W48).toInt, ff := f.1 * 2 }
      let lim := qLimit (h vm) d.y
      let q := piStage {
        kp := lo kp, ki := lo ki, gp := fld g 3 0, gi := sfld g 15 8, lo := -lim, hi := lim, ilo := lo ilq, ihi := h ilq, err := eq.val,
        integ := (igq.setWidth 48 : W48).toInt, ff := f.2 * 2 }
      KernelEnds s u e v x.passOn
        ([(out, packLanes d.y q.y), (x.word 9, w48 d.integ), (x.word 10, w48 q.integ)] ++
         statWrite (x.word 8) st { bits := (b2n d.ilim * 4 + b2n d.olim * 8) ||| (b2n q.ilim * 4 + b2n q.olim * 8), sats := ed.hit + d.sats + (eq.hit + q.sats) }))

/-- PVT, GEAR, STANDSTILL_REQUEST and HOME_TIMEOUT, with i the sample's inputs and p the private state as the kernel reads them: while ENABLE is 0 the
reference follows the feedback, with velocity 0; in HOLD and JOG the velocity steps toward 0 or JOG_VEL; the sample in which the standstill request rises is that of STANDSTILL_REQUEST;
the sample in which a search has lasted HOME_TMO enters ERROR (R218, R223, R227, R240, R246). The status words 36 to 39 and the words 40 to 63 of the private state follow (Prof.save, log entry 30). -/
def Obligations.ProfileKernels : Prop :=
  (∀ (s : State) t (e : Fin 32) v (gear : Bool) i p, s.KernelStarts e v (isKernel (if gear then 10 else 9)) →
    let x := s.kenv e v
    (s.tick t).Reads (do
      let i ← profInputs gear x
      let p ← profState x i
      pure (i, p)) (i, p) → i.enable = false → s.Writable e v.key (x.profPlaces i) →
    Answers (if gear then .gear t e else .pvt t e) s fun u =>
      let q := p.disabled i
      q.p = i.fb.toInt * 65536 ∧ q.v = 0 ∧ q.m1 = 0 ∧ q.eng = false ∧ q.still = false ∧ q.run = false ∧
      KernelEnds s u e v x.passOn (x.profWrites i p q)) ∧
  (∀ (s : State) t (e : Fin 32) v (gear : Bool) i p, s.KernelStarts e v (isKernel (if gear then 10 else 9)) →
    let x := s.kenv e v
    (s.tick t).Reads (do
      let i ← profInputs gear x
      let p ← profState x i
      pure (i, p)) (i, p) → i.enable = true → (i.mode = 0 ∨ i.mode = 2) → p.m1 = i.mode + 1 → i.newCmd p = 0 → (p.jstop && p.mode = i.mode && p.jog = i.jogVel) = false → p.still = false →
    bit i.pmode 8 = false → i.still = false → s.Writable e v.key (x.profPlaces i) →
    Answers (if gear then .gear t e else .pvt t e) s fun u => ∃ q : Prof,
      q.v = velStep p.v (if i.mode = 2 then i.jogVel.toInt else 0) i.acc i.dec ∧ q.p = wrap64 (p.p + q.v) ∧ q.m1 = p.m1 ∧ q.home = p.home ∧ q.sticky = p.sticky ∧
      KernelEnds s u e v x.passOn (x.profWrites i p q)) ∧
  (∀ (s : State) t (e : Fin 32) v (gear : Bool) i p, s.KernelStarts e v (isKernel (if gear then 10 else 9)) →
    let x := s.kenv e v
    (s.tick t).Reads (do
      let i ← profInputs gear x
      let p ← profState x i
      pure (i, p)) (i, p) → i.enable = true → i.mode = 0 → p.m1 = 1 → i.newCmd p = 0 → p.v = 0 → p.run = false → p.home = 0 → p.still = false →
    fitsS 64 p.p = true → bit i.pmode 8 = true → i.still = false → mag (i.fb - w48 (rndDiv p.p 65536)).toInt ≤ i.win * 65536 → fld i.pmode 31 16 ≤ min (p.dwell + 1) 65535 →
    s.Writable e v.key (x.profPlaces i) →
    Answers (.standstillRequest t e) s fun u => ∃ q : Prof, q.still = true ∧ q.v = 0 ∧ q.p = p.p ∧
      KernelEnds s u e v x.passOn (x.profWrites i p q)) ∧
  (∀ (s : State) t (e : Fin 32) v i p, s.KernelStarts e v (isKernel 10) →
    let x := s.kenv e v
    (s.tick t).Reads (do
      let i ← profInputs true x
      let p ← profState x i
      pure (i, p)) (i, p) → i.enable = true → i.mode = 3 → i.method = 0 → p.m1 = 4 → i.newCmd p = 0 → p.home = 2 →
    bit i.echo 16 = false → fld i.hcfg 47 32 ≠ 0 → fld i.hcfg 47 32 * 64 ≤ (BitVec.ofNat 48 i.cyc - BitVec.ofNat 48 p.homeAt).toNat →
    s.Writable e v.key (x.profPlaces i) →
    Answers (.homeTimeout t e) s fun u => ∃ q : Prof, q.home = 6 ∧ q.v = velStep p.v 0 i.acc i.dec ∧ q.p = wrap64 (p.p + q.v) ∧
      KernelEnds s u e v x.passOn (x.profWrites i p q))

/-- AXIS_IN and AXIS_OUT: AXIS_IN extends the position, scales velocity and angle and posts the sample tag on both ports; AXIS_OUT writes the record that the split names, or the stop
record, and the status record (R186, R190, R192, R193). Places of the library are the model's choice (log entry 50).
Any kernel or library operation in which the engine's self-check fails traps LOCKSTEP with TRAP_PC 0 (R642, Table 3.11). -/
def Obligations.AxisKernels : Prop :=
  (∀ (s : State) t (e : Fin 32) v m0 m1 still a0 a1 a2 a5 sh mul off vdc old oldTh tk r, s.KernelStarts e v isLibrary → (s.opSt v.key).toks = tk :: r →
    let x := s.kenv e v
    let c := fld x.w0 47 32 % 2
    let buf := cellMemAddr x.op.cell (x.w0.toNat % 2 ^ 20) + 8 * (1 + 6 * s.f (R.axis_CFG x.axis) 17 16)
    (∀ y ∈ [(x.block (0x20 * c), m0), (x.block (0x20 * c + 8), m1), (x.block (0x160 + 8 * c), still), (x.block 0x060, sh), (x.block 0x068, mul), (x.block 0x070, off),
      (x.block 0x078, vdc), (x.sig 0, old), (x.sig 8, oldTh)], s.Sees e v.key y.1 y.2) →
    (∀ y ∈ [(buf, (a0 : W64)), (buf + 8, a1), (buf + 16, a2), (buf + 40, a5)], s.farFail { host := false, addr := y.1 } = none ∧ s.copyTouch y.1 = s ∧
      (s.busRead .engine y.1 8).2 = .ok y.2.toNat) →
    s.Writable e v.key [x.sig 0, x.sig 5, x.sig 8, x.sig 9, x.sig 10, x.block 0x170, x.block 0x178, x.block 0x080] →
    Answers (.axisIn t e) s fun u =>
      let pos := extendPos (old.setWidth 48) (fld a0 31 0)
      let vel := (lane24 (rndDiv (pos - old.setWidth 48).toInt (2 ^ fld sh 5 0))).val
      let th := (fld a1 31 0 * fld mul 31 0 / 2 ^ fld sh 13 8 + fld off 23 0) % 2 ^ 24
      let dth : BitVec 24 := BitVec.ofNat 24 th - BitVec.ofNat 24 (angleOf (oldTh.setWidth 48))
      let tag := sampleTag (bit m0 1) (bit m0 0 && !bit still 0) x.axis (fld x.w0 47 32)
      KernelEnds s u e v (Tab.set (Tab.set [] 0 tag 0) 1 tag 0)
        [(x.sig 0, pos), (x.sig 5, laneWord vel), (x.sig 8, BitVec.ofNat 48 (th * 2 ^ 24)), (x.sig 9, laneWord dth.toInt),
         (x.sig 10, laneWord (busRatio (hiLane (vdc.setWidth 48)) (hiLane (a5.setWidth 48)))),
         (x.block 0x170, BitVec.ofNat 48 (fld a0 47 32 + fld a1 32 32 * 65536)), (x.block 0x178, extendPos pos (fld a2 31 0)),
         (x.block 0x080, BitVec.ofNat 48 (b2n ((m1.setWidth 48 : W48).toNat ≠ tk.at'.cyc % 2 ^ 48)))]) ∧
  (∀ (s : State) t (e : Fin 32) v m0 still pi ramp w10 w11 w12 pos ref late, s.KernelStarts e v isLibrary →
    let x := s.kenv e v
    let c := fld x.w0 32 32
    let cfg := s.rd (R.axis_CFG (fld x.w0 14 8))
    let win := s.ioArea (fld cfg 10 8) + 0x3000 + 64 * fld cfg 15 11 + 16 * fld cfg 17 16
    (∀ y ∈ [(x.block (0x20 * c), m0), (x.block (0x160 + 8 * c), still), (x.block 0x0A0, pi), (at8 (pi.setWidth 48) 9, ramp), (at8 (pi.setWidth 48) 10, w10),
      (at8 (pi.setWidth 48) 11, w11), (at8 (pi.setWidth 48) 12, w12), (x.sig 0, pos), (x.sig 1, ref), (x.block 0x080, late)], s.Sees e v.key y.1 y.2) →
    (bit m0 0 && x.enabled) = false → s.farFail { host := false, addr := win } = none → s.farFail { host := false, addr := win + 8 } = none →
    s.Writable e v.key [x.block 0x40, x.block 0x48, x.block 0x50, x.block 0x58] →
    (∀ va p, s.tlbLook (e / 4) (s.opCtx v.key).1 (s.opCtx v.key).2.1 va true (s.opCtx v.key).2.2 = .ok p → p.host = true ∨ (p.addr ≠ win ∧ p.addr ≠ win + 8)) →
    (∀ va p, s.tlbLook (e / 4) (s.opCtx v.key).1 (s.opCtx v.key).2.1 va false (s.opCtx v.key).2.2 = .ok p → p.host = true ∨ (p.addr ≠ win ∧ p.addr ≠ win + 8)) →
    Answers (.axisOut t e) s fun u =>
      KernelEnds s u e v []
        [(BitVec.ofNat 48 win, BitVec.ofNat 48 (if bit m0 0 && bit still 1 then 5 else 4)), (BitVec.ofNat 48 (win + 8), 0), (x.block 0x40, x.w0),
         (x.block 0x48, BitVec.ofNat 48 ((if bit m0 0 then 3 else 0) + fld late 0 0 * 2048)), (x.block 0x50, pos.setWidth 48), (x.block 0x58, ref.setWidth 48)]) ∧
  (∀ (s : State) t (e : Fin 32) v ci, s.top e = some v → s.fresh e v = true → ci ∈ kernelInstr t e false → ci.2 (s.opRec v.key) = true →
    s.b (R.engine_TRAP_STAT e) 0 = false → Answers ci.1 s fun u => Locksteps s t u e 0)

/-- PCMD_START, PCMD_STOP, PCMD_FLUSH, HOME_GO, WAKE, PCMD_CLEAR, RING_PUT and AXIS_MIRROR_WRITE: a profile command waits for its boundary and replaces one that
waits; RING_PUT publishes n segments and takes n credits, or sets OVER where n is above 256 or the credit; a bound page writes its mirror copies of the cycle
(R189, R220, R222, R225, R234 to R236). -/
def Obligations.AxisPageCommands : Prop :=
  (∀ (s : State) t m (a : Fin 128) (i : Instr) c, s.takes m (R.axis_PCMD a) = true →
    (i, c) ∈ [(Instr.pcmdStart t m a, 1), (.pcmdStop t m a, 2), (.pcmdFlush t m a, 3), (.homeGo t m a, 4), (.wake t m a, 5), (.pcmdClear t m a, 6)] →
    Answers i s fun u => u.axSt a = { s.axSt a with cmd := some (c, u.now) } ∧ (∀ b, b ≠ a.val → u.axSt b = s.axSt b) ∧ Frame s u [] { s.rest with ax := u.ax }) ∧
  (∀ (s : State) t m (a : Fin 128) (n : BitVec 9), s.takes m (R.axis_RING_PUT a) = true → 0 < n.toNat → n.toNat ≤ 256 → n.toNat ≤ s.ringCredit a →
    Answers (.ringPut t m a n) s fun u =>
      u.f (R.axis_RING_STAT a) 15 0 = (s.f (R.axis_RING_STAT a) 15 0 + n.toNat) % 65536 ∧ u.f (R.axis_RING_STAT a) 31 16 = s.f (R.axis_RING_STAT a) 31 16 ∧
      u.axSt a = { s.axSt a with res := ((s.axSt a).res + n.toNat) % 65536 } ∧
      u.ringCredit a = (s.f (R.axis_RING_LEN a) 10 0 -
        ((65536 + ((s.axSt a).res + n.toNat) % 65536 - s.f (R.axis_RING_STAT a) 31 16) % 65536 - (s.axSt a).free.length)) % 2048 ∧
      u.b (R.axis_RING_CREDIT a) 16 = s.b (R.axis_RING_CREDIT a) 16 ∧
      Frame s u [R.axis_RING_STAT a, R.axis_RING_CREDIT a] { s.rest with ax := u.ax }) ∧
  (∀ (s : State) t m (a : Fin 128) (n : BitVec 9), s.takes m (R.axis_RING_PUT a) = true → 0 < n.toNat → (256 < n.toNat ∨ s.ringCredit a < n.toNat) →
    Answers (.ringPut t m a n) s fun u => u.b (R.axis_RING_CREDIT a) 16 = true ∧ u.ringCredit a = s.ringCredit a ∧ Frame s u [R.axis_RING_CREDIT a] s.rest) ∧
  (∀ (s : State) t (a : Fin 128), s.axBound a = true → s.cycling = true → (s.axSt a).mirrored ≠ some s.cycle →
    (∀ x, (s.axBlock a ≤ x ∧ x < s.axBlock a + 0x180) ∨ (s.profBlock a ≤ x ∧ x < s.profBlock a + 0x120) → s.phys x = some x) →
    s.axBlock a % 8 = 0 → s.profBlock a % 8 = 0 → (s.axBlock a + 0x180 ≤ s.profBlock a ∨ s.profBlock a + 0x120 ≤ s.axBlock a) →
    Answers (.axisMirrorWrite t a) s fun u =>
      let n := s.cycle % 2
      (∀ i x, (s.mirrorWords a)[i]? = some x → u.le (s.axBlock a + 0x20 * n + 8 * i) 8 = x % 2 ^ 64) ∧
      (∀ i x, (s.profMirrorWords a)[i]? = some x → u.le (s.profBlock a + 96 + 96 * n + 8 * i) 8 = x % 2 ^ 64) ∧
      u.le (s.axBlock a + 0x160 + 8 * n) 8 = s.f (R.axis_PSTAT a) 4 4 + s.f (R.axis_PMODE a) 9 9 * 2 ∧ (u.axSt a).mirrored = some s.cycle ∧
      (∀ x, ¬(s.axBlock a ≤ x ∧ x < s.axBlock a + 0x180) → ¬(s.profBlock a ≤ x ∧ x < s.profBlock a + 0x120) → u.byte x = s.byte x) ∧ RegsKept s u [] ∧
      u.rest = { s.rest with ax := u.ax, mem := u.mem, ecc := u.ecc })

/-- QE_TRANSITION, ILLEGAL_TRANSITION, INDEX and ARM_IDX: an accepted transition counts POS up or down by 1 and ANG within the modulus, in the direction of A against B; an
illegal one counts nothing and is recorded; the index latches POS and ANG, and its end shows in QSTAT alone (R287); ARM_IDX arms it (R253 to R257). LP_SOURCE_LOST, LP_BROADCAST_RECEIVE and ANGLE_EVENT_FIRE: a source that
is lost stands still and says so; a broadcast is kept by the sources that follow it; a unit that is due fires once, is counted and stays pending only with a period, X advanced by
it (R262, R269 to R271). -/
def Obligations.LinePositionCommands : Prop :=
  (∀ (s : State) t (q : Fin 8) onB level stamp, s.blockInReset 0x09 = false → s.qeRetired q = false → s.qeEn q = true →
    s.b (R.qe_QSTAT q) (b2n onB) = !level →
    Answers (.qeTransition t q onB level stamp) s fun u =>
      let up := qeUp onB level (s.b (R.qe_QSTAT q) 0) (s.b (R.qe_QSTAT q) 1) (s.b (R.qe_QCFG q) 9)
      let ang := (s.rd (R.qe_ANG q)).toNat
      let m := (s.rd (R.qe_MOD_M1 q)).toNat
      u.rd (R.qe_POS q) = (if up then s.rd (R.qe_POS q) + 1 else s.rd (R.qe_POS q) - 1) ∧
      u.rd (R.qe_ANG q) = BitVec.ofNat 32 (if up then (if m ≤ ang then 0 else ang + 1) else if ang = 0 then m else ang - 1) ∧
      u.b (R.qe_QSTAT q) (b2n onB) = level ∧ u.b (R.qe_QSTAT q) 3 = !up ∧ Tab.get u.lp.edge q 0 = stamp ∧
      (∀ c, c < 8 → s.cmpSrc c = q → s.cmpLp c = false → bit (s.cmpCfg c) 0 = true → (s.cmp c).judged = true → (s.cmp c).reached = false →
        (u.cmp c).reached = (s.cmp c).list.head?.any fun x => (x.2 = 0 || x.2 = if up then 1 else 2) && x.1.toNat / 65536 = (u.cmpCount c).toNat) ∧
      Frame s u ([R.qe_QSTAT q, R.qe_POS q, R.qe_ANG q] ++ irqRegs (P.qe q) ++ ((List.range 8).flatMap fun c => [R.cmp_CSTAT c, R.cmp_CNT c]) ++ irqRegs P.cmp)
        { s.rest with lp := u.lp, fd := u.fd }) ∧
  (∀ a b, qeUp false (!a) a b false = (a == b) ∧ qeUp true (!b) a b false = (a != b) ∧ qeUp false (!a) a b true = (a != b) ∧ qeUp true (!b) a b true = (a == b)) ∧
  (∀ (s : State) t (q : Fin 8), s.blockInReset 0x09 = false → s.qeRetired q = false → s.qeEn q = true → (s.fdCh 6 q).perm = false → (s.fdCh 6 q).lastGood = false →
    (s.fdCh 6 q).level + 1 < s.fdLimit 6 →
    Answers (.illegalTransition t q) s fun u =>
      u.b (R.qe_QSTAT q) 0 = !s.b (R.qe_QSTAT q) 0 ∧ u.b (R.qe_QSTAT q) 1 = !s.b (R.qe_QSTAT q) 1 ∧ u.b (R.qe_QSTAT q) 8 = true ∧
      u.f (R.qe_ILL_CNT q) 15 0 = min (s.f (R.qe_ILL_CNT q) 15 0 + 1) 65535 ∧ u.b (R.IRQ_STAT (P.qe q)) 8 = true ∧
      (u.fdCh 6 q).level = (s.fdCh 6 q).level + 1 ∧ (u.fdCh 6 q).good = 0 ∧
      Frame s u ([R.qe_QSTAT q, R.qe_ILL_CNT q] ++ irqRegs (P.qe q)) { s.rest with fd := u.fd }) ∧
  (∀ (s : State) t (q : Fin 8), s.blockInReset 0x09 = false → s.qeRetired q = false → s.b (R.qe_QCFG q) 8 = true → (s.b (R.qe_QCFG q) 12 = true → s.b (R.qe_QSTAT q) 10 = true) →
    Answers (.index t q) s fun u =>
      u.rd (R.qe_IDX_POS q) = s.rd (R.qe_POS q) ∧ u.rd (R.qe_IDX_ANG q) = s.rd (R.qe_ANG q) ∧ u.b (R.qe_QSTAT q) 9 = true ∧ u.b (R.qe_QSTAT q) 2 = !s.b (R.qe_QCFG q) 10 ∧
      u.f (R.qe_ILL_CNT q) 31 16 = min (s.f (R.qe_ILL_CNT q) 31 16 + 1) 65535 ∧ u.b (R.IRQ_STAT (P.qe q)) 9 = true ∧
      (s.b (R.qe_QCFG q) 12 = true → u.b (R.qe_QSTAT q) 10 = false) ∧ u.rd (R.qe_ANG q) = (if s.b (R.qe_QCFG q) 11 then 0 else s.rd (R.qe_ANG q)) ∧
      Frame s u ([R.qe_QSTAT q, R.qe_IDX_POS q, R.qe_IDX_ANG q, R.qe_ILL_CNT q, R.qe_ANG q] ++ irqRegs (P.qe q)) s.rest) ∧
  (∀ (s : State) t (q : Fin 8), s.blockInReset 0x09 = false →
    Answers (.index t q false) s fun u => u.b (R.qe_QSTAT q) 2 = s.b (R.qe_QCFG q) 10 ∧ Frame s u [R.qe_QSTAT q] s.rest) ∧
  (∀ (s : State) t m (q : Fin 8), s.takes m (R.qe_QCMD q) = true →
    Answers (.armIdx t m q) s fun u => u.rd (R.qe_QSTAT q) = s.rd (R.qe_QSTAT q) ||| 0x400 ∧ Frame s u [R.qe_QSTAT q] s.rest) ∧
  (∀ (s : State) t (l : Fin 4), (s.tick t).lpGone l = true →
    Answers (.lpSourceLost t l) s fun u => u.lpLost l = true ∧ u.lpVel l = 0 ∧ u.lpAcc l = 0 ∧ u.b (R.IRQ_STAT P.lpSrc) (8 + l) = true ∧ u.lpk l = s.lpk l ∧ MemKept s u) ∧
  (∀ (s : State) l, s.lpGone l = true ↔ s.lpLost l = false ∧ ((s.lpKind l = 1 ∧ s.qeRetired (s.f (R.lpSrc_LPCFG l) 14 8) = true) ∨
    ((s.lpKind l = 3 ∨ s.lpKind l = 4) ∧ 4 ≤ (s.lpSrc l).miss))) ∧
  (∀ (s : State) t dev (l : Fin 4) st, s.blockInReset 0x09 = false →
    Answers (.lpBroadcastReceive t dev l st) s fun u =>
      (∀ n, n < 4 → u.lpSrc n = if s.lpKind n = 3 ∧ s.f (R.lpSrc_LPCFG n) 14 8 = dev.toNat ∧ s.f (R.lpSrc_LPCFG n) 17 16 = l.val then { s.lpSrc n with cast := some st }
        else s.lpSrc n) ∧ Frame s u [] { s.rest with lp := u.lp }) ∧
  (∀ (s : State) t (k : Fin 256), (s.tick t).aeReady k = true → s.pairMode = false → s.graph = none → fld (s.aeCfg k) 31 8 = 0 →
    Answers (.angleEventFire t k) s fun u =>
      u.aePend k = false ∧ u.b (aeStatAddr k) 1 = false ∧ u.f (aeStatAddr k) 31 16 = min (s.f (aeStatAddr k) 31 16 + 1) 65535 ∧ u.aeX k = s.aeX k ∧
      (bit (s.aeCfg k) 5 = true → u.b (R.ae_AE_FIRED (aePg k) (aeIx k / 32)) (aeIx k % 32) = true ∧ u.b (R.IRQ_STAT (P.ae (aePg k))) 8 = true) ∧
      Frame s u ([aeStatAddr k, R.ae_AE_FIRED (aePg k) (aeIx k / 32)] ++ irqRegs (P.ae (aePg k))) { s.rest with lp := u.lp }) ∧
  (∀ (s : State) t (k : Fin 256), (s.tick t).aeReady k = true → s.pairMode = false → s.graph = none → fld (s.aeCfg k) 31 8 ≠ 0 →
    let sg := s.lpDir (fld (s.aeCfg k) 2 1) (fld (s.aeCfg k) 4 3)
    let x := s.aeX k + w48 (sg * fld (s.aeCfg k) 31 8 * 65536)
    0 ≤ sg * (x - s.lpk (fld (s.aeCfg k) 2 1)).toInt →
    Answers (.angleEventFire t k) s fun u =>
      u.aePend k = true ∧ u.aeX k = x ∧ u.f (aeStatAddr k) 31 16 = min (s.f (aeStatAddr k) 31 16 + 1) 65535 ∧
      Frame s u ([aeStatAddr k, R.ae_AE_FIRED (aePg k) (aeIx k / 32), R.ae_X_LO (aePg k) (aeIx k), R.ae_X_LO (aePg k) (aeIx k) + 4] ++ irqRegs (P.ae (aePg k)))
        { s.rest with lp := u.lp })

/-- COMPARE_PUSH, COMPARE_FLUSH, COMPARE_FORCE, COMPARE_REACH and PULSE_END: a position is appended, at most 256 of them; FLUSH empties the list; FORCE pulses at once;
a head that is reached is consumed, counted and pulses for PW samples of 4 ns; the pulse ends (R275, R276, R279). -/
def Obligations.CompareCommands : Prop :=
  (∀ (s : State) t m (c : Fin 8) (lo : Option W32) hi, s.takes m (R.cmp_PUSH_HI c) = true → (s.cmp c).list.length < 256 → bit (s.cmpCfg c) 0 = false → s.cmpMod c = false →
    Answers (.comparePush t m c lo hi) s fun u =>
      (u.cmp c).list = (s.cmp c).list ++ [(BitVec.ofNat 48 ((lo.getD (s.cmp c).lo).toNat + fld hi 15 0 * 2 ^ 32), fld hi 17 16)] ∧
      u.f (R.cmp_CSTAT c) 8 0 = (s.cmp c).list.length + 1 ∧ (∀ d, d ≠ c.val → u.cmp d = s.cmp d) ∧ Frame s u [R.cmp_CSTAT c] { s.rest with lp := u.lp }) ∧
  (∀ (s : State) t m (c : Fin 8) (lo : Option W32) hi, s.takes m (R.cmp_PUSH_HI c) = true → 256 ≤ (s.cmp c).list.length →
    Answers (.comparePush t m c lo hi) s fun u =>
      (u.cmp c).list = (s.cmp c).list ∧ u.b (R.cmp_CSTAT c) 17 = true ∧ u.b (R.IRQ_STAT P.cmp) (8 + c) = true ∧
      Frame s u (R.cmp_CSTAT c :: irqRegs P.cmp) { s.rest with lp := u.lp }) ∧
  (∀ (s : State) t m (c : Fin 8), s.takes m (R.cmp_CMD c) = true →
    Answers (.compareFlush t m c) s fun u =>
      (u.cmp c).list = [] ∧ u.f (R.cmp_CSTAT c) 8 0 = 0 ∧ u.b (R.cmp_CSTAT c) 24 = false ∧ (u.cmp c).pulse = (s.cmp c).pulse ∧
      (∀ d, d ≠ c.val → u.cmp d = s.cmp d) ∧ Frame s u [R.cmp_CSTAT c] { s.rest with lp := u.lp }) ∧
  (∀ (s : State) t m (c : Fin 8), s.takes m (R.cmp_CMD c) = true →
    Answers (.compareForce t m c) s fun u =>
      u.cmp c = { s.cmp c with pulse := some (u.now + 48 * s.f (R.cmp_PW c) 19 0) } ∧ u.b (R.cmp_CSTAT c) 25 = true ∧
      u.out.head? = some (.cmpOut c ((!s.isStandby && !s.cmpStopped c) != bit (s.cmpCfg c) 8)) ∧ (∀ d, d ≠ c.val → u.cmp d = s.cmp d) ∧ Frame s u [R.cmp_CSTAT c] { s.rest with lp := u.lp }) ∧
  (∀ (s : State) t (c : Fin 8) e, (s.tick t).cmpDue c = true → (s.cmp c).list = [e] → (bit (s.cmpCfg c) 6 && s.cmpMod c) = false → (s.cmp c).pulse = none →
    Answers (.compareReach t c) s fun u =>
      (u.cmp c).list = [] ∧ (u.cmp c).reached = false ∧ (u.cmp c).pulse = some (u.now + 48 * s.f (R.cmp_PW c) 19 0) ∧ u.b (R.cmp_CSTAT c) 25 = true ∧
      u.b (R.cmp_CSTAT c) 24 = false ∧ u.f (R.cmp_CNT c) 15 0 = min (s.f (R.cmp_CNT c) 15 0 + 1) 65535 ∧
      Frame s u [R.cmp_CSTAT c, R.cmp_CNT c] { s.rest with lp := u.lp }) ∧
  (∀ (s : State) t (c : Fin 8) e, (s.cmp c).pulse = some e → e ≤ (s.tick t).now →
    Answers (.pulseEnd t c) s fun u => u.cmp c = { s.cmp c with pulse := none } ∧ u.b (R.cmp_CSTAT c) 25 = false ∧ u.out.head? = some (.cmpOut c (bit (s.cmpCfg c) 8)) ∧
      Frame s u [R.cmp_CSTAT c] { s.rest with lp := u.lp })

/-- TCMD_ARM, TCMD_ACK, TCMD_STOP, TCMD_FORCE, FILL_COMPLETE, CAPTURE_DONE and AUTO_TIMEOUT: the states of a trigger unit follow Table 11.4: ARM fills from IDLE, a filled unit is
ARMED, FORCE and the timeout trigger at once, and a complete capture is DONE, counted and signalled (R379 to R381); a command takes effect after a change of state that is due (R383);
one that the unit's state does not allow changes nothing. The trigger marks the latest sample in the buffer; where the unit has taken no sample while ARMED, its next one (the
model's choice, log entry 84). -/
def Obligations.TriggerCommands : Prop :=
  (∀ (s : State) t m (k : Fin 16), s.takes m (R.geyTrig_TCMD k) = true → s.tState k = 0 →
    Answers (.tcmdArm t m k) s fun u => u.tState k = (if s.tPre k = 0 then 2 else 1) ∧ (u.gtrig k).fill = 0 ∧ (u.gtrig k).primeR = false ∧ (u.gtrig k).primeF = false ∧
      u.b (gtStat k) 8 = false ∧ Frame s u [gtStat k] { s.rest with gey := u.gey }) ∧
  (∀ (s : State) t m (k : Fin 16), s.takes m (R.geyTrig_TCMD k) = true → s.tState k ≠ 0 → s.tFillDone k = false → s.tCaptured k = false →
    Answers (.tcmdArm t m k) s fun u => Frame s u [] s.rest) ∧
  (∀ (s : State) t m (k : Fin 16), s.takes m (R.geyTrig_TCMD k) = true → (s.tState k = 4 ∨ s.tCaptured k = true) →
    Answers (.tcmdAck t m k) s fun u =>
      u.tState k = (if s.f (R.geyTrig_TCFG k) 14 13 = 1 then 0 else if s.tPre k = 0 then 2 else 1) ∧ u.b (gtStat k) 8 = false ∧
      (s.tState k = 4 → Frame s u [gtStat k] { s.rest with gey := u.gey }) ∧
      (s.tCaptured k = true → u.f (R.geyTrig_CAPT k) 15 0 = min (s.f (R.geyTrig_CAPT k) 15 0 + 1) 65535 ∧ u.b (R.IRQ_STAT P.geyTrig) (8 + k) = true ∧
        Frame s u ([gtStat k, R.geyTrig_CAPT k] ++ irqRegs P.geyTrig) { s.rest with gey := u.gey })) ∧
  (∀ (s : State) t m (k : Fin 16), s.takes m (R.geyTrig_TCMD k) = true → s.tState k ≠ 4 → s.tFillDone k = false → s.tCaptured k = false →
    Answers (.tcmdAck t m k) s fun u => Frame s u [] s.rest) ∧
  (∀ (s : State) t m (k : Fin 16), s.takes m (R.geyTrig_TCMD k) = true → s.tFillDone k = false → s.tCaptured k = false →
    Answers (.tcmdStop t m k) s fun u => u.tState k = 0 ∧ u.gtrig k = s.gtrig k ∧ Frame s u [gtStat k] s.rest) ∧
  (∀ (s : State) t m (k : Fin 16), s.takes m (R.geyTrig_TCMD k) = true → s.tFillDone k = true →
    Answers (.tcmdStop t m k) s fun u => u.tState k = 0 ∧ (u.gtrig k).fill = (s.gtrig k).fill ∧ Frame s u [gtStat k] { s.rest with gey := u.gey }) ∧
  (∀ (s : State) t m (k : Fin 16), s.takes m (R.geyTrig_TCMD k) = true → s.tCaptured k = true →
    Answers (.tcmdStop t m k) s fun u => u.tState k = 0 ∧ u.f (R.geyTrig_CAPT k) 15 0 = min (s.f (R.geyTrig_CAPT k) 15 0 + 1) 65535 ∧
      u.b (R.IRQ_STAT P.geyTrig) (8 + k) = true ∧ Frame s u ([gtStat k, R.geyTrig_CAPT k] ++ irqRegs P.geyTrig) s.rest) ∧
  (∀ (s : State) t m (k : Fin 16), s.takes m (R.geyTrig_TCMD k) = true → (s.tState k = 2 ∨ s.tFillDone k = true) → s.tPre k < (s.gtrig k).fill →
    let i := ((s.gtrig k).idx + 2 * s.tLen k - 1) % s.tLen k
    s.eccAt (s.tWord k i) = .good →
    Answers (.tcmdForce t m k) s fun u =>
      u.tState k = 3 ∧ u.b (gtStat k) 8 = true ∧ u.rd (R.geyTrig_TRIG_IDX k) = BitVec.ofNat 32 i ∧ u.rd48 (R.geyTrig_TRIG_T_LO k) = (s.gtrig k).lastT ∧
      (u.gtrig k).post = s.tPost k - 1 ∧ u.le (s.tWord k i) 4 = (setFld (BitVec.ofNat 32 (s.le (s.tWord k i) 4)) 25 25 1).toNat ∧
      (∀ a, a < s.tWord k i ∨ s.tWord k i + 4 ≤ a → u.byte a = s.byte a) ∧
      RegsKept s u [gtStat k, R.geyTrig_TRIG_IDX k, R.geyTrig_TRIG_T_LO k, R.geyTrig_TRIG_T_LO k + 4] ∧ u.rest = { s.rest with gey := u.gey, mem := u.mem }) ∧
  (∀ (s : State) t m (k : Fin 16), s.takes m (R.geyTrig_TCMD k) = true → (s.tState k = 2 ∨ s.tFillDone k = true) → (s.gtrig k).fill ≤ s.tPre k →
    Answers (.tcmdForce t m k) s fun u => u.tState k = 3 ∧ u.b (gtStat k) 8 = true ∧ (u.gtrig k).onNext = true ∧ Frame s u [gtStat k] { s.rest with gey := u.gey }) ∧
  (∀ (s : State) t m (k : Fin 16), s.takes m (R.geyTrig_TCMD k) = true → s.tState k ≠ 2 → s.tFillDone k = false → s.tCaptured k = false →
    Answers (.tcmdForce t m k) s fun u => Frame s u [] s.rest) ∧
  (∀ (s : State) t (k : Fin 16), s.tState k = 1 → s.tPre k ≤ (s.gtrig k).fill →
    Answers (.fillComplete t k) s fun u => u.tState k = 2 ∧ (u.gtrig k).armed = s.cycle ∧ (u.gtrig k).fill = (s.gtrig k).fill ∧
      Frame s u [gtStat k] { s.rest with gey := u.gey }) ∧
  (∀ (s : State) t (k : Fin 16), s.tFillDone k = false → Answers (.fillComplete t k) s fun u => Frame s u [] s.rest) ∧
  (∀ (s : State) t (k : Fin 16), s.tState k = 3 → (s.gtrig k).post = 0 → (s.gtrig k).onNext = false →
    Answers (.captureDone t k) s fun u => u.tState k = 4 ∧ u.f (R.geyTrig_CAPT k) 15 0 = min (s.f (R.geyTrig_CAPT k) 15 0 + 1) 65535 ∧
      u.b (R.IRQ_STAT P.geyTrig) (8 + k) = true ∧ Frame s u ([gtStat k, R.geyTrig_CAPT k] ++ irqRegs P.geyTrig) s.rest) ∧
  (∀ (s : State) t (k : Fin 16), s.tCaptured k = false → Answers (.captureDone t k) s fun u => Frame s u [] s.rest) ∧
  (∀ (s : State) t (k : Fin 16), s.tState k = 2 → s.f (R.geyTrig_TCFG k) 14 13 = 2 → (s.gtrig k).armed + s.f (R.geyTrig_TMO k) 15 0 ≤ s.cycle →
    s.tPre k < (s.gtrig k).fill →
    let i := ((s.gtrig k).idx + 2 * s.tLen k - 1) % s.tLen k
    s.eccAt (s.tWord k i) = .good →
    Answers (.autoTimeout t k) s fun u =>
      u.tState k = 3 ∧ u.rd (R.geyTrig_TRIG_IDX k) = BitVec.ofNat 32 i ∧ u.rd48 (R.geyTrig_TRIG_T_LO k) = (s.gtrig k).lastT ∧ (u.gtrig k).post = s.tPost k - 1 ∧
      u.b (gtStat k) 8 = s.b (gtStat k) 8 ∧ u.le (s.tWord k i) 4 = (setFld (BitVec.ofNat 32 (s.le (s.tWord k i) 4)) 25 25 1).toNat ∧
      (∀ a, a < s.tWord k i ∨ s.tWord k i + 4 ≤ a → u.byte a = s.byte a) ∧
      RegsKept s u [gtStat k, R.geyTrig_TRIG_IDX k, R.geyTrig_TRIG_T_LO k, R.geyTrig_TRIG_T_LO k + 4] ∧ u.rest = { s.rest with gey := u.gey, mem := u.mem }) ∧
  (∀ (s : State) t (k : Fin 16), s.tState k = 2 → s.f (R.geyTrig_TCFG k) 14 13 = 2 → (s.gtrig k).armed + s.f (R.geyTrig_TMO k) 15 0 ≤ s.cycle →
    (s.gtrig k).fill ≤ s.tPre k →
    Answers (.autoTimeout t k) s fun u => u.tState k = 3 ∧ (u.gtrig k).onNext = true ∧ Frame s u [gtStat k] { s.rest with gey := u.gey }) ∧
  (∀ (s : State) t (k : Fin 16), ¬(s.tState k = 2 ∧ s.f (R.geyTrig_TCFG k) 14 13 = 2 ∧ (s.gtrig k).armed + s.f (R.geyTrig_TMO k) 15 0 ≤ s.cycle) →
    Answers (.autoTimeout t k) s fun u => Frame s u [] s.rest)

/-- RESAMPLE_INTERVAL, BLOCK_CLOSE, RECORD_WRITE_DONE, RING_RD_WRITE and GEYSER_CLR_CNT: the oldest interval leaves, with its points emitted in order while they lie in it, each
interpolated between the interval's samples at the time the line position reaches it, one already passed at the interval's start and marked LATE; a repeated sample counts as a gap; a closed
block's record waits for its ring, and the channel's sequence number advances, or is dropped and counted where the ring is full; a record written is whole in its slot of shared
memory before RING_WR names it (R366, R370, R376 to R378). -/
def Obligations.AcquisitionCommands : Prop :=
  (∀ (s : State) t (c : Fin 256) v r, s.gEn c = true → (s.gch c).ivals = v :: r → s.gState c ≠ 1 → s.gState c ≠ 2 →
    Answers (.resampleInterval t c) s fun u => u.gch c = { s.gch c with ivals := r } ∧ Frame s u [] { s.rest with gey := u.gey }) ∧
  (∀ (s : State) t (c : Fin 256), (s.gEn c = false ∨ (s.gch c).ivals = []) → Answers (.resampleInterval t c) s fun u => Frame s u [] s.rest) ∧
  (∀ (s : State) t (c : Fin 256) v r, s.gEn c = true → (s.gch c).ivals = v :: r → (s.gState c = 1 ∨ s.gState c = 2) →
    0 < s.gSg c * (s.gPoint c (s.gch c).j - v.est.at v.est.tn).toInt →
    Answers (.resampleInterval t c) s fun u =>
      (u.gch c).ivals = r ∧ (u.gch c).j = (s.gch c).j ∧ u.gState c = s.gState c ∧
      (v.gap = false ∨ s.gState c = 1 → (u.gch c).blk = (s.gch c).blk ∧ (u.gch c).gapOwed = (s.gch c).gapOwed) ∧
      (v.gap = true → s.gState c = 2 → (∀ b, (s.gch c).blk = some b → (u.gch c).blk = some { b with gaps := min (b.gaps + 1) 65535 } ∧ (u.gch c).gapOwed = (s.gch c).gapOwed) ∧
        ((s.gch c).blk = none → (u.gch c).blk = none ∧ (u.gch c).gapOwed = (s.gch c).gapOwed + 1)) ∧
      Frame s u [] { s.rest with gey := u.gey }) ∧
  (∀ (s : State) t (c : Fin 256) v r, s.gEn c = true → (s.gch c).ivals = v :: r → (s.gState c = 1 ∨ s.gState c = 2) →
    let s0 := (s.tick t).setGch c { s.gch c with ivals := r }
    let s1 := s0.gPoints c v 0 (s0.gFuel c v)
    exec (.resampleInterval t c) s = .next (if v.gap then s1.gGapCount c else s1)) ∧
  (∀ (s : State) c v n, 0 < s.gSg c * (s.gPoint c (s.gch c).j - v.est.at v.est.tn).toInt → s.gStep c v n = none) ∧
  (∀ (s : State) c (v : GeyIval) n (late : Bool) k, let p := s.gPoint c (s.gch c).j
    s.gSg c * (p - v.est.at v.est.tn).toInt ≤ 0 → late = decide (s.gSg c * (p - v.est.lpk).toInt ≤ 0) →
    (if late then k = 0 else v.est.predict p (s.gSg c) 0 = some k) → n < s.f (gMode c) 31 28 →
    let s1 := (if s.gState c = 1 then s.setGState c 2 else s).gEmit c (v.x0 + rndDiv ((v.x1 - v.x0) * rndDiv ((2 * k * 2 ^ 23 : Nat) : Int) v.est.tn) (2 ^ 23)) false
      (if late then 16 else 0) (v.est.tk + BitVec.ofNat 48 (2 * k)) p
    s.gStep c v n = some (s1.setGch c { s1.gch c with j := (s.gch c).j + 1 })) ∧
  (∀ (s : State) t (c : Fin 256) b r, (s.gch c).closed = b :: r →
    s.ringPending (s.f (gMode c) 26 24) + (s.gring (s.f (gMode c) 26 24)).writing.length < s.ringLen (s.f (gMode c) 26 24) →
    Answers (.blockClose t c) s fun u =>
      let k := s.f (gMode c) 26 24
      (u.gch c).closed = r ∧ u.f (gStat c) 31 16 = (s.f (gStat c) 31 16 + 1) % 65536 ∧
      u.gring k = { writing := (s.gring k).writing ++ [gRecord c (s.f (gStat c) 31 16) b
        (b2n (s.gAngle c) + b.flags + b2n (b.gaps ≠ 0) * 8 + b2n (s.gring k).dropped * 128)], dropped := false } ∧
      Frame s u [gStat c] { s.rest with gey := u.gey, fd := u.fd }) ∧
  (∀ (s : State) t (c : Fin 256) b r, (s.gch c).closed = b :: r →
    s.ringLen (s.f (gMode c) 26 24) ≤ s.ringPending (s.f (gMode c) 26 24) + (s.gring (s.f (gMode c) 26 24)).writing.length →
    Answers (.blockClose t c) s fun u =>
      let k := s.f (gMode c) 26 24
      (u.gch c).closed = r ∧ u.f (gStat c) 31 16 = (s.f (gStat c) 31 16 + 1) % 65536 ∧ u.gring k = { s.gring k with dropped := true } ∧
      u.f (R.geyCommon_RING_DROP k) 15 0 = min (s.f (R.geyCommon_RING_DROP k) 15 0 + 1) 65535 ∧
      u.b (R.IRQ_STAT P.geyCommon) (16 + k) = true ∧ Frame s u ([gStat c, R.geyCommon_RING_DROP k] ++ irqRegs P.geyCommon) { s.rest with gey := u.gey, fd := u.fd }) ∧
  (∀ (s : State) t (c : Fin 256), (s.gch c).closed = [] → Answers (.blockClose t c) s fun u => Frame s u [] s.rest) ∧
  (∀ (s : State) t (r : Fin 8), (s.gring r).writing = [] → Answers (.recordWriteDone t r) s fun u => Frame s u [] s.rest) ∧
  (∀ (s : State) t (r : Fin 8) b l, (s.gring r).writing = b :: l → b.length = 64 →
    Answers (.recordWriteDone t r) s fun u =>
      let a := sharedAddr (s.f (R.geyCommon_RING_CFG r) 22 12 * 0x1000) + (s.rd (R.geyCommon_RING_WR r)).toNat % s.ringLen r * 64
      u.rd (R.geyCommon_RING_WR r) = s.rd (R.geyCommon_RING_WR r) + 1 ∧ u.bytes a 64 = b ∧ (u.gring r).writing = l ∧
      (∀ x, x < a ∨ a + 64 ≤ x → u.byte x = s.byte x) ∧
      ((s.rd (R.geyCommon_RING_WR r) + 1 - s.rd (R.geyCommon_RING_RD r)).toNat = s.f (R.geyCommon_RING_WM r) 16 0 → u.b (R.IRQ_STAT P.geyCommon) (8 + r) = true) ∧
      RegsKept s u (R.geyCommon_RING_WR r :: irqRegs P.geyCommon) ∧ u.rest = { s.rest with gey := u.gey, mem := u.mem, ecc := u.ecc }) ∧
  (∀ (c seq : Nat) b flags, (gRecord c seq b flags).length = 64) ∧
  (∀ (s : State) t m (r : Fin 8) val, s.takes m (R.geyCommon_RING_RD r) = true →
    Answers (.ringRdWrite t m r val) s fun u => u.rd (R.geyCommon_RING_RD r) = val ∧ Frame s u [R.geyCommon_RING_RD r] s.rest) ∧
  (∀ (s : State) t m, s.takes m (R.CTRL P.geyCommon) = true →
    Answers (.geyserClrCnt t m) s fun u => (∀ r, r < 8 → u.rd (R.geyCommon_RING_DROP r) = 0) ∧ Frame s u ((List.range 8).map R.geyCommon_RING_DROP) s.rest)

/-- COMMAND_WINDOW_WRITE, TRANSMIT_POINTER_REACH and FIELD_RELEASE: a word reaches the copy of its target frame, or the late copy once the pointer has passed; the pointer
forms the field from what came in time, and otherwise repeats the last full record as STALE, which is counted; a released field leaves with its sub-frame and CRC,
and the last one with the trailer, the CRC of the whole frame taken field by field; the window of a branch that is not enabled is memory (R24 to R26, R295, R301 to R310). -/
def Obligations.FieldCommands : Prop :=
  (∀ (s : State) t (w : WindowWriter) (b : Fin 8) (sl : Fin 24) (r : Fin 4) loc1 v, s.brEn b = true → s.blockInReset b = false →
    (∀ m, w = .other m → s.barOpen m = true ∧ s.pairDiscards m = false) →
    Answers (.commandWindowWrite t w b sl r loc1 v) s fun u =>
      let k := s.targetFrame w b sl
      let i := 2 * r.val + b2n loc1
      let old := s.slot b sl
      let new := u.slot b sl
      (if s.frameOver b sl k then Tab.get new.late i none = some (v, ecyc u.now) ∧ (∀ j, j ≠ i → Tab.get new.late j none = Tab.get old.late j none) ∧ new = { old with late := new.late }
       else Tab.get (new.copy k) i none = some (v, ecyc u.now) ∧ (∀ j, j ≠ i → Tab.get (new.copy k) j none = Tab.get (old.copy k) j none) ∧
         new = old.setCopy k (new.copy k)) ∧
      (∀ b' sl', (b', sl') ≠ (b.val, sl.val) → u.slot b' sl' = s.slot b' sl') ∧ Frame s u [] { s.rest with br := u.br }) ∧
  (∀ (s : State) t (e : Fin 32) (b : Fin 8) (sl : Fin 24) (r : Fin 4) loc1 v, (s.brEn b = false ∨ s.blockInReset b = true) →
    let a := s.ioArea b + 0x3000 + 64 * sl + 16 * r + 8 * b2n loc1
    exec (.commandWindowWrite t (.engine e) b sl r loc1 v) s = .next ((s.tick t).busWrite .engine a 8 (v.signExtend 64).toNat).1) ∧
  (∀ (s : State) t (b : Fin 8) (sl : Fin 24), s.pointerRuns b = true → sl.val < s.nSlots b → (s.slot b sl).past s.cycle = false →
    s.at4 (s.release4 b sl - 128) ≤ (s.tick t).now →
    Answers (.transmitPointerReach t b sl) s fun u =>
      let x := s.slot b sl
      let full : FieldCopy := (x.copy s.cycle).filter fun e => e.2.any fun p => p.2 < ecyc u.now
      let late : FieldCopy := (x.copy s.cycle).filter fun e => !(e.2.any fun p => p.2 < ecyc u.now)
      let y := u.slot b sl
      y.reached = some s.cycle ∧ y.released = false ∧ y.copy s.cycle = [] ∧ y.late = late ∧ y.fresh = s.copyFull b sl full ∧
      y.held = (if s.copyFull b sl full then s.boundCopy b sl full else if s.copyFull b sl x.late then s.boundCopy b sl x.late else x.held) ∧
      y.recs = s.recWords b sl y.held ∧ y.formed = s.fieldHead b sl (!y.fresh) y.recs ∧
      (s.sending b = true → y.fresh = false →
        u.f (R.branch_SLOT_STAT b sl) 31 16 = min (s.f (R.branch_SLOT_STAT b sl) 31 16 + 1) 65535 ∧
        u.f R.crater_MISS_TOT 31 0 = min (s.f R.crater_MISS_TOT 31 0 + 1) (2 ^ 32 - 1) ∧ u.b (R.IRQ_STAT (P.branch b)) 8 = true ∧
        (s.pairMode = false → u.f (R.sinNode_NSSTAT b sl) 7 0 = min (s.f (R.sinNode_NSSTAT b sl) 7 0 + 1) 255)) ∧
      (s.sending b = true → y.fresh = true → RegsKept s u [R.sinNode_NSSTAT b sl] ∧ (s.pairMode = false → u.f (R.sinNode_NSSTAT b sl) 7 0 = 0)) ∧
      (s.sending b = false → RegsKept s u []) ∧
      Frame s u ([R.branch_SLOT_STAT b sl, R.crater_MISS_TOT, R.sinNode_NSSTAT b sl, R.sinNode_NSMISS b sl] ++ irqRegs (P.branch b)) { s.rest with br := u.br, sin := u.sin }) ∧
  (∀ (s : State) t (b : Fin 8) (sl : Fin 24), s.pointerRuns b = true → sl.val < s.nSlots b → (s.slot b sl).past s.cycle = true → (s.slot b sl).released = false →
    s.at4 (s.release4 b sl) ≤ (s.tick t).now →
    Answers (.fieldRelease t b sl) s fun u =>
      let x := s.slot b sl
      u.slot b sl = { x with released := true, listen := if bit (x.formed.getD 0 0) 2 then x.listen - 1 else x.listen } ∧
      (s.safetyNode b sl = true → (u.conn b sl).seq = (s.conn b sl).seq + 1 ∧ (u.conn b sl).first = false ∧
        fld (u.conn b sl).down 15 0 = ((s.conn b sl).seq + 1).toNat ∧ fld (u.conn b sl).down 23 16 = s.stoBits b sl) ∧
      (s.safetyNode b sl = false → (u.conn b sl).down = 0 ∧ (u.conn b sl).seq = (s.conn b sl).seq) ∧
      let body := x.formed ++ natLe 16 (u.conn b sl).down.toNat
      let field := body ++ natLe 4 (crc32 body).toNat
      let sum := crcAdd (s.branch b).sum field
      (s.sending b = true → (u.branch b).sum = sum ∧
        u.out = if sl.val + 1 = s.nSlots b then .trailer b (natLe 4 (sum ^^^ 0xFFFFFFFF).toNat) :: .field b sl field :: s.out else .field b sl field :: s.out) ∧
      (s.sending b = false → u.out = s.out) ∧
      (s.sending b = true → sl.val + 1 = s.nSlots b → (u.branch b).efdAt = some (s.at4 (s.release4 b sl) + nsT (4 * s.flen b + 20))) ∧
      Frame s u [] { s.rest with br := u.br, sin := u.sin }) ∧
  (∀ l, crc32 l = crcAdd 0xFFFFFFFF l ^^^ 0xFFFFFFFF) ∧ (∀ c l m, crcAdd (crcAdd c l) m = crcAdd c (l ++ m))

/-- SLOT_FRAME_RECEIVE, SLOT_END_TRUNCATE, WINDOW_CLOSE_MISSING and TALEIR_RECEIVER_LOCK_LOSS: a frame is judged as the slot in whose window its SFD falls; one that fits is accepted
once and its data words fill the slot buffer of the cycle's parity; a bad check, a frame that does not fit, and one still arriving at the end of its slot are counted
and change no data; an overrunning or stray frame relieves the window that follows; a window without an SFD is counted missing (R313 to R317, R353, R354, R359). -/
def Obligations.SlotFrames : Prop :=
  (∀ (s : State) t (b : Fin 8) f sl, s.driven b = true → s.windowSlot b f = some sl → f.efd ≤ s.slotEnd b sl → f.fin = .good → s.frameFits b sl f = true →
    s.shutOut b sl = false → (s.slot b sl).accepted = false →
    Answers (.slotFrameReceive t b f) s fun u =>
      let n := fld (f.words.getD 0 0) 47 40
      u.slot b sl = { s.slot b sl with
        sfdSeen := true, accepted := true, req := if n = 0 ∨ 128 < n then none else some (fld (f.words.getD 0 0) 39 32, n) } ∧
      (u.branch b).anyAccepted = true ∧ (∀ b', b' ≠ b.val → u.branch b' = s.branch b')) ∧
  (∀ (s : State) t (b : Fin 8) f sl, s.driven b = true → s.windowSlot b f = some sl → f.efd ≤ s.slotEnd b sl → f.fin = .good → s.frameFits b sl f = true →
    s.shutOut b sl = false → (s.slot b sl).accepted = false → s.boundAxes b sl = [] → s.gChans = [] → s.arcsOf 1 (b * 32 + sl) = [] →
    (∀ x, cellMemAddr (s.branchCell b) (s.slotOff b sl) ≤ x → x < cellMemAddr (s.branchCell b) (s.slotOff b sl) + 8 * f.words.length → s.phys x = some x) →
    s.slotOff b sl % 8 = 0 →
    Answers (.slotFrameReceive t b f) s fun u =>
      let a := cellMemAddr (s.branchCell b) (s.slotOff b sl)
      (∀ i (w : W48), f.words[i]? = some w → u.word48 (a + 8 * i) = w) ∧ (∀ x, x < a ∨ a + 8 * f.words.length ≤ x → u.byte x = s.byte x)) ∧
  (∀ (s : State) t (b : Fin 8) f sl, (s.driven b || decide (s.bstate b = 7)) = true → s.windowSlot b f = some sl → f.efd ≤ s.slotEnd b sl → f.fin = .badCheck →
    Answers (.slotFrameReceive t b f) s fun u =>
      u.slot b sl = { s.slot b sl with sfdSeen := true } ∧ u.f (R.branch_CNT_ERR b) 15 0 = min (s.f (R.branch_CNT_ERR b) 15 0 + 1) 65535 ∧
      u.b (R.IRQ_STAT (P.branch b)) 10 = true ∧ Frame s u (R.branch_CNT_ERR b :: irqRegs (P.branch b)) { s.rest with br := u.br }) ∧
  (∀ (s : State) t (b : Fin 8) f sl, (s.driven b || decide (s.bstate b = 7)) = true → s.windowSlot b f = some sl → f.efd ≤ s.slotEnd b sl → (f.fin = .aborted ∨ f.fin = .cut) →
    Answers (.slotFrameReceive t b f) s fun u =>
      u.slot b sl = { s.slot b sl with sfdSeen := true } ∧ u.f (R.branch_CNT_WIN b) 31 16 = min (s.f (R.branch_CNT_WIN b) 31 16 + 1) 65535 ∧
      Frame s u [R.branch_CNT_WIN b] { s.rest with br := u.br }) ∧
  (∀ (s : State) t (b : Fin 8) f sl, (s.driven b || decide (s.bstate b = 7)) = true → s.windowSlot b f = none → s.namedSlot b f = some sl →
    Answers (.slotFrameReceive t b f) s fun u =>
      (u.slot b sl).violation = true ∧ (∀ j, s.nextWindow b sl = some j → (u.slot b j).relieved = true) ∧
      u.f (R.branch_SLOT_STAT b sl) 7 0 = (if (s.slot b sl).relieved then s.f (R.branch_SLOT_STAT b sl) 7 0 else min (s.f (R.branch_SLOT_STAT b sl) 7 0 + 1) 255) ∧
      u.b (R.IRQ_STAT (P.branch b)) 9 = true ∧ Frame s u (R.branch_SLOT_STAT b sl :: irqRegs (P.branch b)) { s.rest with br := u.br }) ∧
  (∀ (s : State) t (b : Fin 8) f sl, (s.driven b || decide (s.bstate b = 7)) = true → s.windowSlot b f = some sl → f.efd ≤ s.slotEnd b sl → f.fin = .good → s.frameFits b sl f = false →
    Answers (.slotFrameReceive t b f) s fun u =>
      u.slot b sl = { s.slot b sl with sfdSeen := true } ∧ u.f (R.branch_CNT_ERR b) 31 16 = min (s.f (R.branch_CNT_ERR b) 31 16 + 1) 65535 ∧
      Frame s u [R.branch_CNT_ERR b] { s.rest with br := u.br }) ∧
  (∀ (s : State) t (b : Fin 8) f, (s.driven b || decide (s.bstate b = 7)) = true → s.windowSlot b f = none → s.namedSlot b f = none →
    Answers (.slotFrameReceive t b f) s fun u =>
      u.f (R.branch_CNT_WIN b) 15 0 = min (s.f (R.branch_CNT_WIN b) 15 0 + 1) 65535 ∧ u.b (R.IRQ_STAT (P.branch b)) 9 = true ∧
      Frame s u (R.branch_CNT_WIN b :: irqRegs (P.branch b)) s.rest) ∧
  (∀ (s : State) t (b : Fin 8) f, s.driven b = false → s.bstate b ≠ 7 → Answers (.slotFrameReceive t b f) s fun u => Frame s u [] s.rest) ∧
  (∀ (s : State) t (b : Fin 8) (sl : Fin 24), (s.driven b || decide (s.bstate b = 7)) = true → sl.val < s.nSlots b → s.slotEnd b sl ≤ (s.tick t).now →
    Answers (.slotEndTruncate t b sl) s fun u =>
      u.slot b sl = { s.slot b sl with sfdSeen := true, violation := true } ∧
      (∀ j, s.nextWindow b sl = some j → u.slot b j = { s.slot b j with relieved := true }) ∧
      u.f (R.branch_CNT_WIN b) 31 16 = min (s.f (R.branch_CNT_WIN b) 31 16 + 1) 65535 ∧ u.b (R.IRQ_STAT (P.branch b)) 9 = true ∧
      Frame s u (R.branch_CNT_WIN b :: irqRegs (P.branch b)) { s.rest with br := u.br }) ∧
  (∀ (s : State) t (b : Fin 8) (sl : Fin 24), (s.driven b || decide (s.bstate b = 7)) = true → sl.val < s.nSlots b → (s.slot b sl).sfdSeen = false → (s.slot b sl).closed = false →
    s.at4 (s.arrival4 b sl + 4 * s.guardNs b) < (s.tick t).now →
    Answers (.windowCloseMissing t b sl) s fun u =>
      u.slot b sl = { s.slot b sl with closed := true } ∧ u.f (R.branch_SLOT_STAT b sl) 15 8 = min (s.f (R.branch_SLOT_STAT b sl) 15 8 + 1) 255 ∧
      Frame s u [R.branch_SLOT_STAT b sl] { s.rest with br := u.br }) ∧
  (∀ (s : State) t (b : Fin 8) k, s.brEn b = true → s.bstate b ≠ 0 → s.bstate b ≠ 8 → (s.branch b).portFault = false → (s.fdCh 1 b).perm = false →
    (s.fdCh 1 b).lastGood = false → (s.fdCh 1 b).level + 1 < s.fdLimit 1 →
    Answers (.taleirReceiverLockLoss t b k) s fun u =>
      u.branch b = { s.branch b with rxError := true, portFault := true } ∧ (u.fdCh 1 b).level = (s.fdCh 1 b).level + 1 ∧ u.bstate b = s.bstate b ∧ u.b (R.IRQ_STAT (P.branch b)) 2 = true ∧
      Frame s u (irqRegs (P.branch b)) { s.rest with br := u.br, fd := u.fd })

/-- FOREIGN_SYNC, START_ATTEMPT_END, WITHDRAWN_SILENCE and BACKOFF_END: side B withdraws from a foreign sync in the first cycle of its attempt, side A after both cycles; one before that
cycle counts nothing, and one in RUN is signalled; an attempt
without one reaches RUN; two quiet cycles end a withdrawal in a backoff of the length that SERIAL gives, or in SILENT after the third attempt; a backoff ends in a
new attempt, or in STANDBY (R334, R336 to R338, Table 10.1). -/
def Obligations.BranchStates : Prop :=
  (∀ (s : State) t (b : Fin 8), s.bstate b = 1 → (s.branch b).attemptCycle < s.nextCycle → s.cycle = (s.branch b).attemptCycle → s.sideB = true →
    Answers (.foreignSync t b) s fun u => u.bstate b = 3 ∧ u.b (R.nodeTable_BSTATE b) 9 = true ∧ u.branch b = { s.branch b with lastForeign := s.cycle } ∧
      Frame s u [R.nodeTable_BSTATE b] { s.rest with br := u.br }) ∧
  (∀ (s : State) t (b : Fin 8), s.bstate b = 1 → (s.branch b).attemptCycle < s.nextCycle → (s.cycle = (s.branch b).attemptCycle → s.sideB = false) →
    Answers (.foreignSync t b) s fun u =>
      u.branch b = (if s.cycle = (s.branch b).attemptCycle then { s.branch b with foreign1 := true } else { s.branch b with foreign2 := true }) ∧
      Frame s u [] { s.rest with br := u.br }) ∧
  (∀ (s : State) t (b : Fin 8), s.bstate b = 1 → s.nextCycle ≤ (s.branch b).attemptCycle → Answers (.foreignSync t b) s fun u => Frame s u [] s.rest) ∧
  (∀ (s : State) t (b : Fin 8), s.bstate b = 2 ∨ s.bstate b = 7 → Answers (.foreignSync t b) s fun u => u.b (R.IRQ_STAT (P.nodeTable b)) 16 = true) ∧
  (∀ (s : State) t (b : Fin 8), s.bstate b = 3 →
    Answers (.foreignSync t b) s fun u => u.branch b = { s.branch b with lastForeign := s.cycle } ∧ u.bstate b = 3 ∧ Frame s u [R.nodeTable_BSTATE b] { s.rest with br := u.br }) ∧
  (∀ (s : State) t (b : Fin 8), s.bstate b = 1 → (s.branch b).attemptCycle + 2 ≤ s.cycle →
    (s.sideB || !(s.branch b).foreign1 || !(s.branch b).foreign2) = true →
    Answers (.startAttemptEnd t b) s fun u => u.bstate b = 2 ∧ u.f (R.nodeTable_BSTATE b) 5 4 = 0 ∧ Frame s u [R.nodeTable_BSTATE b] s.rest) ∧
  (∀ (s : State) t (b : Fin 8), s.bstate b = 1 → (s.branch b).attemptCycle + 2 ≤ s.cycle → s.sideB = false → (s.branch b).foreign1 = true → (s.branch b).foreign2 = true →
    Answers (.startAttemptEnd t b) s fun u => u.bstate b = 3 ∧ (u.branch b).lastForeign = (s.branch b).attemptCycle + 1 ∧
      Frame s u [R.nodeTable_BSTATE b] { s.rest with br := u.br }) ∧
  (∀ (s : State) t (b : Fin 8), s.bstate b = 3 → (s.branch b).lastForeign + 3 ≤ s.cycle → s.f (R.nodeTable_BSTATE b) 5 4 < 2 →
    Answers (.withdrawnSilence t b) s fun u =>
      let i := s.f (R.nodeTable_BSTATE b) 5 4 + 1
      u.bstate b = 4 ∧ u.f (R.nodeTable_BSTATE b) 5 4 = i ∧
      u.branch b = { s.branch b with backoffUntil := s.cycle + 1 + s.f R.chip_SERIAL_LO (4 * i - 1) (4 * i - 4) } ∧
      Frame s u [R.nodeTable_BSTATE b] { s.rest with br := u.br }) ∧
  (∀ (s : State) t (b : Fin 8), s.bstate b = 3 → (s.branch b).lastForeign + 3 ≤ s.cycle → s.f (R.nodeTable_BSTATE b) 5 4 = 2 →
    Answers (.withdrawnSilence t b) s fun u =>
      u.bstate b = 5 ∧ u.b (R.nodeTable_BSTATE b) 8 = true ∧ u.b (R.IRQ_STAT (P.nodeTable b)) 13 = true ∧
      Frame s u (R.nodeTable_BSTATE b :: irqRegs (P.nodeTable b)) s.rest) ∧
  (∀ (s : State) t (b : Fin 8), s.bstate b = 4 → (s.branch b).backoffUntil ≤ s.cycle → s.txEnabled = true →
    Answers (.backoffEnd t b) s fun u =>
      u.bstate b = 1 ∧ (u.branch b).attemptCycle = s.nextCycle ∧ (u.branch b).foreign1 = false ∧ (u.branch b).foreign2 = false ∧ (u.branch b).slots = (s.branch b).slots ∧
      Frame s u [R.nodeTable_BSTATE b] { s.rest with br := u.br }) ∧
  (∀ (s : State) t (b : Fin 8), s.bstate b = 4 → (s.branch b).backoffUntil ≤ s.cycle → s.txEnabled = false →
    Answers (.backoffEnd t b) s fun u => u.bstate b = 6 ∧ Frame s u [R.nodeTable_BSTATE b] s.rest)

/-- NODE_SUSPECT, NODE_SUSPECT_CLEAR, NODE_EXCLUDE, JOIN_TIMEOUT, CRATER_CLR_CNT, BRANCH_CLR_CNT and NODE_TABLE_CLR_CNT: three consecutive violations make a node in RUN suspect
and 256 clean cycles end it; eight in 256 cycles exclude it; a node that does not join in 4 cycles is held with code 0x0C; CLR_CNT clears the counts of its page and no other
(R333, R348, R355, R356, R362). -/
def Obligations.NodeSupervision : Prop :=
  (∀ (s : State) t (b : Fin 8) (h : Fin 24), s.nodeState b h = 4 → 3 ≤ (s.hop b h).consec →
    Answers (.nodeSuspect t b h) s fun u => u.nodeState b h = 5 ∧ u.b (R.IRQ_STAT (P.nodeTable b)) 10 = true ∧
      u.f (R.nodeTable_NODE_STATE b h) 31 4 = s.f (R.nodeTable_NODE_STATE b h) 31 4 ∧ Frame s u (R.nodeTable_NODE_STATE b h :: irqRegs (P.nodeTable b)) s.rest) ∧
  (∀ (s : State) t (b : Fin 8) (h : Fin 24), s.nodeState b h = 5 → 256 ≤ (s.hop b h).clean →
    Answers (.nodeSuspectClear t b h) s fun u => u.nodeState b h = 4 ∧ u.f (R.nodeTable_NODE_STATE b h) 31 4 = s.f (R.nodeTable_NODE_STATE b h) 31 4 ∧
      Frame s u [R.nodeTable_NODE_STATE b h] s.rest) ∧
  (∀ (s : State) t (b : Fin 8) (h : Fin 24), s.nodeState b h = 4 ∨ s.nodeState b h = 5 → 8 ≤ ones (s.hop b h).hist →
    Answers (.nodeExclude t b h) s fun u => u.nodeState b h = 6 ∧ u.b (R.IRQ_STAT (P.nodeTable b)) 11 = true ∧
      u.f (R.nodeTable_NODE_STATE b h) 31 4 = s.f (R.nodeTable_NODE_STATE b h) 31 4 ∧ Frame s u (R.nodeTable_NODE_STATE b h :: irqRegs (P.nodeTable b)) s.rest) ∧
  (∀ (s : State) t (b : Fin 8) (h : Fin 24), s.nodeState b h = 3 → (s.hop b h).joinFrom + 4 < s.cycle →
    Answers (.joinTimeout t b h) s fun u =>
      u.nodeState b h = 7 ∧ u.f (R.nodeTable_NODE_STATE b h) 23 16 = 0x0C ∧ u.f (R.nodeTable_ADMSTAT b) 31 24 = 0x0C ∧ u.b (R.IRQ_STAT (P.nodeTable b)) 9 = true ∧
      u.branch b = { s.branch b with ints := (s.branch b).ints ++ [(s.cycle + 1, .hold h)] } ∧
      Frame s u ([R.nodeTable_NODE_STATE b h, R.nodeTable_ADMSTAT b] ++ irqRegs (P.nodeTable b)) { s.rest with br := u.br }) ∧
  (∀ (s : State) t m, s.takes m (R.CTRL P.crater) = true →
    Answers (.craterClrCnt t m) s fun u => u.rd R.crater_MISS_TOT = 0 ∧ Frame s u [R.crater_MISS_TOT] s.rest) ∧
  (∀ (s : State) t m (b : Fin 8), s.takes m (R.CTRL (P.branch b)) = true →
    Answers (.branchClrCnt t m b) s fun u =>
      u.rd (R.branch_CNT_ERR b) = 0 ∧ u.rd (R.branch_CNT_WIN b) = 0 ∧ u.f (R.branch_DQ_STAT b) 31 16 = 0 ∧
      u.f (R.branch_DQ_STAT b) 15 0 = s.f (R.branch_DQ_STAT b) 15 0 ∧ (∀ sl, sl < 24 → u.rd (R.branch_SLOT_STAT b sl) = 0) ∧
      Frame s u ([R.branch_CNT_ERR b, R.branch_CNT_WIN b, R.branch_DQ_STAT b] ++ (List.range 24).map (R.branch_SLOT_STAT b)) s.rest) ∧
  (∀ (s : State) t m (b : Fin 8), s.takes m (R.CTRL (P.nodeTable b)) = true →
    Answers (.nodeTableClrCnt t m b) s fun u =>
      u.rd (R.nodeTable_CNT b) = 0 ∧ (∀ h, h < 24 → u.fdCh 0 (nodeCh b h) = { s.fdCh 0 (nodeCh b h) with events := 0 }) ∧
      Frame s u [R.nodeTable_CNT b] { s.rest with fd := u.fd })

/-- UPLINK_FRAGMENT_RECEIVE, GRANT_WINDOW_CLOSE, UQ_POP and DQ_PUSH: a fragment that meets an open grant takes it and is kept for its message, whose last fragment puts the whole
message into a free receive buffer and the queue; one that fails is counted; a grant whose window closes unmet is granted again; UQ_POP frees the head buffer; DQ_PUSH queues
a message, or sets FULL or LEN (R325 to R328, R358). -/
def Obligations.MessageCommands : Prop :=
  (∀ (s : State) t (b : Fin 8) f (i : Nat) g, s.sending b = true → f.fin = .good → (s.branch b).grants[i]? = some g → g.done = false → g.slot = f.node.toNat →
    g.frag = f.frag.toNat → g.integ = false → s.grantFits b g f.sfd f.efd = true →
    (∀ j h, j < i → (s.branch b).grants[j]? = some h → h.slot = f.node.toNat → h.frag = f.frag.toNat → h.done = true ∨ s.grantFits b h f.sfd f.efd = false) →
    f.last = false → (s.slot b f.node.toNat).reSeq = some f.seq.toNat → (s.slot b f.node.toNat).reLast = none →
    Answers (.uplinkFragmentReceive t b f) s fun u =>
      let x := s.slot b f.node.toNat
      (u.branch b).grants = (s.branch b).grants.set i { g with done := true } ∧
      u.slot b f.node.toNat = { x with reMs := f.msIdx.toNat, reGot := Tab.set x.reGot f.frag.toNat f.data [] } ∧
      (u.branch b).rxq = (s.branch b).rxq ∧ Frame s u [] { s.rest with br := u.br }) ∧
  (∀ (s : State) t (b : Fin 8) f (i : Nat) g buf, s.sending b = true → f.fin = .good → (s.branch b).grants[i]? = some g → g.done = false → g.slot = f.node.toNat →
    g.frag = f.frag.toNat → g.integ = false → s.grantFits b g f.sfd f.efd = true →
    (∀ j h, j < i → (s.branch b).grants[j]? = some h → h.slot = f.node.toNat → h.frag = f.frag.toNat → h.done = true ∨ s.grantFits b h f.sfd f.efd = false) →
    f.frag = 0 → f.last = true → f.data ≠ [] → s.freeRx b = some buf →
    Answers (.uplinkFragmentReceive t b f) s fun u =>
      let a := sharedAddr (s.f (R.branch_MSGBUF b) 22 16 * 0x10000) + 32768 + buf * 2048
      (u.branch b).rxq = (s.branch b).rxq ++ [{ buf := buf, len := f.data.length, slot := f.node.toNat, ms := f.msIdx.toNat }] ∧
      (u.branch b).grants = (s.branch b).grants.set i { g with done := true } ∧
      u.slot b f.node.toNat = { (s.slot b f.node.toNat).noMsg with reMs := f.msIdx.toNat } ∧
      u.bytes a f.data.length = f.data ∧ (∀ x, x < a ∨ a + f.data.length ≤ x → u.byte x = s.byte x) ∧ u.b (R.IRQ_STAT (P.branch b)) 12 = true ∧
      RegsKept s u (irqRegs (P.branch b)) ∧ u.rest = { s.rest with br := u.br, mem := u.mem, ecc := u.ecc }) ∧
  (∀ (s : State) t (b : Fin 8) f, s.sending b = true → (f.fin = .aborted ∨ f.fin = .cut) →
    Answers (.uplinkFragmentReceive t b f) s fun u =>
      u.f (R.branch_CNT_WIN b) 31 16 = min (s.f (R.branch_CNT_WIN b) 31 16 + 1) 65535 ∧ Frame s u [R.branch_CNT_WIN b] s.rest) ∧
  (∀ (s : State) t (b : Fin 8) f, s.sending b = true → f.fin = .badCheck →
    Answers (.uplinkFragmentReceive t b f) s fun u =>
      u.f (R.branch_CNT_ERR b) 15 0 = min (s.f (R.branch_CNT_ERR b) 15 0 + 1) 65535 ∧ u.b (R.IRQ_STAT (P.branch b)) 10 = true ∧
      Frame s u (R.branch_CNT_ERR b :: irqRegs (P.branch b)) s.rest) ∧
  (∀ (s : State) t (b : Fin 8) (i : Fin 16) g h, (s.branch b).grants[i.val]? = some g → g.done = false → s.tau + nsT (s.miniNs b (g.start + g.run)) ≤ (s.tick t).now →
    s.hopOf b g.slot = some h → g.integ = false → (s.fdCh 0 (nodeCh b h)).perm = false → (s.fdCh 0 (nodeCh b h)).lastGood = false →
    (s.fdCh 0 (nodeCh b h)).level + 1 < s.fdLimit 0 → Tab.get (s.slot b g.slot).tries g.frag 0 < 7 →
    Answers (.grantWindowClose t b i) s fun u =>
      let x := s.slot b g.slot
      (u.branch b).grants = (s.branch b).grants.set i { g with done := true } ∧
      u.slot b g.slot = { x with retry := x.retry ++ [(g.frag, g.len)], tries := Tab.set x.tries g.frag (Tab.get x.tries g.frag 0 + 1) 0 } ∧
      (u.fdCh 0 (nodeCh b h)).level = (s.fdCh 0 (nodeCh b h)).level + 1 ∧ Frame s u [] { s.rest with br := u.br, fd := u.fd }) ∧
  (∀ (s : State) t (b : Fin 8) (i : Fin 16) g h, (s.branch b).grants[i.val]? = some g → g.done = false → s.tau + nsT (s.miniNs b (g.start + g.run)) ≤ (s.tick t).now →
    s.hopOf b g.slot = some h → g.integ = false → (s.fdCh 0 (nodeCh b h)).perm = false → (s.fdCh 0 (nodeCh b h)).lastGood = false →
    (s.fdCh 0 (nodeCh b h)).level + 1 < s.fdLimit 0 → Tab.get (s.slot b g.slot).tries g.frag 0 = 7 →
    Answers (.grantWindowClose t b i) s fun u =>
      (u.slot b g.slot) = (s.slot b g.slot).noMsg ∧ u.f (R.nodeTable_CNT b) 15 0 = min (s.f (R.nodeTable_CNT b) 15 0 + 1) 65535 ∧
      u.b (R.IRQ_STAT (P.nodeTable b)) 15 = true ∧
      Frame s u (R.nodeTable_CNT b :: irqRegs (P.nodeTable b)) { s.rest with br := u.br, fd := u.fd }) ∧
  (∀ (s : State) t m (b : Fin 8), s.takes m (R.branch_UQ_POP b) = true →
    Answers (.uqPop t m b) s fun u => u.branch b = { s.branch b with rxq := (s.branch b).rxq.tail } ∧ Frame s u [] { s.rest with br := u.br }) ∧
  (∀ (s : State) t m (b : Fin 8) val, s.takes m (R.branch_DQ_PUSH b) = true → (s.branch b).txq.length < 16 → 0 < s.f (R.branch_DQ_LEN b) 11 0 →
    s.f (R.branch_DQ_LEN b) 11 0 ≤ 2048 →
    Answers (.dqPush t m b val) s fun u =>
      let q := ((s.branch b).dseq + 1) % 256
      u.branch b = { s.branch b with
        txq := (s.branch b).txq ++ [{ buf := fld val 3 0, node := fld val 8 4, ms := fld val 23 16, len := s.f (R.branch_DQ_LEN b) 11 0, since := u.now,
                                      order := (s.branch b).pushes, seq := q, frag := 0, sends := [], started := false }]
        pushes := (s.branch b).pushes + 1, dseq := q } ∧ Frame s u [] { s.rest with br := u.br }) ∧
  (∀ (s : State) t m (b : Fin 8) val, s.takes m (R.branch_DQ_PUSH b) = true →
    (16 ≤ (s.branch b).txq.length ∨ s.f (R.branch_DQ_LEN b) 11 0 = 0 ∨ 2048 < s.f (R.branch_DQ_LEN b) 11 0) →
    Answers (.dqPush t m b val) s fun u =>
      (16 ≤ (s.branch b).txq.length → u.b (R.branch_DQ_STAT b) 8 = true) ∧
      (s.f (R.branch_DQ_LEN b) 11 0 = 0 ∨ 2048 < s.f (R.branch_DQ_LEN b) 11 0 → u.b (R.branch_DQ_STAT b) 9 = true) ∧
      u.b (R.IRQ_STAT (P.branch b)) 11 = true ∧ Frame s u (R.branch_DQ_STAT b :: irqRegs (P.branch b)) s.rest)

/-- DOWNLINK_DYNAMIC_SEGMENT: once in a cycle from E_sum on; with nothing queued nothing is sent; a CALL of the nearest hop that still waits goes out for the next cycle of an open
run, which ends where none does; a message of one fragment to
every node leaves with its header, its buffer's bytes and their CRC and is counted complete (R329, R343, R345). -/
def Obligations.DynamicSegment : Prop :=
  (∀ (s : State) t (b : Fin 8), s.sending b = true → (s.branch b).dynDone = false → s.at4 (4 * s.eSum b + (if s.ownFar b then 3200 else 0)) ≤ (s.tick t).now →
    (s.branch b).ints = [] → (∀ r, (s.branch b).adm = some r → 8 ≤ r.calls ∨ r.resp.isSome ∨ s.cycle < r.next) → (s.branch b).txq = [] → (∀ h, h < 24 → s.nodeState b h ≠ 2) →
    Answers (.downlinkDynamicSegment t b) s fun u => u.branch b = { s.branch b with dynDone := true } ∧ u.out = s.out ∧ Frame s u [] { s.rest with br := u.br }) ∧
  (∀ (s : State) t (b : Fin 8) h h' n k, s.sending b = true → (s.branch b).dynDone = false → s.at4 (4 * s.eSum b + (if s.ownFar b then 3200 else 0)) ≤ (s.tick t).now →
    (s.branch b).ints = [] → (s.branch b).adm = some { hop := h, calls := n, resp := none, next := k } → n < 8 → k ≤ s.cycle → s.nextHop b = some h' → (s.branch b).txq = [] → (∀ h, h < 24 → s.nodeState b h ≠ 2) →
    s.dynFits b (s.eSum b) 10 = true →
    Answers (.downlinkDynamicSegment t b) s fun u =>
      (u.branch b).adm = some { hop := h', calls := if h' = h then n else 0, resp := some (s.cycle + 1, s.callA b h') } ∧ (u.branch b).dynDone = true ∧
      u.out = .fragment b (withCrc (fragHeader 31 0 true true 0 (((s.branch b).dseq + 1) % 256) 10 ++
        ([1, BitVec.ofNat 8 h'] ++ natLe 4 (BitVec.ofInt 32 (s.callA b h')).toNat ++ natLe 4 (s.cycle + 1)))) :: s.out ∧
      Frame s u [R.nodeTable_ADMSTAT b] { s.rest with br := u.br }) ∧
  (∀ (s : State) t (b : Fin 8) h n k, s.sending b = true → (s.branch b).dynDone = false → s.at4 (4 * s.eSum b + (if s.ownFar b then 3200 else 0)) ≤ (s.tick t).now →
    (s.branch b).ints = [] → (s.branch b).adm = some { hop := h, calls := n, resp := none, next := k } → n < 8 → k ≤ s.cycle → s.nextHop b = none → (s.branch b).txq = [] →
    (∀ h, h < 24 → s.nodeState b h ≠ 2) →
    Answers (.downlinkDynamicSegment t b) s fun u =>
      u.branch b = { s.branch b with dynDone := true, adm := none, runEnd := some s.cycle } ∧ u.b (R.nodeTable_ADMSTAT b) 0 = false ∧ u.out = s.out ∧
      Frame s u [R.nodeTable_ADMSTAT b] { s.rest with br := u.br }) ∧
  (∀ (s : State) t (b : Fin 8) m, s.sending b = true → (s.branch b).dynDone = false → s.at4 (4 * s.eSum b + (if s.ownFar b then 3200 else 0)) ≤ (s.tick t).now →
    (s.branch b).ints = [] → (s.branch b).adm = none → (s.branch b).txq = [m] → (∀ h, h < 24 → s.nodeState b h ≠ 2) → m.node = 31 → m.frag = 0 → 0 < m.len → m.len ≤ 256 →
    m.since + nsT 1000 ≤ s.at4 (4 * s.eSum b + (if s.ownFar b then 3200 else 0)) → Tab.get m.sends 0 0 < 8 → s.dynFits b (s.eSum b) m.len = true →
    Answers (.downlinkDynamicSegment t b) s fun u =>
      .fragment b (withCrc (fragHeader 31 0 true false m.ms m.seq m.len ++ s.bytes (sharedAddr (s.f (R.branch_MSGBUF b) 22 16 * 0x10000) + m.buf * 2048) m.len)) :: s.out <:+ u.out ∧
      (u.branch b).txq = [] ∧ u.f (R.branch_DQ_STAT b) 31 16 = min (s.f (R.branch_DQ_STAT b) 31 16 + 1) 65535 ∧ u.b (R.IRQ_STAT (P.branch b)) 13 = true ∧
      Frame s u (R.branch_DQ_STAT b :: irqRegs (P.branch b)) { s.rest with br := u.br })

/-- ADMISSION_RUN_OPEN, ADMIT_GO, REQUEST, ADMISSION_NO_RESPONSE, MREPLY, NTCMD_RELEASE and REINTEGRATE: a run begins with the nearest expected hop that is absent; a REQUEST that names
the expected node assigns its slot and coarse delay, and any other holds it with its code; eight calls without response end the run; a reply to a MEASURE gives one of the
eight values; RELEASE and REINTEGRATE return a node to ABSENT (R341 to R344, R348, R350, R357). -/
def Obligations.IntegrationCommands : Prop :=
  (∀ (s : State) t (b : Fin 8), s.bstate b = 2 → s.b (R.nodeTable_NTCFG b) 0 = true → (s.branch b).adm = none → (s.branch b).autoOpened = false →
    s.cycle = (s.branch b).attemptCycle + 8 → min 8 (s.kUp b) ≤ (s.nms b - s.admW b) / s.miniSlots b 256 →
    Answers (.admissionRunOpen t b) s fun u =>
      (u.branch b).adm = (s.nextHop b).map (fun h => { hop := h, calls := 0, resp := none, next := s.cycle }) ∧ (u.branch b).autoOpened = true ∧
      (u.branch b).runEnd = (if s.nextHop b = none then some s.cycle else (s.branch b).runEnd) ∧
      u.b (R.nodeTable_ADMSTAT b) 0 = (s.nextHop b).isSome ∧ u.b (R.nodeTable_ADMSTAT b) 1 = false ∧ (∀ h, s.nextHop b = some h → u.f (R.nodeTable_ADMSTAT b) 12 8 = h) ∧
      Frame s u [R.nodeTable_ADMSTAT b] { s.rest with br := u.br }) ∧
  (∀ (s : State) t (b : Fin 8), (s.branch b).runEnd = none → s.cycle ≠ (s.branch b).attemptCycle + 8 → Answers (.admissionRunOpen t b) s fun u => Frame s u [] s.rest) ∧
  (∀ (s : State) t m (b : Fin 8), s.takes m (R.nodeTable_NTCMD b) = true → s.bstate b = 2 → (s.branch b).adm = none → min 8 (s.kUp b) ≤ (s.nms b - s.admW b) / s.miniSlots b 256 →
    Answers (.admitGo t m b) s fun u =>
      (u.branch b).adm = (s.nextHop b).map (fun h => { hop := h, calls := 0, resp := none, next := s.cycle }) ∧ u.b (R.nodeTable_ADMSTAT b) 0 = (s.nextHop b).isSome ∧
      u.b (R.nodeTable_ADMSTAT b) 1 = false ∧ Frame s u [R.nodeTable_ADMSTAT b] { s.rest with br := u.br }) ∧
  (∀ (s : State) t m (b : Fin 8), s.takes m (R.nodeTable_NTCMD b) = true → s.bstate b = 2 → (s.branch b).adm = none → (s.nms b - s.admW b) / s.miniSlots b 256 < min 8 (s.kUp b) →
    Answers (.admitGo t m b) s fun u => u.b (R.nodeTable_ADMSTAT b) 1 = true ∧ u.b (R.nodeTable_ADMSTAT b) 0 = s.b (R.nodeTable_ADMSTAT b) 0 ∧
      Frame s u [R.nodeTable_ADMSTAT b] s.rest) ∧
  (∀ (s : State) t (b : Fin 8) r h n k a, (s.branch b).adm = some { hop := h, calls := n, resp := some (s.cycle, a), next := k } → h < 24 → s.sending b = true → r.good = true →
    s.tau + nsT (s.admStart b) ≤ r.sfd → r.efd ≤ s.tau + nsT (s.staticEnd b + 4 * s.msBytes b * s.nms b) → s.requestCode b h r = 0 →
    Answers (.request t b r) s fun u =>
      u.nodeState b h = 1 ∧ u.hopSlot b h = s.f (R.nodeTable_EXP_CTL b h) 20 16 ∧
      u.dHop4 b h = (rndDiv ((r.sfd : Int) - s.tau - 12 * (a + 512)) 6 % 2 ^ 20).toNat ∧ u.hop b h = { serial := r.serial, npCrc := r.crc } ∧
      (u.branch b).ints = (s.branch b).ints ++ [(s.cycle + 1, .assign h)] ∧
      Frame s u [R.nodeTable_NODE_STATE b h, R.nodeTable_NODE_DELAY b h, R.nodeTable_NODE_DELAY_FAR b h, R.nodeTable_ADMSTAT b] { s.rest with br := u.br }) ∧
  (∀ (s : State) t (b : Fin 8) r h n k a, (s.branch b).adm = some { hop := h, calls := n, resp := some (s.cycle, a), next := k } → h < 24 → s.sending b = true → r.good = true →
    s.tau + nsT (s.admStart b) ≤ r.sfd → r.efd ≤ s.tau + nsT (s.staticEnd b + 4 * s.msBytes b * s.nms b) → s.requestCode b h r ≠ 0 →
    Answers (.request t b r) s fun u =>
      u.nodeState b h = 7 ∧ u.f (R.nodeTable_NODE_STATE b h) 23 16 = s.requestCode b h r ∧ (u.branch b).ints = (s.branch b).ints ++ [(s.cycle + 1, .hold h)] ∧
      u.b (R.IRQ_STAT (P.nodeTable b)) 9 = true ∧
      Frame s u ([R.nodeTable_NODE_STATE b h, R.nodeTable_NODE_DELAY b h, R.nodeTable_NODE_DELAY_FAR b h, R.nodeTable_ADMSTAT b] ++ irqRegs (P.nodeTable b))
        { s.rest with br := u.br }) ∧
  (∀ (s : State) b h (r : RequestMsg), s.requestCode b h r = 0 ↔ r.vendor = s.rd (R.nodeTable_EXP_VENDOR b h) ∧ r.ntype = s.rd (R.nodeTable_EXP_TYPE b h) ∧
    (let e := (s.rd (R.nodeTable_EXP_SERIAL_LO b h)).toNat + s.f (R.nodeTable_EXP_CTL b h) 15 0 * 2 ^ 32; e = 0 ∨ r.serial.toNat = e)) ∧
  (∀ (s : State) t (b : Fin 8) h n k, (s.branch b).adm = some { hop := h, calls := n, resp := none, next := k } → 8 ≤ n →
    Answers (.admissionNoResponse t b) s fun u =>
      u.branch b = { s.branch b with adm := none, runEnd := some s.cycle } ∧ u.b (R.nodeTable_ADMSTAT b) 0 = false ∧ u.b (R.IRQ_STAT (P.nodeTable b)) 14 = true ∧
      Frame s u (R.nodeTable_ADMSTAT b :: irqRegs (P.nodeTable b)) { s.rest with br := u.br }) ∧
  (∀ (s : State) t (b : Fin 8) (sl : Fin 24) seq t2 t3 t4 h i g, s.hopOf b sl = some h → s.nodeState b h = 2 → (s.branch b).grants = i ++ [g] → (∀ x ∈ i, x.done = true) →
    g.integ = true → g.done = false → g.slot = sl.val → s.grantFits b g t4 (t4 + nsT 88) = true → Tab.get (s.hop b h).t1s seq.toNat 0 ≠ 0 →
    (∀ v ∈ (s.hop b h).values, v.1 ≠ seq.toNat) → (s.hop b h).values.length < 7 →
    Answers (.mreply t b sl seq t2 t3 t4) s fun u =>
      let v : Int := (t4 : Int) - Tab.get (s.hop b h).t1s seq.toNat 0 - 3 * ((t3 - t2).toNat : Int)
      u.hop b h = { s.hop b h with values := (s.hop b h).values ++ [(seq.toNat, v)] } ∧ (u.branch b).grants = i ++ [{ g with done := true }] ∧
      Frame s u [] { s.rest with br := u.br }) ∧
  (∀ (s : State) t m (b : Fin 8) (h : Fin 24), s.takes m (R.nodeTable_NTCMD b) = true → s.nodeState b h = 7 →
    Answers (.ntcmdRelease t m b h) s fun u =>
      u.nodeState b h = 0 ∧ u.hop b h = {} ∧ (u.branch b).ints = (s.branch b).ints ++ [(s.cycle, .release (s.hop b h).serial)] ∧
      Frame s u [R.nodeTable_NODE_STATE b h, R.nodeTable_NODE_DELAY b h, R.nodeTable_NODE_DELAY_FAR b h] { s.rest with br := u.br }) ∧
  (∀ (s : State) t m (b : Fin 8) (h : Fin 24), s.takes m (R.nodeTable_NTCMD b) = true → s.nodeState b h ∈ [4, 5, 6, 8] →
    Answers (.reintegrate t m b h) s fun u =>
      u.nodeState b h = 0 ∧ u.hop b h = {} ∧ (u.slot b (s.hopSlot b h)).listen = 4 ∧ u.fdCh 0 (nodeCh b h) = {} ∧
      Frame s u [R.nodeTable_NODE_STATE b h, R.nodeTable_NODE_DELAY b h, R.nodeTable_NODE_DELAY_FAR b h] { s.rest with br := u.br, fd := u.fd })

/-- CYCLE_START: at the instant at which device time reaches the target τ is placed, the count of cycles rises by 1 (to 0 at the first boundary), each driven branch sends
its sync, and slot accounts start anew; before that instant nothing happens (R20, R297, R398). -/
def Obligations.CycleStart : Prop :=
  (∀ (s : State) t, (s.tick t).cycleDue = true → 
    Answers (.cycleStart t) s fun u =>
      let s0 := (s.tick t).takeDue
      let s1 := (if s0.firstCycle then s0 else s0.craterEnd).newCycle.copiesMeet
      u.tau = (s.tick t).now ∧ u.firstCycle = false ∧ u.cycling = true ∧ u.pending = s.pending ∧ u.cycle = (if s.firstCycle then 0 else (s.cycle + 1) % 2 ^ 48) ∧
      (∀ b, b < 8 → s1.driven b = true → (s1.branch b).idleUntil ≤ s1.now → .sync b s1.syncBytes ∈ u.out)) ∧
  (∀ (s : State) t, (s.tick t).cycleDue = false → Answers (.cycleStart t) s fun u => Frame s u [] s.rest) ∧
  (∀ (s : State), s.newCycle.cycle = (if s.firstCycle then 0 else (s.cycle + 1) % 2 ^ 48) ∧ s.newCycle.tau = s.now ∧ s.newCycle.tauDev = s.devTime s.now ∧
    (s.anyBranch = false → s.newCycle.target = (BitVec.ofInt 64 (s.devTime s.now + s.tNs * 65536 - s.gridPhase (s.devTime s.now))).toNat) ∧
    Frame s s.newCycle ([R.chip_CYCLE_LO, R.chip_CYCLE_LO + 4, R.invarCore_STAT, R.invarCore_PHASE] ++ irqRegs P.invarCore)
      { s.rest with tau := s.now, tauDev := s.devTime s.now, firstCycle := false, target := s.newCycle.target }) ∧
  (∀ (s : State) b, s.driven b = true → (s.branch b).idleUntil ≤ s.now →
    (s.sendSync b).out = .header b (s.headerBytes b) :: .sync b s.syncBytes :: s.out ∧ ((s.sendSync b).branch b).efdAt = none ∧
    ((s.sendSync b).branch b).lastSync = s.tau + (if s.ownFar b then nsT 800 else 0) ∧ ((s.sendSync b).branch b).sum = crcAdd 0xFFFFFFFF (s.headerBytes b)) ∧
  (∀ (s : State) b, s.driven b = false → s.sendSync b = s) ∧
  (∀ (s : State), s.syncBytes.length = 9 ∧ s.syncBytes.head? = some 0xA1 ∧ leNat ((s.syncBytes.drop 1).take 4) = s.cycle % 2 ^ 32) ∧
  (∀ (x : SlotSt) k, (x.anew k).sfdSeen = false ∧ (x.anew k).accepted = false ∧ (x.anew k).violation = false ∧ (x.anew k).relieved = false ∧ (x.anew k).req = none ∧ (x.anew k).held = x.held ∧
    (x.anew k).listen = x.listen ∧ (x.past k = false → (x.anew k).copy k = []) ∧ (x.past k = true → (x.anew k).copy k = x.copy k))

/-- CASCADE_TIME_MESSAGE, PPS_IN_EDGE and TIME_STEP: a measurement within STEP_WIN corrects FREQ and RATE without a jump of device time, and the fourth in a row locks;
one outside asks for a step at the next cycle start, or is refused above STEP_LIMIT; a step moves device time by exactly the measurement and returns RATE to FREQ, and
the device times that are held move with it
(R391, R392, R399 to R405); in a ring LV1 is heard once LV0 has been lost for 4 cycles (R455). -/
def Obligations.TimeServo : Prop :=
  (∀ (s : State) t sec ns frac, s.timeSrc = 2 → s.coreInReset = false → s.invState = 1 ∨ s.invState = 2 →
    let θ : Int := ptpTime sec ns + frac.toNat - (s.tick t).plantAt (s.tick t).now
    θ.natAbs ≤ s.f R.invarCore_STEP_WIN 15 0 * 65536 → 2 * θ < second16 → -second16 < 2 * θ →
    Answers (.cascadeTimeMessage t sec ns frac) s fun u =>
      u.rd R.invarCore_THETA = BitVec.ofInt 32 (clampI (rndDiv θ 65536) (-(2 ^ 31)) (2 ^ 31 - 1)) ∧
      u.freq = clampI (s.freq + slewQ θ s.tNs (s.f R.invarCore_CFG 11 8)) (-rateMax) rateMax ∧ u.rate = clampI (u.freq + s.slewTerm θ s.tNs) (-rateMax) rateMax ∧
      u.devTime u.now = (s.tick t).devTime u.now ∧ u.inv.lastMeas = u.now ∧ u.inv.good = s.inv.good + 1 ∧ u.inv.sec = s.inv.sec ∧
      u.invState = (if s.invState = 1 ∧ s.inv.good < 3 then 1 else 2) ∧
      Frame s u ([R.invarCore_THETA, R.invarCore_STAT, R.invarCore_FREQ, R.invarCore_RATE] ++ irqRegs P.invarCore) { s.rest with inv := u.inv }) ∧
  (∀ (s : State) t sec ns frac, s.timeSrc = 2 → s.coreInReset = false → s.invState = 1 ∨ s.invState = 2 →
    let θ : Int := ptpTime sec ns + frac.toNat - (s.tick t).plantAt (s.tick t).now
    s.f R.invarCore_STEP_WIN 15 0 * 65536 < θ.natAbs → 2 * θ < second16 → -second16 < 2 * θ →
    (s.b R.invarCore_STAT 5 = true ∨ θ.natAbs ≤ s.f R.invarCore_STEP_LIMIT 19 0 * 65536) →
    Answers (.cascadeTimeMessage t sec ns frac) s fun u =>
      u.inv = { s.inv with lastMeas := u.now, lv0At := u.now, onLv1 := false, good := 0, step := some (θ, s.cycle) } ∧ u.invState = 1 ∧ u.b R.invarCore_STAT 5 = false ∧
      Frame s u [R.invarCore_THETA, R.invarCore_STAT] { s.rest with inv := u.inv }) ∧
  (∀ (s : State) t sec ns frac, s.timeSrc = 2 → s.coreInReset = false → s.invState = 1 ∨ s.invState = 2 →
    let θ : Int := ptpTime sec ns + frac.toNat - (s.tick t).plantAt (s.tick t).now
    s.f R.invarCore_STEP_WIN 15 0 * 65536 < θ.natAbs → 2 * θ < second16 → -second16 < 2 * θ →
    s.b R.invarCore_STAT 5 = false → s.f R.invarCore_STEP_LIMIT 19 0 * 65536 < θ.natAbs →
    Answers (.cascadeTimeMessage t sec ns frac) s fun u =>
      u.b R.invarCore_STAT 3 = true ∧ u.b (R.IRQ_STAT P.invarCore) 8 = true ∧ u.inv.step = s.inv.step ∧ u.freq = s.freq ∧
      u.rate = clampI (s.freq + s.slewTerm θ s.tNs) (-rateMax) rateMax ∧ u.devTime u.now = (s.tick t).devTime u.now ∧
      Frame s u ([R.invarCore_THETA, R.invarCore_STAT, R.invarCore_RATE] ++ irqRegs P.invarCore) { s.rest with inv := u.inv }) ∧
  (∀ (s : State) t, s.timeSrc = 3 → s.coreInReset = false → s.invState = 1 ∨ s.invState = 2 →
    let s' := s.tick t
    let x : Int := nsDiff s'.nsNow (s'.secAt s'.now).2 * 65536 + (s'.devTime s'.now % 65536 : Nat) + sfld (s.rd R.invarCore_PPS_CFG) 15 8 * 65536
    let θ : Int := (if 2 * x ≤ second16 then -x else second16 - x)
    θ.natAbs ≤ s.f R.invarCore_STEP_WIN 15 0 * 65536 →
    Answers (.ppsInEdge t (!s.b R.invarCore_PPS_CFG 1)) s fun u =>
      u.freq = clampI (s.freq + slewQ θ 1000000000 (s.f R.invarCore_CFG 11 8)) (-rateMax) rateMax ∧ u.rate = clampI (u.freq + s.slewTerm θ 1000000000) (-rateMax) rateMax ∧
      u.devTime u.now = (s.tick t).devTime u.now ∧ u.inv.lastMeas = u.now ∧
      Frame s u ([R.invarCore_THETA, R.invarCore_STAT, R.invarCore_FREQ, R.invarCore_RATE] ++ irqRegs P.invarCore) { s.rest with inv := u.inv }) ∧
  (∀ (s : State) t edge, (s.timeSrc ≠ 3 ∨ s.coreInReset = true ∨ edge = s.b R.invarCore_PPS_CFG 1) → Answers (.ppsInEdge t edge) s fun u => Frame s u [] s.rest) ∧
  (∀ (s : State) t d k, s.inv.step = some (d, k) → k < s.cycle →
    Answers (.timeStep t) s fun u =>
      u.inv.step = none ∧ BitVec.ofNat 64 (u.devTime u.now) = BitVec.ofNat 64 ((s.tick t).devTime u.now) + BitVec.ofInt 64 d ∧
      u.tauDev = (BitVec.ofInt 64 (s.tauDev + d)).toNat ∧ u.rd R.invarCore_RATE = BitVec.ofInt 32 s.freq ∧
      u.f R.invarCore_STAT 31 16 = min (s.f R.invarCore_STAT 31 16 + 1) 65535 ∧ u.b (R.IRQ_STAT P.invarCore) 11 = true ∧
      (∀ q, q < 8 → u.rd48 (R.qe_EDGE_T_LO q) = s.rd48 (R.qe_EDGE_T_LO q) + w48 (rndDiv d 65536)) ∧
      (∀ k, k < 16 → s.tState k = 3 ∨ s.tState k = 4 → u.rd48 (R.geyTrig_TRIG_T_LO k) = s.rd48 (R.geyTrig_TRIG_T_LO k) + w48 (rndDiv d 65536)) ∧
      ((∀ l, l < 4 → (s.dlRec l).mode ≠ 2) → (d ≤ 0 ∨ ∀ k, k < 64 → s.b (R.invarEv_ESTAT k) 0 = false) →
        RegsKept s u ([R.invarCore_RATE, R.invarCore_STAT, R.invarCore_PHASE] ++ irqRegs P.invarCore ++
          ((List.range 8).flatMap fun q => [R.qe_EDGE_T_LO q, R.qe_EDGE_T_LO q + 4]) ++ (List.range 16).flatMap fun k => [R.geyTrig_TRIG_T_LO k, R.geyTrig_TRIG_T_LO k + 4]) ∧
        MemKept s u ∧ u.rest = { s.rest with inv := u.inv, tauDev := u.tauDev, target := u.target, lp := u.lp, lahar := u.lahar, gey := u.gey })) ∧
  (∀ (s : State) t, s.inv.step = none → Answers (.timeStep t) s fun u => Frame s u [] s.rest) ∧
  (∀ (s : State) t sec ns frac lv1, s.timeSrc ≠ 2 ∨ s.coreInReset = true ∨ (s.tick t).cascHears lv1 = false →
    Answers (.cascadeTimeMessage t sec ns frac lv1) s fun u => Frame s u [] s.rest) ∧
  (∀ (s : State) t sec ns frac, s.timeSrc = 2 → s.coreInReset = false → (s.pairMode && !s.pair.claim) = false → (s.tick t).cascHears true = true → s.inv.onLv1 = false →
    Answers (.cascadeTimeMessage t sec ns frac true) s fun u =>
      u.inv.onLv1 = true ∧ u.inv.lastMeas = u.now ∧ u.inv.lv0At = s.inv.lv0At ∧ (s.invState ≠ 3 → u.b (R.IRQ_STAT P.invarCore) 9 = true))

/-- PTP_SYNC, PTP_FOLLOW_UP, PTP_DELAY_RESP, DELAY_REQ_SEND and MASTER_LOST: messages are heard at the port and with the transport that the configuration names; a two-step Sync waits for its Follow_Up, a message of another master only advances FOREIGN, an
answered request gives the path delay, requests leave at the interval of LOG_DREQ, and a source silent for 4 intervals is lost (R402, R410, R411). -/
def Obligations.PtpCommands : Prop :=
  (∀ (s : State) t f, s.ptpHears f = true → s.ptpOurs f = true → syncLogOk f.logInt = true → f.twoStep = true →
    Answers (.ptpSync t f) s fun u =>
      u.inv = { s.inv with lastMeas := u.now, syncTs := syncNs f.logInt, sync := some {
        seq := f.seq, t2 := (s.tick t).plantAt u.now + sfld (s.rd R.invarPtp_TS_ADJ) 15 0 * 65536, t1 := ptpTime f.sec f.ns, cs := f.corr.toInt } } ∧
      u.b R.invarPtp_PTPSTAT 0 = true ∧ u.f R.invarPtp_PTPSTAT 15 8 = f.logInt.toNat ∧ Frame s u [R.invarPtp_PTPSTAT] { s.rest with inv := u.inv }) ∧
  (∀ (s : State) t f, s.ptpHears f = true → s.ptpOurs f = true → syncLogOk f.logInt = true → f.twoStep = false → s.inv.mpd = none →
    Answers (.ptpSync t f) s fun u =>
      u.inv = { s.inv with lastMeas := u.now, syncTs := syncNs f.logInt, sync := none, whole := some {
        seq := f.seq, t2 := (s.tick t).plantAt u.now + sfld (s.rd R.invarPtp_TS_ADJ) 15 0 * 65536, t1 := ptpTime f.sec f.ns, cs := f.corr.toInt } } ∧
      u.b R.invarPtp_PTPSTAT 0 = false ∧ Frame s u [R.invarPtp_PTPSTAT] { s.rest with inv := u.inv }) ∧
  (∀ (s : State) t f, s.ptpHears f = true → (s.ptpOurs f = false ∨ syncLogOk f.logInt = false) →
    Answers (.ptpSync t f) s fun u => u.f R.invarPtp_PTPSTAT 23 16 = min (s.f R.invarPtp_PTPSTAT 23 16 + 1) 255 ∧ Frame s u [R.invarPtp_PTPSTAT] s.rest) ∧
  (∀ (s : State) t f, s.ptpHears f = true → s.ptpOurs f = false →
    Answers (.ptpFollowUp t f) s fun u => u.f R.invarPtp_PTPSTAT 23 16 = min (s.f R.invarPtp_PTPSTAT 23 16 + 1) 255 ∧ Frame s u [R.invarPtp_PTPSTAT] s.rest) ∧
  (∀ (s : State) t f, s.ptpHears f.msg = true → (s.ptpOurs f.msg && f.forUs && s.inv.req.isSome && decide (f.reqSeq = s.inv.reqSeq)) = false →
    Answers (.ptpDelayResp t f) s fun u => u.f R.invarPtp_PTPSTAT 23 16 = min (s.f R.invarPtp_PTPSTAT 23 16 + 1) 255 ∧ Frame s u [R.invarPtp_PTPSTAT] s.rest) ∧
  (∀ (s : State) t f, s.ptpHears f = false →
    Answers (.ptpSync t f) s (fun u => Frame s u [] s.rest) ∧ Answers (.ptpFollowUp t f) s (fun u => Frame s u [] s.rest)) ∧
  (∀ (s : State) t f, s.ptpHears f.msg = false → Answers (.ptpDelayResp t f) s fun u => Frame s u [] s.rest) ∧
  (∀ (s : State) f, s.ptpHears f = true ↔ s.timeSrc = 1 ∧ s.coreInReset = false ∧ f.eth.val = s.f R.invarCore_CFG 2 2 ∧ f.udp = s.b R.invarPtp_PTPCFG 8) ∧
  (∀ (s : State) t f x, s.ptpHears f = true → s.ptpOurs f = true → s.inv.sync = some x → x.seq = f.seq → s.inv.mpd = none →
    Answers (.ptpFollowUp t f) s fun u =>
      u.inv = { s.inv with sync := none, whole := some { x with t1 := ptpTime f.sec f.ns, cs := x.cs + f.corr.toInt } } ∧ Frame s u [] { s.rest with inv := u.inv }) ∧
  (∀ (s : State) t f x d, s.ptpHears f = true → s.ptpOurs f = true → s.inv.sync = some x → x.seq = f.seq → s.inv.mpd = some d →
    let θ : Int := ptpTime f.sec f.ns + (x.cs + f.corr.toInt) + d - x.t2
    2 * θ < second16 → -second16 < 2 * θ →
    Answers (.ptpFollowUp t f) s fun u =>
      u.rd R.invarCore_THETA = BitVec.ofInt 32 (clampI (rndDiv θ 65536) (-(2 ^ 31)) (2 ^ 31 - 1)) ∧
      u.f R.invarPtp_PTPSTAT 31 24 = (s.f R.invarPtp_PTPSTAT 31 24 + 1) % 256 ∧
      Frame s u ([R.invarPtp_PTPSTAT, R.invarCore_THETA, R.invarCore_STAT, R.invarCore_FREQ, R.invarCore_RATE] ++ irqRegs P.invarCore) { s.rest with inv := u.inv }) ∧
  (∀ (s : State) t f t3 x, s.ptpHears f.msg = true → s.ptpOurs f.msg = true → f.forUs = true → s.inv.req = some t3 → f.reqSeq = s.inv.reqSeq →
    s.inv.whole = some x →
    Answers (.ptpDelayResp t f) s fun u =>
      let d : Int := (x.t2 - x.t1 - x.cs) + (ptpTime f.msg.sec f.msg.ns - t3 - f.msg.corr.toInt)
      ∃ raw mpd : Int, (2 * raw = d ∨ 2 * raw = d - 1 ∨ 2 * raw = d + 1) ∧
        (s.inv.mpd = none → mpd = raw) ∧ (∀ m, s.inv.mpd = some m → mpd = m + (raw - m) / 2 ^ s.f R.invarPtp_PTPCFG 15 12) ∧
        u.inv = { s.inv with mpd := some mpd, req := none } ∧ u.rd R.invarPtp_MPD = BitVec.ofInt 32 (mpd / 256) ∧ Frame s u [R.invarPtp_MPD] { s.rest with inv := u.inv }) ∧
  (∀ (s : State) t, s.timeSrc = 1 → s.coreInReset = false → (∀ a, s.inv.reqAt = some a → a + s.dreqInterval ≤ (s.tick t).now) →
    Answers (.delayReqSend t) s fun u =>
      u.inv = { s.inv with reqSeq := s.inv.reqSeq + 1, req := some ((s.tick t).plantAt u.now + sfld (s.rd R.invarPtp_TS_ADJ) 31 16 * 65536), reqAt := some u.now } ∧
      u.out = .delayReq (s.inv.reqSeq + 1).toNat s.delayReqBy :: s.out ∧ Frame s u [] { s.rest with inv := u.inv }) ∧
  (∀ (s : State) t d, s.lostAfter = some d → s.inv.lastMeas + d ≤ (s.tick t).now → s.invState ≠ 3 → s.coreInReset = false →
    Answers (.masterLost t) s fun u => u.invState = 3 ∧ u.b R.invarCore_STAT 4 = true ∧ u.b (R.IRQ_STAT P.invarCore) 9 = true ∧ u.rd R.invarCore_RATE = s.rd R.invarCore_RATE ∧
      Frame s u (R.invarCore_STAT :: irqRegs P.invarCore) s.rest)

/-- STEP_ACCEPT, LATCH, SEC_SET, SECOND_BOUNDARY, PPS_OUT_FALL and TIME_EVENT_FIRE: LATCH captures time, seconds and counter of one instant; SEC_SET applies at the next
second; PPS_OUT follows the seconds; a unit whose DUE is reached fires once, and goes on by its PERIOD (R395 to R397, R404, R407, R408, R414). -/
def Obligations.TimeCommands : Prop :=
  (∀ (s : State) t m, s.takes m R.invarCore_CMD = true → Answers (.stepAccept t m) s fun u => u.b R.invarCore_STAT 5 = true ∧ Frame s u [R.invarCore_STAT] s.rest) ∧
  (∀ (s : State) t m, s.takes m R.invarCore_CMD = true →
    Answers (.latch t m) s fun u =>
      let s' := s.tick t
      u.rd48 R.invarCore_LAT_NS_LO = s'.nsNow ∧ u.rd48 R.invarCore_LAT_SEC_LO = (s'.secAt s'.now).1 ∧ (u.rd R.invarCore_LAT_FRAC).toNat = s'.devTime s'.now % 65536 ∧
      (u.rd R.invarCore_LAT_COUNT_W0).toNat + 2 ^ 32 * (u.rd R.invarCore_LAT_COUNT_W1).toNat = s'.counter s'.now % 2 ^ 64 ∧
      Frame s u [R.invarCore_LAT_NS_LO, R.invarCore_LAT_NS_LO + 4, R.invarCore_LAT_SEC_LO, R.invarCore_LAT_SEC_LO + 4, R.invarCore_LAT_FRAC, R.invarCore_LAT_COUNT_W0,
        R.invarCore_LAT_COUNT_W1] s.rest) ∧
  (∀ (s : State) t m, s.takes m R.invarCore_CMD = true →
    Answers (.secSet t m) s fun u => u.inv = { s.inv with secSet := true } ∧ Frame s u [] { s.rest with inv := u.inv }) ∧
  (∀ (s : State) t, let x := (s.tick t).secAt (s.tick t).now;
    0 < nsDiff x.2 s.inv.secMark →
    Answers (.secondBoundary t) s fun u =>
      u.inv.sec = (if s.inv.secSet then s.rd48 R.invarCore_SEC_SET_LO else x.1) ∧ u.inv.secMark = x.2 ∧ u.inv.secSet = false ∧
      (s.inv.secSet = true → u.b R.invarCore_STAT 7 = true) ∧ (s.inv.secSet = false → RegsKept s u []) ∧
      (s.b R.invarCore_PPS_CFG 0 = true → s.coreInReset = false → u.inv.ppsOut = true ∧ u.out = .ppsOut true :: s.out) ∧
      Frame s u [R.invarCore_STAT] { s.rest with inv := u.inv }) ∧
  (∀ (s : State) t, ((s.tick t).secAt (s.tick t).now).2 = s.inv.secMark → Answers (.secondBoundary t) s fun u => Frame s u [] s.rest ∧ u.out = s.out) ∧
  (∀ (s : State) t, s.inv.ppsOut = true → (s.f R.invarCore_PPS_CFG 24 16 : Int) * 1000000 ≤ nsDiff (s.tick t).nsNow ((s.tick t).secAt (s.tick t).now).2 →
    Answers (.ppsOutFall t) s fun u => u.inv = { s.inv with ppsOut := false } ∧ u.out = .ppsOut false :: s.out ∧ Frame s u [] { s.rest with inv := u.inv }) ∧
  (∀ (s : State) t (k : Fin 64), s.b (R.invarEv_ESTAT k) 0 = true → (s.tick t).evPassed k = true → s.rd (R.invarEv_PERIOD k) = 0 → s.pairMode = false → s.graph = none →
    Answers (.timeEventFire t k) s fun u =>
      u.b (R.invarEv_ESTAT k) 0 = false ∧ u.f (R.invarEv_ESTAT k) 31 16 = min (s.f (R.invarEv_ESTAT k) 31 16 + 1) 65535 ∧
      (s.b (R.invarEv_ECFG k) 1 = true → u.b (R.invarEv_EV_FIRED (k / 32)) (k % 32) = true ∧ u.b (R.IRQ_STAT P.invarEv) 8 = true) ∧
      Frame s u ([R.invarEv_ESTAT k, R.invarEv_EV_FIRED (k / 32)] ++ irqRegs P.invarEv) s.rest) ∧
  (∀ (s : State) t (k : Fin 64), s.b (R.invarEv_ESTAT k) 0 = true → (s.tick t).evPassed k = true → s.rd (R.invarEv_PERIOD k) ≠ 0 → s.pairMode = false → s.graph = none →
    nsDiff (s.tick t).nsNow (s.evDue k + BitVec.ofNat 48 (s.rd (R.invarEv_PERIOD k)).toNat) < 0 →
    Answers (.timeEventFire t k) s fun u =>
      u.b (R.invarEv_ESTAT k) 0 = true ∧ u.f (R.invarEv_ESTAT k) 31 16 = min (s.f (R.invarEv_ESTAT k) 31 16 + 1) 65535 ∧
      u.evDue k = s.evDue k + BitVec.ofNat 48 (s.rd (R.invarEv_PERIOD k)).toNat ∧
      Frame s u ([R.invarEv_ESTAT k, R.invarEv_EV_FIRED (k / 32), R.invarEv_DUE_LO k, R.invarEv_DUE_LO k + 4] ++ irqRegs P.invarEv) s.rest) ∧
  (∀ (s : State) t (k : Fin 64), s.b (R.invarEv_ESTAT k) 0 = false ∨ (s.tick t).evPassed k = false → Answers (.timeEventFire t k) s fun u => Frame s u [] s.rest)

/-- PCMD_CLAIM, PCMD_RELEASE, PCMD_RESYNC, PEER_CLAIM_CHANGE, INTLK_CHANGE, CLAIM_RAISE and RELEASE_POINT: requests wait for the interlock and the release point; side B drops its claim
when both are high; branches whose transmitter the interlock stops fall back to STANDBY; a raised claim starts the enabled branches that are neither SILENT nor RETIRED, or takes over those the partner ran;
a release returns the device to UNSYNC; RESYNC resets CORE but the pair (R424 to R428, R441, R442, R448). -/
def Obligations.PairClaims : Prop :=
  (∀ (s : State) t m, s.takes m R.pair_PCMD = true →
    Answers (.pcmdClaim t m) s fun u => u.pair = (if s.pairMode then { s.pair with claimReq := true } else s.pair) ∧ Frame s u [] { s.rest with pair := u.pair }) ∧
  (∀ (s : State) t m, s.takes m R.pair_PCMD = true →
    Answers (.pcmdRelease t m) s fun u =>
      u.pair = (if s.pairMode ∧ s.pair.claim ∧ s.pair.releaseDue = none then { s.pair with releaseDue := some u.now } else s.pair) ∧ Frame s u [] { s.rest with pair := u.pair }) ∧
  (∀ (s : State) t m, s.takes m R.pair_PCMD = true → s.pairMode = true → s.pair.claim = false → s.pair.sync = 0 → s.pair.pxUp = true → s.pair.peerClaim = true →
    s.rst.fuseOk = true → s.rst.asserted = 0 →
    Answers (.pcmdResync t m) s fun u =>
      u.rst.asserted = 0x80 ∧ u.coreInReset = true ∧ u.pairInReset = false ∧ u.b R.reset_RST_CAUSE 7 = true ∧ u.pair = s.pair ∧ u.mem = [] ∧ u.engs = [] ∧ u.br = [] ∧
      u.rd R.pair_PCFG = s.rd R.pair_PCFG ∧ u.rd (R.branch_BRCFG 0) = resetOf (R.branch_BRCFG 0)) ∧
  (∀ (s : State) t high,
    Answers (.peerClaimChange t high) s fun u =>
      let dual := s.pair.claim && high && s.sideB
      u.pair.peerClaim = high ∧ u.pair.claim = (s.pair.claim && !dual) ∧ u.pair.intlkHigh = (s.pair.intlkHigh && !dual) ∧
      u.pair.claimBlock = (if dual then u.now + nsT 1000 else s.pair.claimBlock) ∧
      u.pair.peerLowSince = (if high then none else if s.pair.peerClaim then some u.now else s.pair.peerLowSince) ∧
      u.pair.intlkFault = (!u.pair.claim && !high && !u.pair.intlkHigh) ∧
      (∀ b, b < 8 → u.bstate b = if u.txEnabled then s.bstate b else if s.bstate b ∈ [1, 2, 3, 4] ∨ (s.bstate b = 7 ∧ u.txEcho = false) then 6 else s.bstate b) ∧
      Frame s u ((List.range 8).map R.nodeTable_BSTATE ++ irqRegs P.pair) { s.rest with pair := u.pair }) ∧
  (∀ (s : State) t high,
    Answers (.intlkChange t high) s fun u =>
      let h := high && !s.pair.claim
      let f := !s.pair.claim && !s.pair.peerClaim && !h
      u.pair = { s.pair with intlkHigh := h, intlkFault := f } ∧ (f = true → s.pair.intlkFault = false → u.b (R.IRQ_STAT P.pair) 15 = true) ∧
      (∀ b, b < 8 → u.bstate b = if u.txEnabled then s.bstate b else if s.bstate b ∈ [1, 2, 3, 4] ∨ (s.bstate b = 7 ∧ u.txEcho = false) then 6 else s.bstate b) ∧
      Frame s u ((List.range 8).map R.nodeTable_BSTATE ++ irqRegs P.pair) { s.rest with pair := u.pair }) ∧
  (∀ (s : State) t, (s.tick t).claimDue = true → s.takesOver = true →
    Answers (.claimRaise t) s fun u =>
      u.pair = { s.pair with claim := true, intlkHigh := false, claimReq := false, sync := 0, partnerSync := false } ∧ u.b (R.IRQ_STAT P.pair) 9 = true ∧
      (∀ b, b < 8 → s.brEn b = true → s.pair.ran.getLsbD b = true → s.bstate b = 6 ∨ s.bstate b = 7 →
        u.bstate b = 2 ∧ (u.branch b).far = !(s.branch b).far ∧ (u.branch b).idleUntil = u.now + nsT 8000) ∧
      (∀ b, b < 8 → (u.branch b).txq = [] ∧ (u.branch b).rxq = []) ∧ (∀ b, b < 8 → s.brEn b = false ∨ s.pair.ran.getLsbD b = false → u.bstate b = s.bstate b) ∧
      Frame s u ([R.can_TXSTAT 0, R.can_TXSTAT 1] ++ (List.range 8).map R.nodeTable_BSTATE ++ irqRegs P.pair) { s.rest with pair := u.pair, br := u.br, can := u.can }) ∧
  (∀ (s : State) t, (s.tick t).claimDue = true → s.takesOver = false → s.rst.safeBoot = false →
    Answers (.claimRaise t) s fun u =>
      u.pair = { s.pair with claim := true, intlkHigh := false, claimReq := false } ∧ u.txEnabled = true ∧
      (∀ b, b < 8 → s.brEn b = true → s.bstate b ≠ 5 → s.bstate b ≠ 8 → u.bstate b = 1 ∧ (u.branch b).attemptCycle = s.nextCycle) ∧
      (∀ b, b < 8 → s.brEn b = false ∨ s.bstate b = 5 ∨ s.bstate b = 8 → u.bstate b = s.bstate b) ∧
      (∀ b h, b < 8 → h < 24 → s.brEn b = true → s.bstate b ≠ 5 → s.bstate b ≠ 8 →
        u.nodeState b h = if s.nodeState b h = 6 ∨ s.nodeState b h = 8 then s.nodeState b h else 0) ∧
      Frame s u ([R.can_TXSTAT 0, R.can_TXSTAT 1] ++ (List.range 8).map R.nodeTable_BSTATE ++ (List.range 8).flatMap fun b => (List.range 24).flatMap fun h =>
        [R.nodeTable_NODE_STATE b h, R.nodeTable_NODE_DELAY b h, R.nodeTable_NODE_DELAY_FAR b h]) { s.rest with pair := u.pair, br := u.br, can := u.can }) ∧
  (∀ (s : State) t, (s.tick t).claimDue = false → Answers (.claimRaise t) s fun u => Frame s u [] s.rest) ∧
  (∀ (s : State) t x, s.pair.releaseDue = some x → s.pair.claim = true → (s.tick t).releaseReached x = true →
    Answers (.releasePoint t) s fun u =>
      u.pair = { s.pair with claim := false, intlkHigh := !s.pair.peerClaim, releaseDue := none, claimReq := false, sync := 0, partnerSync := false } ∧ u.role = 0 ∧
      (∀ b, b < 8 → u.bstate b = if s.bstate b ∈ [1, 2, 3, 4, 7] then 6 else s.bstate b) ∧ (∀ b, b < 8 → (u.branch b).txq = [] ∧ (u.branch b).rxq = []) ∧
      u.b (R.IRQ_STAT P.pair) 10 = true ∧ SinHeld s u ∧ Frame s u ((List.range 8).map R.nodeTable_BSTATE ++ irqRegs P.pair) { s.rest with pair := u.pair, br := u.br, sin := u.sin })

/-- AGREEMENT_RECORD, AGREEMENT_TIMEOUT, MIRROR_TIMEOUT, MIRRORED_WRITE and FORWARDED_SLOT_DATA: a standby presents the active's latches and performs its writes and slot data,
which wait for the record of their cycle; one whose
exchange is late leaves LOCKSTEP; any other device ignores them (R421, R429 to R432, R547). -/
def Obligations.LockstepInputs : Prop :=
  (∀ (s : State) t r, s.isStandby = true → r.cycle.toNat = s.cycle → s.pair.agreed ≠ some s.cycle → (s.tick t).phase ≤ nsT 4000 →
    Answers (.agreementRecord t r) s fun u => u.pair.agreed = some s.cycle ∧ u.pair.sync = 2 ∧ u.pair.tcyc = r.tcyc ∧ u.pair.early = [] ∧
      (∀ b h x y, r.branches[b]? = some x → x.nodes[h]? = some y → b < 8 → h < 24 → s.brEn b = true → r.tokens = [] → s.gChans = [] →
        u.nodeState b h = fld y.1 3 0 ∧ u.rd (R.nodeTable_NODE_DELAY b h) = y.2.1) ∧ (∀ b x, r.branches[b]? = some x → b < 8 → u.pair.ran.getLsbD b = x.runs) ∧
      (∀ q x, q < 8 → r.qes[q]? = some x → u.rd (R.qe_CYC_POS q) = x.cycPos ∧ u.rd (R.qe_CYC_ANG q) = x.cycAng ∧ u.rd48 (R.qe_EDGE_T_LO q) = x.edgeT)) ∧
  (∀ (s : State) t r, s.isStandby = true → r.cycle.toNat = s.cycle → s.pair.agreed ≠ some s.cycle → nsT 4000 < (s.tick t).phase →
    Answers (.agreementRecord t r) s fun u => u.pair = { s.pair with cycleFault := true, sync := 0, partnerSync := false } ∧ u.b (R.IRQ_STAT P.pair) 11 = true ∧ SinHeld s u ∧
      Frame s u (irqRegs P.pair) { s.rest with pair := u.pair, sin := u.sin }) ∧
  (∀ (s : State) t r, s.isStandby = false ∨ r.cycle.toNat ≠ s.cycle ∨ s.pair.agreed = some s.cycle →
    Answers (.agreementRecord t r) s fun u => Frame s u [] s.rest) ∧
  (∀ (s : State) t, s.isStandby = true → s.pair.agreed ≠ some s.cycle → nsT 4000 ≤ (s.tick t).phase →
    Answers (.agreementTimeout t) s fun u => u.pair = { s.pair with cycleFault := true, sync := 0, partnerSync := false } ∧ u.role = 0 ∧ u.b (R.IRQ_STAT P.pair) 11 = true ∧ SinHeld s u ∧
      Frame s u (irqRegs P.pair) { s.rest with pair := u.pair, sin := u.sin }) ∧
  (∀ (s : State) t, s.isStandby = true → nsT 4000 ≤ (s.tick t).phase →
    Answers (.mirrorTimeout t) s fun u => u.pair = { s.pair with cycleFault := true, sync := 0, partnerSync := false } ∧ u.b (R.IRQ_STAT P.pair) 11 = true ∧ SinHeld s u ∧
      Frame s u (irqRegs P.pair) { s.rest with pair := u.pair, sin := u.sin }) ∧
  (∀ (s : State) t (c : Fin 16) size (val : W64) since, s.pairMode = true → s.pair.pxUp = true → s.pair.claim = false → s.pair.sync = 1 ∨ s.pair.sync = 2 →
    Answers (.mirroredWrite t (BitVec.ofNat 25 (R.dma_HEAD c)) size val since) s fun u =>
      u.f (R.dma_HEAD c) 15 0 = val.toNat % 65536 ∧ u.f (R.dma_HEAD c) 31 16 = s.f (R.dma_HEAD c) 31 16 ∧ Frame s u [R.dma_HEAD c] s.rest) ∧
  (∀ (s : State) t (a : BitVec 25) (val : W64) since, s.pairMode = true → s.pair.pxUp = true → s.pair.claim = false → s.pair.sync = 1 ∨ s.pair.sync = 2 →
    0x01000000 ≤ a.toNat → a.toNat < 0x01800000 → a.toNat % 8 = 0 → s.isolated a.toNat = false → s.rst.safeBoot = false → s.windowAt a.toNat = none →
    Answers (.mirroredWrite t a .b8 val since) s fun u =>
      u.le a.toNat 8 = val.toNat ∧ (∀ x, x < a.toNat ∨ a.toNat + 8 ≤ x → u.byte x = s.byte x) ∧ RegsKept s u [] ∧ u.rest = { s.rest with mem := u.mem, ecc := u.ecc }) ∧
  (∀ (s : State) t a size val since, s.pairMode = false ∨ s.pair.claim = true ∨ s.pair.sync = 0 → Answers (.mirroredWrite t a size val since) s fun u => Frame s u [] s.rest) ∧
  (∀ (s : State) t (b : Fin 8) (sl : Fin 24) words sub, s.isStandby = true → s.pair.agreed = some s.cycle → words.length ≤ s.slotWords b sl → s.safetyNode b sl = false → s.boundAxes b sl = [] → s.gChans = [] →
    s.arcsOf 1 (b * 32 + sl) = [] →
    (∀ x, cellMemAddr (s.branchCell b) (s.slotOff b sl) ≤ x → x < cellMemAddr (s.branchCell b) (s.slotOff b sl) + 8 * words.length → s.phys x = some x) →
    s.slotOff b sl % 8 = 0 →
    Answers (.forwardedSlotData t b sl words sub) s fun u =>
      let a := cellMemAddr (s.branchCell b) (s.slotOff b sl)
      (∀ i (w : W48), words[i]? = some w → u.word48 (a + 8 * i) = w) ∧ (∀ x, x < a ∨ a + 8 * words.length ≤ x → u.byte x = s.byte x) ∧ QuietRegs s u [] ∧
      u.rest = { s.rest with mem := u.mem, ecc := u.ecc, perf := u.perf }) ∧
  (∀ (s : State) t (b : Fin 8) (sl : Fin 24) words sub, s.isStandby = true → s.pair.agreed ≠ some s.cycle → s.safetyNode b sl = false →
    Answers (.forwardedSlotData t b sl words sub) s fun u =>
      u.pair = { s.pair with early := s.pair.early ++ [(b.val, sl.val, words)] } ∧ Frame s u [] { s.rest with pair := u.pair }) ∧
  (∀ (s : State) t b sl words sub, s.isStandby = false → Answers (.forwardedSlotData t b sl words sub) s fun u => Frame s u [] s.rest)

/-- STALE_MASK_EXCHANGE, DIGEST_EXCHANGE, ECHO_ON, ECHO_OFF, ECHO_AUTO_START, ECHO_FORWARDED_FRAME and RESYNC_ROUND_END: equal frames are counted as compared and a difference is a mismatch, on which
a device without the claim leaves LOCKSTEP; what arrives after its deadline does not count as received; echo starts where PX has room for it; a round that leaves at most 16 granules is followed by the final one, and the 32nd gives
up (R438 to R440, R445 to R449, R473). -/
def Obligations.LockstepComparison : Prop :=
  (∀ (s : State) t masks, s.pairMode = true → s.pair.claim = true →
    Answers (.staleMaskExchange t masks) s fun u => u.pair = { s.pair with peerMask := masks, maskIn := decide ((s.tick t).phase ≤ nsT 2000) } ∧
      u.out = (if s.inLockstep then .digest u.ownDigest u.bothFresh.length s.pair.safetyCrc :: s.out else s.out) ∧ Frame s u [] { s.rest with pair := u.pair }) ∧
  (∀ (s : State) t masks, s.pairMode = true → s.pair.claim = false →
    Answers (.staleMaskExchange t masks) s fun u =>
      u.pair = { s.pair with peerMask := masks, maskIn := decide ((s.tick t).phase ≤ nsT 2000) } ∧
      (s.inLockstep = true → u.out.head? = some (.digest u.ownDigest u.bothFresh.length s.pair.safetyCrc)) ∧
      (∀ b sl, b < 8 → sl < 24 → sl < s.nSlots b → s.brEn b = true →
        u.f (R.sinNode_NSSTAT b sl) 7 0 = if (masks.getD b 0).getLsbD sl then min (s.f (R.sinNode_NSSTAT b sl) 7 0 + 1) 255 else 0) ∧
      MemKept s u ∧ u.rest = { s.rest with pair := u.pair, sin := u.sin }) ∧
  (∀ (s : State) t digest count safety, s.pairMode = true → s.inLockstep = true → digest = s.ownDigest → count = s.bothFresh.length → safety = s.pair.safetyCrc →
    (∀ b sl, b < 8 → sl < 24 → s.brEn b = true → sl < s.nSlots b → (s.pair.ownMask.getD b 0).getLsbD sl = s.peerStale b sl) →
    Answers (.digestExchange t digest count safety) s fun u =>
      u.f R.pair_CMPSTAT 15 0 = min (s.f R.pair_CMPSTAT 15 0 + 1) 65535 ∧ u.inLockstep = true ∧
      u.pair = { s.pair with digestIn := decide ((s.tick t).phase ≤ nsT 4000), divRun := u.pair.divRun } ∧
      Frame s u [R.pair_CMPSTAT] { s.rest with pair := u.pair }) ∧
  (∀ (s : State) t digest count safety, s.pairMode = true → s.inLockstep = true → digest ≠ s.ownDigest ∨ count ≠ s.bothFresh.length ∨ safety ≠ s.pair.safetyCrc →
    Answers (.digestExchange t digest count safety) s fun u =>
      u.f R.pair_CMPSTAT 31 16 = min (s.f R.pair_CMPSTAT 31 16 + 1) 65535 ∧ u.f R.pair_CMPSTAT 15 0 = min (s.f R.pair_CMPSTAT 15 0 + 1) 65535 ∧
      u.b (R.IRQ_STAT P.pair) 8 = true ∧ u.f (R.sinClass_DET 2) 15 0 = min (s.f (R.sinClass_DET 2) 15 0 + 1) 65535 ∧ u.inLockstep = s.pair.claim ∧
      (if s.pair.claim then u.sin = s.sin else SinHeld s u) ∧
      Frame s u ([R.pair_CMPSTAT, R.pair_DIV_CNT, R.sinClass_DET 2] ++ irqRegs P.pair) { s.rest with pair := u.pair, sin := u.sin }) ∧
  (∀ (s : State) t m (b : Fin 8), s.takes m R.pair_PCMD = true → s.echoMay b = true →
    100 * (List.range 8).foldl (fun n c => if c = b.val || s.bstate c = 7 || (s.branch c).echoOn then n + s.echoLoad c else n) s.pxF ≤ 95 * s.pxB →
    Answers (.echoOn t m b) s fun u => u.branch b = { s.branch b with echoOn := true, idleUntil := u.now + nsT 8000 } ∧ u.out.head? = some (.idle b) ∧
      Frame s u [] { s.rest with br := u.br }) ∧
  (∀ (s : State) t m (b : Fin 8), s.takes m R.pair_PCMD = true → s.echoMay b = true →
    95 * s.pxB < 100 * (List.range 8).foldl (fun n c => if c = b.val || s.bstate c = 7 || (s.branch c).echoOn then n + s.echoLoad c else n) s.pxF →
    Answers (.echoOn t m b) s fun u => u.b (R.IRQ_STAT P.pair) 14 = true ∧ Frame s u (irqRegs P.pair) s.rest) ∧
  (∀ (s : State) t m (b : Fin 8), s.takes m R.pair_PCMD = true →
    Answers (.echoOff t m b) s fun u => u.branch b = { s.branch b with echoOn := false, echoEnd := (s.branch b).echoEnd || decide (s.bstate b = 7) } ∧
      Frame s u [] { s.rest with br := u.br }) ∧
  (∀ (s : State) t (b : Fin 8), s.echoMay b = true → s.b R.pair_PCFG (8 + b) = true → s.pair.ran.getLsbD b = true → 2 ≤ Tab.get s.pair.missedSync b 0 →
    100 * (List.range 8).foldl (fun n c => if c = b.val || s.bstate c = 7 || (s.branch c).echoOn then n + s.echoLoad c else n) s.pxF ≤ 95 * s.pxB →
    Answers (.echoAutoStart t b) s fun u => u.branch b = { s.branch b with echoOn := true, idleUntil := u.now + nsT 8000 } ∧ Frame s u [] { s.rest with br := u.br }) ∧
  (∀ (s : State) t (b : Fin 8) (sl : Fin 24) words sub, s.pairMode = true → s.pair.claim = true → s.driven b = true → (s.slot b sl).accepted = false →
    s.shutOut b sl = false → (s.tick t).phase < nsT (s.tNs - s.nitNs b) →
    Answers (.echoForwardedFrame t b sl words sub) s fun u =>
      (u.slot b sl).accepted = true ∧ (u.branch b).anyAccepted = true ∧ u.out.head? = some (.pxSlot b sl words sub)) ∧
  (∀ (s : State) t dirty kib, s.pairMode = true → s.pair.claim = false → s.pair.sync = 1 → s.pair.final = false →
    Answers (.resyncRoundEnd t dirty kib) s fun u =>
      let n := s.pair.round + 1
      u.pair = (if dirty ≤ 16 then { s.pair with round := n, final := true } else if 32 ≤ n then { s.pair with sync := 0, round := n } else { s.pair with round := n }) ∧
      u.f R.pair_RESYNC_STAT 31 16 = min dirty 65535 ∧ u.f R.pair_RESYNC_STAT 15 0 = min (s.f R.pair_RESYNC_STAT 15 0 + kib) 65535 ∧ (16 < dirty → 32 ≤ n → u.b (R.IRQ_STAT P.pair) 13 = true) ∧
      Frame s u (R.pair_RESYNC_STAT :: irqRegs P.pair) { s.rest with pair := u.pair }) ∧
  (∀ (s : State) t dirty kib, s.pairMode = true → s.pair.claim = false → s.pair.sync = 1 → s.pair.final = true →
    Answers (.resyncRoundEnd t dirty kib) s fun u => u.role = 2 ∧ u.pair.partnerSync = true ∧ u.pair.agreed = some s.cycle ∧ u.pair.maskIn = true ∧ u.pair.digestIn = true ∧ u.b (R.IRQ_STAT P.pair) 12 = true) ∧
  (∀ (s : State) t dirty kib copy, s.pairMode = true → s.pair.claim = false → s.pair.sync = 1 →
    exec (.resyncRoundEnd t dirty kib copy) s = exec (.resyncRoundEnd t dirty kib) ((s.tick t).takeCopy copy)) ∧
  (∀ (s : State) (g : BitVec 13) l, 0x1000 ≤ g.toNat → l.length = 4096 →
    let u := s.takeRound { mem := [(g, l)] }
    (∀ i x, l[i]? = some x → u.byte (4096 * g.toNat + i) = x) ∧ (∀ a, a < 4096 * g.toNat ∨ 4096 * g.toNat + 4096 ≤ a → u.byte a = s.byte a) ∧
    RegsKept s u [] ∧ u.rest = { s.rest with mem := u.mem, ecc := u.ecc }) ∧
  (∀ (s : State) x, s.sin.state ≠ 2 →
    let u := s.takeLast x
    u.sin.state = x.sinState ∧ u.sin.axes = x.axes ∧ u.sin.conns = x.conns ∧ u.lahar = { x.lahar with ready := [] } ∧ u.lp = x.lp ∧ u.ax = x.ax ∧ u.gey = x.gey ∧
      (∀ b, b < 8 → (u.branch b).slots = (Tab.get x.br b {}).slots ∧ (u.branch b).hops = (Tab.get x.br b {}).hops) ∧
      u.sin.hs = (decide (x.sinState = 4) && s.b R.sinCore_SCFG 0 && decide (s.sin.test ≠ some 0)) ∧ RegsKept s u [] ∧ MemKept s u) ∧
  (∀ (s : State) x, s.sin.state = 2 → (s.takeLast x).sin = s.sin)

/-- ROOT_ELECTION, BAR2_REQUEST, CASCADE_READ_COMPLETION, CASCADE_READ_TIMEOUT, CASCADE_INTERRUPT, REMOTE_PEND_CLEAR, LUAVAN_PORT_LOCK_CHANGE, PCIE_LINK_CHANGE and PX_LINK_CHANGE: the lowest serial number with
a PCI Express link is the root; a request of the window goes to the device of its slot in parts, or ends with Unsupported Request; a read waits 2 µs at the root;
an interrupt of a device is pending at the root until it is cleared; a port whose calibration failed, and a PX link that is retired, stay down (R419, R607, R451 to R454, R457, R530, R536). -/
def Obligations.CascadeCommands : Prop :=
  (∀ (s : State) t cands found, s.pairInReset = false → s.b R.lvCommon_LVCFG 0 = true → s.pcie.up = true → (∀ c ∈ cands, (s.rd48 R.chip_SERIAL_LO).toNat < c.serial.toNat) →
    Answers (.rootElection t cands found) s fun u =>
      u.b R.lvCommon_LVSTAT 7 = true ∧ u.b R.lvCommon_LVSTAT 8 = false ∧ u.rd48 R.lvCommon_ROOT_SERIAL_LO = s.rd48 R.chip_SERIAL_LO ∧
      u.b (R.IRQ_STAT P.lvCommon) 8 = true ∧ MemKept s u ∧ u.rest = { s.rest with lv := u.lv }) ∧
  (∀ (s : State) t cands found c, s.pairInReset = false → s.b R.lvCommon_LVCFG 0 = true → s.pcie.up = true → c ∈ cands → c.serial.toNat < (s.rd48 R.chip_SERIAL_LO).toNat →
    Answers (.rootElection t cands found) s fun u => u.b R.lvCommon_LVSTAT 7 = false ∧ u.b R.lvCommon_LVSTAT 8 = true ∧ u.b (R.IRQ_STAT P.lvCommon) 10 = true) ∧
  (∀ (s : State) t cands found, s.b R.lvCommon_LVCFG 0 = false → Answers (.rootElection t cands found) s fun u => Frame s u [] s.rest) ∧
  (∀ (s : State) t (r : Bar2Req), s.barOpen .host = true → s.b R.lvCommon_LVSTAT 7 = true → shapeFail r.off.toNat r.len r.write = none →
    (s.b R.lvCommon_LVSTAT 6 = true → s.f R.lvCommon_LVSTAT 5 0 ≠ r.slot.toNat) → s.b (R.lvCommon_PRESENT (r.slot.toNat / 32)) (r.slot.toNat % 32) = true →
    r.write = false → s.lv.reads.length < 32 → r.len ≤ 64 →
    Answers (.bar2Request t r) s fun u =>
      u.lv = { s.lv with
        reads := s.lv.reads ++ [{ tag := s.lv.nextTag, since := u.now, slot := r.slot.toNat, off := r.off.toNat, len := r.len, parts := [] }], nextTag := s.lv.nextTag + 1 } ∧
      u.out = .cascade r.slot.toNat r.off.toNat false r.len [] :: s.out ∧ Frame s u [] { s.rest with lv := u.lv }) ∧
  (∀ (s : State) t (r : Bar2Req), s.barOpen .host = true → s.b R.lvCommon_LVSTAT 7 = true → shapeFail r.off.toNat r.len r.write = none →
    (s.b R.lvCommon_LVSTAT 6 = true → s.f R.lvCommon_LVSTAT 5 0 ≠ r.slot.toNat) → s.b (R.lvCommon_PRESENT (r.slot.toNat / 32)) (r.slot.toNat % 32) = false →
    Answers (.bar2Request t r) s fun u =>
      u.f R.lvCommon_LVERR 31 16 = min (s.f R.lvCommon_LVERR 31 16 + 1) 65535 ∧ u.f R.pcie_PCIE_ERR 7 0 = min (s.f R.pcie_PCIE_ERR 7 0 + 1) 255 ∧
      u.out = (if r.write then s.out else .unsupported .host (r.slot.toNat * 2 ^ 25 + r.off.toNat) :: s.out) ∧
      Frame s u [R.lvCommon_LVERR, R.chip_ERR_ADDR, R.chip_ERR_INFO, R.pcie_PCIE_ERR] s.rest) ∧
  (∀ (s : State) t (tag : Nat) x data, s.lv.reads.find? (·.tag = tag) = some x → x.len ≤ 64 → x.parts = [] → 0 < x.len →
    Answers (.cascadeReadCompletion t tag 0 true data) s fun u =>
      u.lv = { s.lv with reads := s.lv.reads.filter (·.tag ≠ tag) } ∧ u.out = .readBytes .host (x.slot * 2 ^ 25 + x.off) data :: s.out ∧ Frame s u [] { s.rest with lv := u.lv }) ∧
  (∀ (s : State) t (tag : Nat) x, s.lv.reads.find? (·.tag = tag) = some x → x.since + nsT 2000 ≤ (s.tick t).now →
    Answers (.cascadeReadTimeout t tag) s fun u =>
      u.lv = { s.lv with reads := s.lv.reads.filter (·.tag ≠ tag) } ∧ u.f R.lvCommon_LVERR 15 0 = min (s.f R.lvCommon_LVERR 15 0 + 1) 65535 ∧
      u.b (R.IRQ_STAT P.lvCommon) 11 = true ∧ .unsupported .host (x.slot * 2 ^ 25 + x.off) :: s.out <:+ u.out ∧
      Frame s u ([R.lvCommon_LVERR, R.chip_ERR_ADDR, R.chip_ERR_INFO, R.pcie_PCIE_ERR] ++ irqRegs P.lvCommon) { s.rest with lv := u.lv }) ∧
  (∀ (s : State) t dev v, s.b R.lvCommon_LVSTAT 7 = true → s.coreInReset = false →
    Answers (.cascadeInterrupt t dev v) s fun u => u.b (R.router_REMOTE_PEND (dev.toNat / 32)) (dev.toNat % 32) = true ∧
      Frame s u [R.router_REMOTE_PEND (dev.toNat / 32), R.router_VEC_ARM 0, R.router_VEC_ARM 1] s.rest) ∧
  (∀ (s : State) t m hi bits, s.takes m (R.router_REMOTE_PEND (b2n hi)) = true → (Tab.get s.hwSet (R.router_REMOTE_PEND (b2n hi)) (0, 0)).1 ≠ ecyc (s.tick t).now →
    Answers (.remotePendClear t m hi bits) s fun u => u.rd (R.router_REMOTE_PEND (b2n hi)) = s.rd (R.router_REMOTE_PEND (b2n hi)) &&& ~~~ bits ∧
      Frame s u [R.router_REMOTE_PEND (b2n hi), R.router_VEC_ARM 0, R.router_VEC_ARM 1] s.rest) ∧
  (∀ (s : State) t (p : Fin 2) n, s.pairInReset = false → s.b R.lvCommon_LVSTAT 6 = false → s.calOk 1 = true →
    Answers (.luavanPortLockChange t p true (some n)) s (fun u => u.b (R.lvPort_LSTAT p) 0 = true ∧ u.f (R.lvPort_LSTAT p) 21 16 = n.toNat ∧ u.b (R.lvPort_LSTAT p) 22 = true ∧
      Frame s u [R.lvPort_LSTAT p] s.rest) ∧
    Answers (.luavanPortLockChange t p false (some n)) s (fun u => u.rd (R.lvPort_LSTAT p) = 0 ∧ u.lv.fault = p.val :: s.lv.fault ∧
      Frame s u [R.lvPort_LSTAT p] { s.rest with lv := u.lv })) ∧
  (∀ (s : State) t (p : Fin 2) up n, s.pairInReset = false →
    Answers (.luavanPortLockChange t p up n (some .crc)) s (fun u => u.f (R.lvPort_LCNT p) 15 0 = min (s.f (R.lvPort_LCNT p) 15 0 + 1) 65535 ∧ Frame s u [R.lvPort_LCNT p] s.rest) ∧
    Answers (.luavanPortLockChange t p up n (some .retry)) s (fun u => u.f (R.lvPort_LCNT p) 31 16 = min (s.f (R.lvPort_LCNT p) 31 16 + 1) 65535 ∧
      u.lv.fault = p.val :: s.lv.fault ∧ Frame s u [R.lvPort_LCNT p] { s.rest with lv := u.lv })) ∧
  (∀ (s : State) t p up n, s.calOk 1 = false → exec (.luavanPortLockChange t p up n) s = exec (.luavanPortLockChange t p false n) s) ∧
  (∀ (s : State) t on speed width, s.endpointInReset = false →
    Answers (.pcieLinkChange t on speed width) s fun u =>
      let up := on && s.calOk 2
      u.pcie = { s.pcie with up := up, speed := if up then speed else 0, width := if up then width else 0 } ∧
      (up = false → u.b R.lvCommon_LVSTAT 7 = false ∧ u.b R.lvCommon_LVSTAT 8 = false) ∧ (up = true → RegsKept s u []) ∧
      Frame s u [R.lvCommon_LVSTAT] { s.rest with
        pcie := { s.rest.pcie with up := up, speed := if up then speed else 0, width := if up then width else 0 } }) ∧
  (∀ (s : State) t up info, s.pairInReset = false →
    Answers (.pxLinkChange t up info) s fun u =>
      let on := up && !(s.fdCh 3 0).perm && s.calOk 1
      u.pair = { s.pair with pxUp := on, partner := (if on then some info else none), partnerSync := s.pair.partnerSync && on && info.lockstep } ∧
      (on = true → u.rd48 R.pair_PEER_SERIAL_LO = info.serial) ∧ Frame s u [R.pair_PEER_SERIAL_LO, R.pair_PEER_SERIAL_LO + 4] { s.rest with pair := u.pair }) ∧
  (∀ (s : State) t up info, s.pairInReset = false →
    Answers (.pxLinkChange t up info true) s fun u => u.pair = { s.pair with cycleFault := true } ∧ Frame s u [] { s.rest with pair := u.pair })

/-- NODE_SAFETY_TIMEOUT, CMD_MISS, CYCLE_MISS, SS1T_EXPIRE, SS1R_TMAX, AXCMD_STOP and AXCMD_ACK: a silent node and a run of missed fields are failures of classes 5 and 1 with the node's
own response, a missed cycle deadline of class 0; a stop demand starts the axis's function, whose time sets STO at last; an ACK ends it when no demand persists and none
is new in the cycle (R472 to R481, R487). -/
def Obligations.AxisSafety : Prop :=
  (∀ (s : State) t (b : Fin 8) (sl : Fin 24), s.systemInReset = false → s.nodeTimeout b sl = true → s.b (R.sinNode_NSSTAT b sl) 16 = false →
    s.f (R.sinNode_NSCFG b sl) 30 28 = 1 →
    Answers (.nodeSafetyTimeout t b sl) s fun u =>
      u.b (R.sinNode_NSSTAT b sl) 16 = true ∧ u.b (R.IRQ_STAT (P.sinNode b)) 10 = true ∧ u.b (R.IRQ_STAT P.sinCore) 8 = true ∧ Counted s u 5 ∧
      (∀ a ∈ s.nodeAxes b sl, (u.sax a).sto = true) ∧ (∀ a, a ∉ s.nodeAxes b sl → u.sax a = s.sax a) ∧
      Frame s u (R.sinNode_NSSTAT b sl :: sinRegs (P.sinNode b) 5) { s.rest with sin := u.sin }) ∧
  (∀ (s : State) t (b : Fin 8) (sl : Fin 24), s.systemInReset = false → s.nodeTimeout b sl = true → s.b (R.sinNode_NSSTAT b sl) 16 = false →
    s.f (R.sinNode_NSCFG b sl) 30 28 = 0 →
    Answers (.nodeSafetyTimeout t b sl) s fun u =>
      u.b (R.sinNode_NSSTAT b sl) 16 = true ∧ u.conn b sl = { s.conn b sl with tmoDev := false } ∧ Counted s u 5 ∧ (∀ a, u.sax a = s.sax a) ∧
      Frame s u (R.sinNode_NSSTAT b sl :: R.sinClass_DET 5 :: irqRegs (P.sinNode b)) { s.rest with sin := u.sin }) ∧
  (∀ (s : State) t (b : Fin 8) (sl : Fin 24), s.systemInReset = false → s.missLevel b sl = true → (s.conn b sl).missReported = false →
    s.f (R.sinNode_NSCFG b sl) 26 24 = 1 →
    Answers (.cmdMiss t b sl) s fun u =>
      (u.conn b sl) = { s.conn b sl with missReported := true, missDev := false } ∧ u.b (R.IRQ_STAT (P.sinNode b)) 11 = true ∧ Counted s u 1 ∧
      (∀ a ∈ s.nodeAxes b sl, (u.sax a).sto = true) ∧ (∀ a, a ∉ s.nodeAxes b sl → u.sax a = s.sax a) ∧
      Frame s u (sinRegs (P.sinNode b) 1) { s.rest with sin := u.sin }) ∧
  (∀ (s : State) t (b : Fin 8), s.systemInReset = false → (s.tick t).cycleLate b = true → s.f (R.sinClass_RESP 0) 2 0 = 4 →
    (s.pair.claim && s.pairMode && s.withPartner) = false →
    Answers (.cycleMiss t b) s fun u =>
      u.f R.sinCore_CYC_MISS 31 0 = min (s.f R.sinCore_CYC_MISS 31 0 + 1) (2 ^ 32 - 1) ∧ Counted s u 0 ∧ u.sin.cause = 0 ∧
      u.sin.state = (if s.sin.state = 4 then 3 else s.sin.state) ∧ (∀ a ∈ s.allAxes, (u.sax a).sto = true) ∧ u.branch b = (s.tick t).lateTaken b ∧
      (∀ c : Nat, c ≠ b → u.branch c = s.branch c) ∧ Frame s u (R.sinCore_CYC_MISS :: sinRegs P.sinCore 0) { s.rest with sin := u.sin, br := u.br }) ∧
  (∀ (s : State) t (b : Fin 8), s.systemInReset = false → (s.tick t).cycleLate b = true → s.f (R.sinClass_RESP 0) 2 0 = 0 →
    Answers (.cycleMiss t b) s fun u =>
      u.f R.sinCore_CYC_MISS 31 0 = min (s.f R.sinCore_CYC_MISS 31 0 + 1) (2 ^ 32 - 1) ∧ Counted s u 0 ∧ u.branch b = (s.tick t).lateTaken b ∧
      (∀ c : Nat, c ≠ b → u.branch c = s.branch c) ∧ Frame s u [R.sinCore_CYC_MISS, R.sinClass_DET 0] { s.rest with br := u.br }) ∧
  (∀ (s : State) t (a : Fin 128) c, s.systemInReset = false → (s.sax a).ss1t = some c → s.f (R.sinAxis_SS1T (a.val / 32) (a.val % 32)) 15 0 ≤ s.cycle - c → (s.sax a).sto = false →
    Answers (.ss1tExpire t a) s fun u =>
      u.sax a = { s.sax a with demandCycle := some s.cycle, sto := true, stoCycle := s.cycle, event := true, ss1t := none, ss1r := none } ∧
      u.b (R.IRQ_STAT (P.sinAxis (a.val / 32))) 8 = true ∧ (∀ d, d ≠ a.val → u.sax d = s.sax d) ∧
      Frame s u (irqRegs (P.sinAxis (a.val / 32))) { s.rest with sin := u.sin }) ∧
  (∀ (s : State) t (a : Fin 128) c v, s.systemInReset = false → (s.sax a).ss1r = some (c, v) → s.f (R.sinAxis_SS1R_LIM (a.val / 32) (a.val % 32)) 15 0 ≤ s.cycle - c →
    (s.sax a).sto = false →
    Answers (.ss1rTmax t a) s fun u =>
      u.sax a = { s.sax a with demandCycle := some s.cycle, sto := true, stoCycle := s.cycle, event := true, ss1t := none, ss1r := none } ∧
      (∀ d, d ≠ a.val → u.sax d = s.sax d) ∧ Frame s u (irqRegs (P.sinAxis (a.val / 32))) { s.rest with sin := u.sin }) ∧
  (∀ (s : State) t m (a : Fin 128), s.takes m (R.sinAxis_AXCMD (a.val / 32) (a.val % 32)) = true → s.underSinter a = true → (s.sax a).sto = false →
    Answers (.axcmdStop t m a) s fun u =>
      let x := s.sax a
      u.sax a = (match s.f (sfcfg a) 1 0 with
        | 0 => { x with demandCycle := some s.cycle, sto := true, stoCycle := s.cycle, event := true, ss1t := none, ss1r := none }
        | 1 => { x with demandCycle := some s.cycle, event := true, stopReq := true, ss1t := some (x.ss1t.getD s.cycle) }
        | _ => { x with demandCycle := some s.cycle, event := true, stopReq := true, ss1r := some (x.ss1r.getD (s.cycle, x.spd.toInt.natAbs)) }) ∧
      (∀ d, d ≠ a.val → u.sax d = s.sax d) ∧ Frame s u (irqRegs (P.sinAxis (a.val / 32))) { s.rest with sin := u.sin }) ∧
  (∀ (s : State) t m (a : Fin 128), s.takes m (R.sinAxis_AXCMD (a.val / 32) (a.val % 32)) = true → s.underSinter a = true → s.levelDemand a = false →
    (s.sax a).demandCycle ≠ some s.cycle →
    Answers (.axcmdAck t m a) s fun u =>
      u.sax a = { s.sax a with event := false, sto := false, stopReq := false, ss1t := none, ss1r := none, speed := false } ∧ (∀ d, d ≠ a.val → u.sax d = s.sax d) ∧
      Frame s u [] { s.rest with sin := u.sin }) ∧
  (∀ (s : State) t m (a : Fin 128), s.takes m (R.sinAxis_AXCMD (a.val / 32) (a.val % 32)) = true →
    s.underSinter a = false ∨ s.levelDemand a = true ∨ (s.sax a).demandCycle = some s.cycle → Answers (.axcmdAck t m a) s fun u => Frame s u [] s.rest)

/-- STO_FEEDBACK_SAMPLE, OFF_PULSE_TEST_END, CHANNEL_DISAGREE, CLOCK_CROSS_CHECK, CLOCK_WINDOW_TIMEOUT, SUPPLY_EXCURSION, SELFTEST_END and SINTER_SELF_TEST: a feedback that no allowance explains, a
failed test, channels that disagree, a clock outside 4,704 to 4,896, a monitored supply outside its range, a bank outside its classes at arming and a failed self-test each latch Sinter with both outputs low; what
passes changes only its own record (R463, R482 to R486, R620, R621, Table 14.7). -/
def Obligations.IslandMonitors : Prop :=
  (∀ (s : State) t hs ls, s.systemInReset = false → (s.tick t).fbOk s.sin.hs hs s.sin.hsAt = true → (s.tick t).fbOk s.sin.ls ls s.sin.lsAt = true →
    Answers (.stoFeedbackSample t hs ls) s fun u => u.sin = { s.sin with hsFb := hs, lsFb := ls } ∧ Frame s u [] { s.rest with sin := u.sin }) ∧
  (∀ (s : State) t hs ls, s.systemInReset = false → ((s.tick t).fbOk s.sin.hs hs s.sin.hsAt = false ∨ (s.tick t).fbOk s.sin.ls ls s.sin.lsAt = false) →
    Answers (.stoFeedbackSample t hs ls) s fun u => Latched s u 9 ∧ u.sin.cause = 9 ∧ u.sin.outFault = true ∧ u.b (R.IRQ_STAT P.sinCore) 10 = true) ∧
  (∀ (s : State) t w, s.systemInReset = false → s.sin.test = some w → s.sin.testAt + nsT 300000 ≤ (s.tick t).now →
    Answers (.offPulseTestEnd t true) s (fun u =>
      u.sin.test = none ∧ u.sin.testNext = 1 - w ∧ u.sin.testEnd = u.now ∧ u.sin.state = s.sin.state ∧
      u.sin.hs = (decide (s.sin.state = 4) && s.b R.sinCore_SCFG 0) ∧ u.sin.ls = (decide (s.sin.state = 4) && s.b R.sinCore_SCFG 0) ∧
      u.f R.sinCore_OUTSTAT 31 16 = min (s.f R.sinCore_OUTSTAT 31 16 + 1) 65535 ∧ Frame s u [R.sinCore_OUTSTAT] { s.rest with sin := u.sin }) ∧
    Answers (.offPulseTestEnd t false) s (fun u => Latched s u 9 ∧ u.sin.outFault = true)) ∧
  (∀ (s : State) t, s.systemInReset = false → Answers (.channelDisagree t) s fun u => Latched s u 8 ∧ u.sin.cause = 8) ∧
  (∀ (s : State) t rc, s.systemInReset = false → 4704 ≤ rc → rc ≤ 4896 →
    Answers (.clockCrossCheck t rc) s fun u => u.f R.sinCore_CLKX 12 0 = rc ∧ Frame s u [R.sinCore_CLKX] s.rest) ∧
  (∀ (s : State) t rc, s.systemInReset = false → rc < 4704 ∨ 4896 < rc → s.newReach 6 = 0 →
    Answers (.clockCrossCheck t rc) s fun u => Latched s u 6 ∧ u.sin.cause = 6 ∧ u.b R.sinCore_CLKX 16 = true ∧ u.f R.sinCore_CLKX 12 0 = min rc 8191 ∧ u.pair.claim = false) ∧
  (∀ (s : State) t, s.systemInReset = false → s.rst.fuseOk = true → s.reachEntry 6 = 3 → s.rst.asserted = 0 →
    Answers (.clockWindowTimeout t) s fun u =>
      u.sin.state = 2 ∧ u.sin.hs = false ∧ u.sin.ls = false ∧ u.b R.sinCore_CLKX 16 = true ∧ u.pair.claim = false ∧ u.rst.asserted = 0x40 ∧ u.coreInReset = true ∧
      u.systemInReset = false ∧ u.mem = [] ∧ u.engs = []) ∧
  (∀ (s : State) t (rail : Fin 6) (bank : Fin 5), s.systemInReset = false → s.monitored rail bank = false →
    Answers (.supplyExcursion t rail bank) s fun u => Frame s u [] s.rest) ∧
  (∀ (s : State) (rail : Fin 6) (bank : Fin 5), s.monitored rail bank = true ↔ s.sin.armed = true ∧ ¬(rail = 5 ∧ s.bankClass bank = .unused)) ∧
  (∀ (s : State) t (rail : Fin 6) (bank : Fin 5), s.systemInReset = false → s.monitored rail bank = true →
    Answers (.supplyExcursion t rail bank) s fun u => Latched s u 7 ∧ u.sin.cause = 7 ∧ u.b R.sinCore_SUPPLY rail = true ∧ u.b (R.IRQ_STAT P.sinCore) 13 = true ∧
      u.pair.claim = false) ∧
  (∀ (s : State) t, s.systemInReset = false → s.sin.state = 0 → (s.rst.fuseOk || s.rst.safeBoot) = true →
    (s.banksBad = false → Answers (.selftestEnd t true) s (fun u => u.sin.state = 1 ∧ u.sin.armed = true ∧ Frame s u [] { s.rest with sin := u.sin })) ∧
    (s.banksBad = true → Answers (.selftestEnd t true) s (fun u => Latched s u 7 ∧ u.sin.cause = 7 ∧ u.sin.armed = true ∧ u.b R.sinCore_SUPPLY 5 = true)) ∧
    Answers (.selftestEnd t false) s (fun u => Latched s u 8 ∧ u.sin.cause = 8)) ∧
  (∀ (s : State) t, s.systemInReset = false → (s.sin.state ≠ 0 ∨ (s.rst.fuseOk || s.rst.safeBoot) = false) →
    ∀ ok, Answers (.selftestEnd t ok) s fun u => Frame s u [] s.rest) ∧
  (∀ (s : State) t, s.systemInReset = false →
    Answers (.sinterSelfTest t true) s (fun u => Frame s u [] s.rest) ∧ Answers (.sinterSelfTest t false) s (fun u => Latched s u 8 ∧ u.sin.cause = 8))

/-- SIN_SAMPLE, SIN_DISCREPANCY, PARTNER_SAFETY_DEMAND, SCMD_ACK, SCMD_DSTO and PARAM_ACK: a level counts after FILT + 1 equal samples and a pair off its released levels demands; inputs
that disagree for longer than DISC are a discrepancy; ACK permits RUN only without a device-level cause and with the parameters acknowledged; DSTO acts as class HOST;
PARAM_ACK wants PARAM_CRC (R485, R491, R494, Table 14.7). -/
def Obligations.IslandCommands : Prop :=
  (∀ (s : State) t (levels : BitVec 4), s.systemInReset = false → s.sin.pairs.length = 2 →
    Answers (.sinSample t levels) s fun u =>
      u.sin.inputs = s.sin.inputs.zipIdx.map (fun (x, i) => sampleInput x (levels.getLsbD i) (s.f R.sinCore_SINCFG (16 * (i / 2) + 7) (16 * (i / 2) + 4))) ∧
      (∀ p, p < 2 → s.b R.sinCore_SINCFG (16 * p) = true →
        let r0 := releasedLevel (s.b R.sinCore_SINCFG (16 * p + 1)) 0 ((u.sin.inputs.getD (2 * p) {}).level)
        let r1 := releasedLevel (s.b R.sinCore_SINCFG (16 * p + 1)) 1 ((u.sin.inputs.getD (2 * p + 1) {}).level)
        let x := s.sin.pairs.getD p {}
        let y := u.sin.pairs.getD p {}
        (y.demand = (x.demand || !(r0 && r1) || y.disc)) ∧ (y.active = (!(r0 && r1) || y.disc)) ∧ (x.disc = false → y.disc = false) ∧
        (y.since = if r0 = r1 then none else some (x.since.getD u.now)) ∧
        (y.demand = true → x.demand = false → u.b (R.IRQ_STAT P.sinCore) 8 = true ∧
          (s.pairMode = false → ∀ a ∈ s.allAxes, trigSelects (s.f (sfcfg a) 3 2) p = true → (u.sax a).event = true))) ∧
      (∀ p, p < 2 → s.b R.sinCore_SINCFG (16 * p) = false → (u.sin.pairs.getD p {}).demand = (s.sin.pairs.getD p {}).demand ∧ (u.sin.pairs.getD p {}).active = false) ∧
      RegsKept s u (irqRegs P.sinCore ++ (List.range 4).map fun n => R.IRQ_STAT (P.sinAxis n)) ∧ MemKept s u ∧ u.rest = { s.rest with sin := u.sin }) ∧
  (∀ (x : SinInput) v filt, (sampleInput x v filt).level = (if filt + 1 ≤ (if v = x.last then x.run + 1 else 1) then v else x.level)) ∧
  (∀ (s : State) t (p : Fin 2) x c, s.systemInReset = false → s.sin.pairs[p.val]? = some x → x.since = some c → x.disc = false →
    nsT (2000000 * s.f R.sinCore_SINCFG (16 * p.val + 15) (16 * p.val + 8)) < (s.tick t).now - c →
    Answers (.sinDiscrepancy t p) s fun u =>
      u.sin.pairs = s.sin.pairs.set p { x with disc := true, shown := false, active := true, demand := true, at' := if x.demand then x.at' else u.now } ∧ Counted s u 10 ∧ u.b (R.IRQ_STAT P.sinCore) 11 = true ∧
      Frame s u (R.sinClass_DET 10 :: irqRegs P.sinCore) { s.rest with sin := u.sin }) ∧
  (∀ (s : State) t d, s.systemInReset = false → s.pairMode = true →
    Answers (.partnerSafetyDemand t d) s fun u =>
      u.sin = { s.sin with pairs := s.sin.pairs.zipIdx.map (fun (x, p) => { x with partner := (if p = 0 then d.dem0 else d.dem1), partnerAt := if p = 0 then d.at0 else d.at1 }), partnerState := d.state } ∧
      Frame s u [] { s.rest with sin := u.sin }) ∧
  (∀ (s : State) t m, s.takes m R.sinCore_SCMD = true → s.sin.state = 3 → s.deviceCause = false → s.sin.paramPend = false →
    Answers (.scmdAck t m) s fun u => u.sin.state = 4 ∧ u.sin.hs = (s.b R.sinCore_SCFG 0 && decide (s.sin.test ≠ some 0)) ∧ Frame s u [] { s.rest with sin := u.sin }) ∧
  (∀ (s : State) t m, s.takes m R.sinCore_SCMD = true → (s.sin.state ≠ 3 ∨ s.deviceCause = true ∨ s.sin.paramPend = true) →
    Answers (.scmdAck t m) s fun u => Frame s u [] s.rest) ∧
  (∀ (s : State) t m, s.takes m R.sinCore_SCMD = true → s.f (R.sinClass_RESP 15) 2 0 = 4 → (s.pair.claim && s.pairMode && s.withPartner) = false →
    Answers (.scmdDsto t m) s fun u =>
      Counted s u 15 ∧ u.sin.cause = 15 ∧ u.sin.state = (if s.sin.state = 4 then 3 else s.sin.state) ∧ (∀ a ∈ s.allAxes, (u.sax a).sto = true) ∧
      (s.sin.state = 4 → u.sin.hs = false ∧ u.sin.ls = false) ∧ Frame s u (sinRegs P.sinCore 15) { s.rest with sin := u.sin }) ∧
  (∀ (s : State) t m val, s.takes m R.sinCore_PARAM_ACK = true → s.sin.paramPend = true →
    Answers (.paramAck t m val) s fun u => u.sin = { s.sin with paramPend := decide (val ≠ s.paramCrc) } ∧ Frame s u [] { s.rest with sin := u.sin })

/-- POR, NRST_IN, PERST, HOT_RESET, TRST, RST_REQ, RST_HOLD and RESET_RELEASE: a source that is asserted puts what it reaches at reset values at once and no more; a level that ends
releases nothing until RESET_RELEASE; a request is refused with its reason; the exit sequence of the largest reach starts when the last source leaves it, and the release of POR classes each bank by its supply; latching
CLKMODE 0b00 at a CHIP release is the one stop of the model (R503 to R508, R510, R514, R518, R520 to R522, R621). -/
def Obligations.ResetSources : Prop :=
  (∀ (s : State) t, s.rst.asserted.getLsbD 0 = false → s.reach ≤ 5 → Answers (.por t true) s fun u =>
    u.rst.asserted.getLsbD 0 = true ∧ u.rst.pins.getLsbD 0 = true ∧ u.reach = 5 ∧
    (∀ a, (pageKind (a / 0x1000)).isSome → u.rd a = resetOf a ∧ u.rdStage a = resetOf a) ∧ u.mem = [] ∧ u.ecc = [] ∧ u.br = [] ∧ u.engs = [] ∧ u.dma = [] ∧
    u.ax = [] ∧ u.can = [] ∧ u.eth = [] ∧ u.lahar = {} ∧ u.gey = {} ∧ u.lp = {} ∧ u.inv = {} ∧ u.sin = {} ∧ u.pcie = {} ∧ u.cycling = false ∧ u.pending = s.pending) ∧
  (∀ (s : State) t, s.rst.fuseOk = true → s.rst.asserted = 0 → s.reachEntry 1 = 5 →
    Answers (.nrstIn t true) s fun u => u.rst.asserted = 2 ∧ u.reach = 5 ∧ (∀ a, (pageKind (a / 0x1000)).isSome → u.rd a = resetOf a) ∧ u.mem = [] ∧
      u.sin = {} ∧ u.pcie = {}) ∧
  (∀ (s : State) t, s.rst.fuseOk = true → s.rst.asserted = 0 → s.reachEntry 1 = 4 →
    Answers (.nrstIn t true) s fun u => u.rst.asserted = 2 ∧ u.reach = 4 ∧ u.rd R.fuse_STRAPS = s.rd R.fuse_STRAPS ∧ u.b R.reset_RST_CAUSE 1 = true ∧ u.mem = [] ∧ u.sin = {} ∧
      u.pcie = {} ∧ u.rst.fuseOk = false) ∧
  (∀ (s : State) t, s.rst.fuseOk = true → s.rst.asserted = 0 → s.reachEntry 2 = 3 →
    Answers (.perst t true) s fun u => u.rst.asserted = 4 ∧ u.coreInReset = true ∧ u.systemInReset = false ∧ u.pcie = {} ∧ u.mem = [] ∧ u.b R.reset_RST_CAUSE 2 = true ∧
      u.rd R.fuse_REACH_TBL = s.rd R.fuse_REACH_TBL ∧ u.rd R.chip_GPIO_OUT = s.rd R.chip_GPIO_OUT) ∧
  (∀ (s : State) t, s.rst.fuseOk = true → s.rst.asserted = 0 → s.reachEntry 3 = 3 →
    Answers (.hotReset t true) s fun u => u.rst.asserted = 8 ∧ u.coreInReset = true ∧ u.systemInReset = false ∧ u.pcie = {} ∧ u.mem = [] ∧ u.b R.reset_RST_CAUSE 3 = true) ∧
  (∀ (s : State) t, s.rst.fuseOk = true → s.rst.asserted = 0 → s.reachEntry 8 = 1 → s.rd R.reset_RST_HOLD = 0 →
    Answers (.trst t true) s fun u => u.rst.asserted = 0x100 ∧ u.blockInReset 0x11 = true ∧ u.coreInReset = false ∧ u.mem = s.mem ∧ u.engs = s.engs ∧ u.br = s.br ∧ u.sin = s.sin ∧
      u.b R.reset_RST_CAUSE 8 = true ∧ u.rst.exitStep = s.rst.exitStep) ∧
  (∀ (s : State) t (i : Instr) (k : Nat), (i, k) ∈ [(Instr.por t false, 0), (.nrstIn t false, 1), (.perst t false, 2), (.hotReset t false, 3), (.trst t false, 8)] →
    Answers i s fun u => u.rst = { s.rst with pins := setFld s.rst.pins k k 0 } ∧ Frame s u [] { s.rest with rst := u.rst }) ∧
  (∀ (s : State) t m reach target, s.takes m R.reset_RST_REQ = true → s.rstRefusal reach.toNat target.toNat ≠ 0 →
    Answers (.rstReq t m reach target) s fun u =>
      u.f R.reset_RST_STAT 3 1 = s.rstRefusal reach.toNat target.toNat ∧ u.b R.reset_RST_STAT 0 = true ∧ u.b (R.IRQ_STAT P.reset) 9 = true ∧
      Frame s u (R.reset_RST_STAT :: irqRegs P.reset) s.rest) ∧
  (∀ (s : State) t m c, s.takes m R.reset_RST_REQ = true → s.rst.fuseOk = true → s.rst.asserted = 0 → s.rst.loading = false → c < 8 → s.rstRefusal 2 c = 0 →
    Answers (.rstReq t m 2 (BitVec.ofNat 5 c)) s fun u =>
      u.rst.asserted = 0x10 ∧ u.rst.hostReach = 2 ∧ u.rst.targets = [(2, c)] ∧ u.b R.reset_RST_CAUSE 4 = true ∧ u.f R.reset_RST_STAT 31 16 = min (s.f R.reset_RST_STAT 31 16 + s.outstanding 2 c) 65535 ∧
      (∀ d, d < 8 → u.cellInReset d = decide (d = c)) ∧ (∀ e, e / 4 = c → u.eng e = {}) ∧ (∀ e, e / 4 ≠ c → u.eng e = s.eng e) ∧
      (∀ x, engDataAddr (4 * c) 0 ≤ x → x < engDataAddr (4 * c) 0 + 0x100000 → u.byte x = 0) ∧
      (∀ x, x < engDataAddr (4 * c) 0 ∨ engDataAddr (4 * c) 0 + 0x100000 ≤ x → u.byte x = s.byte x) ∧
      (∀ a, pageKind (a / 0x1000) = some (.cell, c) → u.rd a = resetOf a)) ∧
  (∀ (s : State) t m val, s.takes m R.reset_RST_HOLD = true → fld val 31 18 = 0 → s.holdRefused val = [] → val &&& ~~~ s.rd R.reset_RST_HOLD = 0 →
    Answers (.rstHold t m val) s fun u => u.rd R.reset_RST_HOLD = val ∧ Frame s u [R.reset_RST_HOLD] s.rest) ∧
  (∀ (s : State) t m b, s.takes m R.reset_RST_HOLD = true → s.rst.asserted = 0 → b < 18 → s.rd R.reset_RST_HOLD = 0 → s.holdRefused (BitVec.ofNat 32 (2 ^ b)) = [] →
    Answers (.rstHold t m (BitVec.ofNat 32 (2 ^ b))) s fun u =>
      u.rd R.reset_RST_HOLD = BitVec.ofNat 32 (2 ^ b) ∧ (∀ d, d < 18 → u.blockInReset d = decide (d = b)) ∧ u.b R.reset_RST_CAUSE 4 = true ∧ MemKept s u) ∧
  (∀ (s : State) t m b, s.takes m R.reset_RST_HOLD = true → b < 18 → s.rd R.reset_RST_HOLD = 0 → s.blockInService b = true →
    Answers (.rstHold t m (BitVec.ofNat 32 (2 ^ b))) s fun u => u.rd R.reset_RST_HOLD = 0 ∧ u.f R.reset_RST_STAT 3 1 = 3 ∧ u.b R.reset_RST_STAT 0 = true ∧
      Frame s u ([R.reset_RST_HOLD, R.reset_RST_STAT] ++ irqRegs P.reset) s.rest) ∧
  (∀ (s : State) t straps banks, s.rst.asserted = 1 → s.reach = 5 → s.rst.pins.getLsbD 0 = false → straps.toNat / 4 % 4 ≠ 0 →
    Answers (.resetRelease t 0 straps banks) s fun u =>
      u.rst.asserted = 0 ∧ u.rd R.fuse_STRAPS = straps.setWidth 32 ∧ u.rst.exitStep = 1 ∧ u.rst.exitReach = max s.rst.hold.heldReach 5 ∧ u.rst.loading = true ∧ u.rst.fuseOk = false ∧
      u.rst.pllLock = false ∧ u.rst.countBase = u.now ∧
      (∀ n, n < 5 → u.bankClass n = bankClassOf ([banks.io1, banks.io2, banks.io3, banks.io4, banks.s].getD n 0)) ∧ u.f R.reset_RST_CAUSE 8 0 = s.rst.causes.toNat ∧
      Frame s u [R.fuse_STRAPS, R.reset_RST_CAUSE] { s.rest with rst := u.rst }) ∧
  (∀ (s : State) t straps banks, s.rst.asserted = 1 → s.reach = 5 → s.rst.pins.getLsbD 0 = false → straps.toNat / 4 % 4 = 0 → exec (.resetRelease t 0 straps banks) s = .fault .testBypass) ∧
  (∀ (s : State) t (src : Fin 9) straps banks, (s.rst.asserted.getLsbD src = false ∨ s.rst.pins.getLsbD src = true) →
    Answers (.resetRelease t src straps banks) s fun u => Frame s u [] s.rest)

/-- WDOG_WARN, WDOG_EXPIRE, WDOG_KICK, FUSE_LOAD_DONE, PLL_LOCK and EXIT_STEP_DONE: half of the timeout warns and all of it asserts WDOG; a kick by the host restarts the count; a good
fuse copy is applied, the second when the first is bad, and none means safe boot; the steps follow Table 15.4, a sequence that waits goes on after
them, and step 5 notes the SerDes groups that fail their calibration (R448, R511 to R517, R523, R524, R607). -/
def Obligations.ResetExit : Prop :=
  (∀ (s : State) t d, (s.tick t).wdogElapsed = some d → s.wdogTimeout ≤ 2 * d → s.rst.wdogWarned = false →
    Answers (.wdogWarn t) s fun u => u.rst = { s.rst with wdogWarned := true } ∧ u.b (R.IRQ_STAT P.reset) 8 = true ∧
      Frame s u (irqRegs P.reset) { s.rest with rst := u.rst }) ∧
  (∀ (s : State) t d, (s.tick t).wdogElapsed = some d → s.wdogTimeout ≤ d → s.rst.fuseOk = true → s.rst.asserted = 0 → s.reachEntry 5 = 3 →
    Answers (.wdogExpire t) s fun u => u.rst.asserted = 0x20 ∧ u.coreInReset = true ∧ u.systemInReset = false ∧ u.mem = [] ∧ u.b R.reset_RST_CAUSE 5 = true ∧
      u.rst.wdogSince = none) ∧
  (∀ (s : State) t d, (s.tick t).wdogElapsed = some d → d < s.wdogTimeout → Answers (.wdogExpire t) s fun u => Frame s u [] s.rest) ∧
  (∀ (s : State) t x, s.takes .host (R.IRQ_STAT P.reset) = true → s.rst.wdogSince = some x → (Tab.get s.hwSet (R.IRQ_STAT P.reset) (0, 0)).1 ≠ ecyc (s.tick t).now →
    Answers (.wdogKick t .host) s fun u => u.rst = { s.rst with wdogSince := some u.now, wdogWarned := false } ∧ u.b (R.IRQ_STAT P.reset) 8 = false ∧
      Frame s u (irqRegs P.reset) { s.rest with rst := u.rst }) ∧
  (∀ (s : State) t c0 c1, s.rst.loading = true → fuseGood c0 = true →
    Answers (.fuseLoadDone t c0 c1) s fun u =>
      u.rst = { s.rst with loading := false, fuseOk := true } ∧ u.rd R.chip_SERIAL_LO = c0.getD 1 0 ∧ u.b R.fuse_FUSE_STAT 0 = true ∧
      u.f R.fuse_REACH_TBL 26 0 = fld (c0.getD 3 0) 26 0 ∧
      Frame s u [R.chip_SERIAL_LO, R.chip_SERIAL_HI, R.fuse_REACH_TBL, R.fuse_BOOT_OPT, R.fuse_FUSE_STAT] { s.rest with rst := u.rst }) ∧
  (∀ (s : State) t c0 c1, s.rst.loading = true → fuseGood c0 = false → fuseGood c1 = true →
    Answers (.fuseLoadDone t c0 c1) s fun u =>
      u.rst = { s.rst with loading := false, fuseOk := true } ∧ u.rd R.chip_SERIAL_LO = c1.getD 1 0 ∧ u.b R.fuse_FUSE_STAT 0 = true ∧ u.b R.fuse_FUSE_STAT 1 = true ∧
      u.b R.fuse_FUSE_STAT 2 = true) ∧
  (∀ (s : State) t c0 c1, s.rst.loading = true → fuseGood c0 = false → fuseGood c1 = false →
    Answers (.fuseLoadDone t c0 c1) s fun u =>
      u.rst = { s.rst with loading := false, safeBoot := true } ∧ u.b R.fuse_FUSE_STAT 3 = true ∧ u.b R.fuse_FUSE_STAT 4 = true ∧
      Frame s u [R.fuse_FUSE_STAT] { s.rest with rst := u.rst }) ∧
  (∀ (s : State) t, s.rst.exitStep = 1 → s.f R.fuse_STRAPS 3 2 ≠ 1 →
    Answers (.pllLock t) s fun u => u.rst = { s.rst with pllLock := true } ∧ Frame s u [] { s.rest with rst := u.rst }) ∧
  (∀ (s : State) t c, s.rst.exitStep = 1 → s.rst.fuseOk = true → s.rst.pllLock = true →
    Answers (.exitStepDone t c) s fun u => u.rst = { s.rst with exitStep := 2 } ∧ Frame s u [] { s.rest with rst := u.rst }) ∧
  (∀ (s : State) t c, s.rst.exitStep = 3 → 3 ≤ s.rst.exitReach → s.coreInReset = false →
    Answers (.exitStepDone t c) s fun u =>
      u.rst.exitStep = 4 ∧ u.rd R.invarCore_RATE = s.rd R.invarCore_FREQ_TRIM ∧ u.inv.sec = 0 ∧ u.f R.invarCore_STAT 1 0 = 0 ∧
      u.devTime u.now = (s.tick t).counter u.now * 2 ^ 17 % 2 ^ 64 ∧ Frame s u [R.invarCore_RATE, R.invarCore_STAT] { s.rest with rst := u.rst, inv := u.inv }) ∧
  (∀ (s : State) t c, s.rst.exitStep = 4 → 3 ≤ s.rst.exitReach → s.coreInReset = false →
    Answers (.exitStepDone t c) s fun u => u.rst.exitStep = 5 ∧ u.cycling = true ∧ u.firstCycle = true ∧
      Frame s u [] { s.rest with rst := u.rst, cycling := true, firstCycle := true, target := u.target, perf := u.perf }) ∧
  (∀ (s : State) t c, s.rst.exitStep = 5 → 4 ≤ s.rst.exitReach → s.coreInReset = false → s.rst.noBoot = false → s.rst.resync = false → s.rst.safeBoot = false → s.b R.fuse_BOOT_OPT 0 = false →
    s.f R.fuse_STRAPS 1 0 = 1 →
    Answers (.exitStepDone t c) s fun u =>
      u.rst.exitStep = 6 ∧ u.rst.noCal = c ∧ u.f R.fuse_BOOT_STAT 2 0 = 3 ∧ u.out.head? = some (.nrstOut true) ∧ u.rst.wdogSince = (if s.b R.reset_WDOG_CFG 0 then some u.now else none) ∧
      Frame s u [R.fuse_BOOT_STAT] { s.rest with rst := u.rst }) ∧
  (∀ (s : State) t c, s.rst.exitStep = 5 → 3 ≤ s.rst.exitReach → s.coreInReset = false → s.rst.resync = true →
    Answers (.exitStepDone t c) s fun u => u.pair.sync = 1 ∧ u.rst.noCal = c ∧ u.out.head? = some (.nrstOut true)) ∧
  (∀ (s : State) t c, s.rst.exitStep = 6 → s.sin.state = 1 → s.rst.safeBoot = false →
    Answers (.exitStepDone t c) s fun u => u.sin.state = 3 ∧ u.rst.exitStep = s.rst.heldStep ∧ u.f R.reset_RST_CAUSE 18 16 = s.rst.exitReach % 8 ∧
      Frame s u [R.reset_RST_CAUSE] { s.rest with rst := u.rst, sin := u.sin }) ∧
  (∀ (s : State) t c, (s.tick t).stepReady = false → Answers (.exitStepDone t c) s fun u => Frame s u [] s.rest)

/-- FLASH_IMAGE_CHECK, BOOT_WRITE_RECORD, BOOT_WAIT_RECORD, BOOT_WAIT_END and BOOT_END_RECORD: a good image's records follow, a bad one asks for the alternate and then ends boot; each
record acts in its turn, and one that breaks the layout ends boot with error 3 (R525, R526). -/
def Obligations.FlashBoot : Prop :=
  (∀ (s : State) t l, s.booting = true → s.rst.image = [] → bootHeaderOk l = true → bootCrcOk l = true →
    Answers (.flashImageCheck t l) s fun u => u.rst = { s.rst with image := l.take (dle l 8 4), bootOff := 32 } ∧ Frame s u [] { s.rest with rst := u.rst }) ∧
  (∀ (s : State) t l, s.booting = true → s.rst.image = [] → (bootHeaderOk l && bootCrcOk l) = false → s.b R.fuse_BOOT_STAT 8 = false →
    Answers (.flashImageCheck t l) s fun u => u.b R.fuse_BOOT_STAT 8 = true ∧ u.booting = true ∧ Frame s u [R.fuse_BOOT_STAT] s.rest) ∧
  (∀ (s : State) t l, s.booting = true → s.rst.image = [] → (bootHeaderOk l && bootCrcOk l) = false → s.b R.fuse_BOOT_STAT 8 = true →
    Answers (.flashImageCheck t l) s fun u =>
      u.f R.fuse_BOOT_STAT 2 0 = 5 ∧ u.f R.fuse_BOOT_STAT 7 4 = (if bootHeaderOk l then 2 else 1) ∧ Frame s u [R.fuse_BOOT_STAT] { s.rest with rst := u.rst }) ∧
  (∀ (s : State) t, s.booting = true → s.rst.image ≠ [] → s.rst.bootWait = none → bootBad s.rst.image s.rst.bootOff s.bootRec = false →
    let w := dle s.rst.image s.rst.bootOff 8
    let a := bootAddr w
    bootType w = 1 → bootLen w = 8 → 0x01000000 ≤ a → a < 0x01800000 → s.coreInReset = false → s.rst.safeBoot = false → s.pairDiscards .host = false →
    s.windowAt a = none → s.isStat a = false →
    Answers (.bootWriteRecord t) s fun u =>
      u.le a 8 = dle s.rst.image (s.rst.bootOff + 8) 8 ∧ (∀ x, x < a ∨ a + 8 ≤ x → u.byte x = s.byte x) ∧ u.rst = { s.rst with bootOff := s.rst.bootOff + 16 } ∧
      u.bootRec = (s.bootRec + 1) % 65536 ∧ RegsKept s u [R.fuse_BOOT_STAT] ∧ u.rest = { s.rest with rst := u.rst, mem := u.mem, ecc := u.ecc }) ∧
  (∀ (s : State) t, s.booting = true → s.rst.image ≠ [] → s.rst.bootWait = none → bootBad s.rst.image s.rst.bootOff s.bootRec = true →
    ∀ i ∈ [Instr.bootWriteRecord t, .bootWaitRecord t, .bootEndRecord t],
      Answers i s fun u => u.f R.fuse_BOOT_STAT 2 0 = 5 ∧ u.f R.fuse_BOOT_STAT 7 4 = 3 ∧ Frame s u [R.fuse_BOOT_STAT] { s.rest with rst := u.rst }) ∧
  (∀ (s : State) t, s.booting = true → s.rst.image ≠ [] → s.rst.bootWait = none → bootBad s.rst.image s.rst.bootOff s.bootRec = false →
    let w := dle s.rst.image s.rst.bootOff 8
    bootType w = 2 →
    Answers (.bootWaitRecord t) s fun u => u.rst = { s.rst with bootWait := some (u.now + nsT (1000 * bootAddr w)) } ∧ Frame s u [] { s.rest with rst := u.rst }) ∧
  (∀ (s : State) t x, s.booting = true → s.rst.bootWait = some x → x ≤ (s.tick t).now →
    Answers (.bootWaitEnd t) s fun u => u.rst = { s.rst with bootWait := none, bootOff := s.rst.bootOff + 8 } ∧ u.bootRec = (s.bootRec + 1) % 65536 ∧
      Frame s u [R.fuse_BOOT_STAT] { s.rest with rst := u.rst }) ∧
  (∀ (s : State) t, s.booting = true → s.rst.image ≠ [] → s.rst.bootWait = none → bootBad s.rst.image s.rst.bootOff s.bootRec = false →
    bootType (dle s.rst.image s.rst.bootOff 8) = 3 →
    Answers (.bootEndRecord t) s fun u => u.f R.fuse_BOOT_STAT 2 0 = 4 ∧ u.f R.fuse_BOOT_STAT 7 4 = 0 ∧ u.bootRec = (s.bootRec + 1) % 65536 ∧
      u.rst.wdogSince = (if s.b R.reset_WDOG_CFG 0 then some u.now else none) ∧ Frame s u [R.fuse_BOOT_STAT] { s.rest with rst := u.rst })

/-- REGISTER_WRITE, HOST_MEMORY_REQUEST, CONFIG_WRITE, VEC_ARM, MSIX_MASK_CHANGE and SCRUB_PASS: a performed write stores, stages or clears the bits of its register, by its access type, and a write
to nothing is recorded; a memory request reads and writes its bytes; an armed vector that is asserted leaves as a message; the scrubber corrects single-bit errors and
reports double-bit ones, and its pass is a good event of each cell whose memory met none (R10 to R12, R17, R40, R68, R531, R532, R534, R537). -/
def Obligations.HostAccesses : Prop :=
  (∀ (s : State) t m (a : BitVec 25) (val : W64) k n r, s.takes m a.toNat = true → a.toNat % 4 = 0 → 0x40 ≤ a.toNat % 0x1000 → pageKind (a.toNat / 0x1000) = some (k, n) →
    a.toNat < 0x800000 → k ∈ [.fuse, .invarPtp, .invarEv, .sinClass, .sinNode, .pcie, .lpSrc, .ae, .geyCommon, .geyChan, .crater, .lvCommon, .lvPort, .cell, .perfCell] →
    rowOf a.toNat = some r →
    Answers (.registerWrite t m a .b4 val) s fun u =>
      let w := val.setWidth 32 &&& BitVec.ofNat 32 r.mask
      (r.acc = .rw → u.rd a.toNat = w ∧ Frame s u [a.toNat] s.rest) ∧
      (r.acc = .st → u.rdStage a.toNat = w ∧ (∀ x, x ≠ a.toNat → u.rdStage x = s.rdStage x) ∧ Frame s u [] { s.rest with stage := u.stage }) ∧
      (r.acc = .w1c → (Tab.get s.hwSet a.toNat (0, 0)).1 ≠ ecyc u.now → u.rd a.toNat = s.rd a.toNat &&& ~~~ w ∧ Frame s u [a.toNat] s.rest) ∧
      (r.acc = .ro → Frame s u [] s.rest)) ∧
  (∀ (s : State) t m (a : BitVec 25) size (val : W64), s.barOpen m = true → a.toNat < 0x800000 → pageKind (a.toNat / 0x1000) = none → s.b R.chip_ERR_INFO 0 = false →
    Answers (.registerWrite t m a size val) s fun u =>
      u.rd R.chip_ERR_ADDR = a.setWidth 32 ∧ u.b R.chip_ERR_INFO 0 = true ∧ u.b R.chip_ERR_INFO 1 = true ∧ u.f R.chip_ERR_INFO 3 2 = 0 ∧ u.f R.chip_ERR_INFO 7 4 = masterCode m ∧
      u.f R.chip_ERR_INFO 15 8 = 1 ∧ Frame s u [R.chip_ERR_ADDR, R.chip_ERR_INFO, R.pcie_PCIE_ERR] s.rest) ∧
  (∀ (s : State) t m (a : BitVec 25) data, s.barOpen m = true → 0x01000000 ≤ a.toNat → a.toNat < 0x01800000 → a.toNat % 8 = 0 → s.coreInReset = false → s.rst.safeBoot = false →
    s.windowAt a.toNat = none → s.eccAt a.toNat = .good →
    Answers (.hostMemoryRequest t m a false 8 data) s fun u => u.out = .readBytes m a.toNat (s.bytes a.toNat 8) :: s.out ∧ Frame s u [] s.rest) ∧
  (∀ (s : State) t m (a : BitVec 25) (data : List Byte), s.barOpen m = true → 0x01000000 ≤ a.toNat → a.toNat < 0x01800000 → a.toNat % 8 = 0 → s.coreInReset = false →
    s.rst.safeBoot = false → s.windowAt a.toNat = none → s.pairDiscards m = false → data.length = 8 → (m = .host → s.isStat a.toNat = false) →
    Answers (.hostMemoryRequest t m a true 8 data) s fun u =>
      u.bytes a.toNat 8 = data ∧ u.eccAt a.toNat = .good ∧ (∀ x, x < a.toNat ∨ a.toNat + 8 ≤ x → u.byte x = s.byte x) ∧ RegsKept s u [] ∧
      u.rest = { s.rest with mem := u.mem, ecc := u.ecc }) ∧
  (∀ (s : State) t (a : BitVec 25) write len data, s.barOpen .host = false →
    Answers (.hostMemoryRequest t .host a write len data) s fun u =>
      u.f R.pcie_PCIE_ERR 7 0 = min (s.f R.pcie_PCIE_ERR 7 0 + 1) 255 ∧ u.out = (if write then s.out else .unsupported .host a.toNat :: s.out) ∧
      Frame s u [R.pcie_PCIE_ERR] s.rest) ∧
  (∀ (s : State) t memEn busMaster d3hot, s.endpointInReset = false →
    Answers (.configWrite t memEn busMaster d3hot) s fun u =>
      u.pcie.memEn = memEn ∧ u.pcie.busMaster = busMaster ∧ u.pcie.d3hot = d3hot ∧
      Frame s u [R.router_VEC_ARM 0, R.router_VEC_ARM 1] { s.rest with pcie := { s.rest.pcie with memEn := memEn, busMaster := busMaster, d3hot := d3hot } }) ∧
  (∀ (s : State) t m hi bits, s.takes m (R.router_VEC_ARM (b2n hi)) = true → (∀ v, s.vecAsserted v = false) →
    Answers (.vecArm t m hi bits) s fun u => u.rd (R.router_VEC_ARM (b2n hi)) = s.rd (R.router_VEC_ARM (b2n hi)) ||| bits ∧ Frame s u [R.router_VEC_ARM (b2n hi)] s.rest) ∧
  (∀ (s : State) t m hi i, s.takes m (R.router_VEC_ARM (b2n hi)) = true → i < 32 → s.vecAsserted (32 * b2n hi + i) = true → s.msixOpen (32 * b2n hi + i) = true →
    (s.b R.lvCommon_LVSTAT 6 && !s.b R.lvCommon_LVSTAT 7) = false →
    Answers (.vecArm t m hi (BitVec.ofNat 32 (2 ^ i))) s fun u =>
      let v := 32 * b2n hi + i
      u.b (R.router_VEC_ARM (b2n hi)) i = false ∧
      u.out.head? = some (.msix v (BitVec.ofNat 64 ((s.rd (R.msix_TBL_ADDR_W0 v)).toNat + (s.rd (R.msix_TBL_ADDR_W1 v)).toNat * 2 ^ 32)) (s.rd (R.msix_TBL_DATA v))) ∧
      Frame s u [R.router_VEC_ARM (b2n hi)] s.rest) ∧
  (∀ (s : State) t (v : Fin 64) masked, s.endpointInReset = false →
    Answers (.msixMaskChange t (some v) masked) s fun u => u.b (R.msix_TBL_CTL v) 0 = masked ∧
      Frame s u [R.msix_TBL_CTL v, R.router_VEC_ARM 0, R.router_VEC_ARM 1] s.rest) ∧
  (∀ (s : State) t masked, s.endpointInReset = false →
    Answers (.msixMaskChange t none masked) s fun u => u.pcie.fmask = masked ∧
      Frame s u [R.router_VEC_ARM 0, R.router_VEC_ARM 1] { s.rest with pcie := { s.rest.pcie with fmask := masked } }) ∧
  (∀ (s : State) t (e : Fin 32) off, off < 0x30000 →
    Answers (.scrubPass t [{ addr := BitVec.ofNat 25 (engDataAddr e 0 + off), double := false }]) s fun u =>
      u.f (R.engine_ECC_STAT e) 15 0 = min (s.f (R.engine_ECC_STAT e) 15 0 + 1) 65535 ∧ u.GoodPasses s ∧
      Frame s u (R.engine_ECC_STAT e :: passRegs) { s.rest with fd := u.fd }) ∧
  (∀ (s : State) t (a : BitVec 25), 0x01000000 ≤ a.toNat → Answers (.scrubPass t [{ addr := a, double := false }]) s fun u =>
    u.GoodPasses s ∧ Frame s u passRegs { s.rest with fd := u.fd }) ∧
  (∀ (s : State) t (a : BitVec 25), 0x01000000 ≤ a.toNat → a.toNat < 0x01800000 → s.eccAt a.toNat = .good → s.f (R.sinClass_RESP 3) 2 0 = 0 →
    Answers (.scrubPass t [{ addr := a, double := true }]) s fun u => u.eccAt a.toNat = .poison ∧ Counted s u 3 ∧ u.GoodPasses s ∧
      Frame s u (R.sinClass_DET 3 :: passRegs) { s.rest with ecc := u.ecc, fd := u.fd })

/-- TLB_INV and INVALIDATION_DONE: an invalidation is taken when none is under way and its scope is valid, and otherwise rejected; when it is done no matching entry is
left in any TLB, every other entry is kept, and the count rises (R552, R553). -/
def Obligations.TlbInvalidation : Prop :=
  (∀ (s : State) t m (val : W32), s.takes m R.xlCommon_TLB_INV = true → s.xl.inv = none → fld val 1 0 ≠ 3 →
    Answers (.tlbInv t m val) s fun u =>
      u.xl = { s.xl with inv := some (val, s.rd R.xlCommon_INV_VPN) } ∧ u.b R.xlCommon_INV_STAT 0 = true ∧
      (∀ e, ∀ v ∈ (u.eng e).servs, ∀ w ∈ v.walks, w.stale = true) ∧ Frame s u [R.xlCommon_INV_STAT] { s.rest with xl := u.xl, engs := u.engs }) ∧
  (∀ (s : State) t m (val : W32), s.takes m R.xlCommon_TLB_INV = true → (s.xl.inv ≠ none ∨ fld val 1 0 = 3) →
    Answers (.tlbInv t m val) s fun u => u.b R.xlCommon_INV_STAT 1 = true ∧ Frame s u [R.xlCommon_INV_STAT] s.rest) ∧
  (∀ (s : State) t w vpn, s.xl.inv = some (w, vpn) → (s.engs.any fun x => x.2.hasStale) = false →
    Answers (.invalidationDone t) s fun u =>
      (∀ k, k < 9 → u.tlb k = (s.tlb k).filter fun x => !invMatches w vpn x) ∧ u.xl.inv = none ∧ u.b R.xlCommon_INV_STAT 0 = false ∧
      u.f R.xlCommon_INV_STAT 31 16 = min (s.f R.xlCommon_INV_STAT 31 16 + 1) 65535 ∧ Frame s u [R.xlCommon_INV_STAT] { s.rest with xl := u.xl }) ∧
  (∀ (s : State) t, (s.xl.inv = none ∨ (s.engs.any fun x => x.2.hasStale) = true) → Answers (.invalidationDone t) s fun u => Frame s u [] s.rest) ∧
  (∀ (w vpn : W32) (x : TlbEnt), fld w 1 0 = 0 → invMatches w vpn x = true) ∧ (∀ (w vpn : W32) (x : TlbEnt), fld w 1 0 = 1 → (invMatches w vpn x = true ↔ x.ctx = fld w 13 8))

/-- TAIL_WRITE, CH_CMD_RESUME, CH_CMD_STOP, CH_CMD_SKIP and CH_CMD_RESET: a tail within the ring hands descriptors over and starts an idle channel; commands act on a stopped or halted
channel, and STOP on a running one; anything else is refused and recorded (R538, R545). -/
def Obligations.DmaChannelCommands : Prop :=
  (∀ (s : State) t m (c : Fin 16) (val : BitVec 16), s.takes m (R.dma_TAIL c) = true → (val.toNat + 65536 - s.chHead c) % 65536 ≤ s.chSize c →
    Answers (.tailWrite t m c val) s fun u =>
      u.chTail c = val.toNat ∧ u.chState c = (if s.chState c = 1 ∧ val.toNat ≠ s.chHead c then 2 else s.chState c) ∧ Frame s u [R.dma_TAIL c, R.dma_CH_STAT c] s.rest) ∧
  (∀ (s : State) t m (c : Fin 16) (val : BitVec 16), s.takes m (R.dma_TAIL c) = true → s.chSize c < (val.toNat + 65536 - s.chHead c) % 65536 →
    Answers (.tailWrite t m c val) s fun u => u.rd (R.dma_CH_STAT c) = s.rd (R.dma_CH_STAT c) ||| 0x10000 ∧ Frame s u [R.dma_CH_STAT c] s.rest) ∧
  (∀ (s : State) t m (c : Fin 16) i, s.takes m (R.dma_CH_CMD c) = true → s.chHeld c = false →
    i ∈ [Instr.chCmdResume t m c, .chCmdSkip t m c, .chCmdReset t m c] →
    Answers i s fun u => u.rd (R.dma_CH_STAT c) = s.rd (R.dma_CH_STAT c) ||| 0x20000 ∧ Frame s u [R.dma_CH_STAT c] s.rest) ∧
  (∀ (s : State) t m (c : Fin 16), s.takes m (R.dma_CH_CMD c) = true → s.chState c = 4 →
    Answers (.chCmdResume t m c) s fun u =>
      u.chState c = (if s.chTail c = s.chHead c then 1 else 2) ∧ u.f (R.dma_CH_STAT c) 15 4 = 0 ∧ Frame s u [R.dma_CH_STAT c] s.rest) ∧
  (∀ (s : State) t m (c : Fin 16), s.takes m (R.dma_CH_CMD c) = true → s.chState c = 5 → s.f (R.dma_CH_STAT c) 7 4 = 1 →
    Answers (.chCmdResume t m c) s fun u =>
      u.chState c = (if s.chTail c = s.chHead c then 1 else 2) ∧ u.dmaCh c = {} ∧ u.rd (R.dma_BYTES c) = 0 ∧
      Frame s u [R.dma_CH_STAT c, R.dma_BYTES c, R.dma_CUR c, R.dma_DMA_STAT] { s.rest with dma := u.dma }) ∧
  (∀ (s : State) t m (c : Fin 16), s.takes m (R.dma_CH_CMD c) = true → s.chState c = 2 ∨ s.chState c = 3 → (s.dmaCh c).elems ≠ [] →
    Answers (.chCmdStop t m c) s fun u => u.dmaCh c = { s.dmaCh c with stop := true } ∧ u.chState c = s.chState c ∧ Frame s u [] { s.rest with dma := u.dma }) ∧
  (∀ (s : State) t m (c : Fin 16), s.takes m (R.dma_CH_CMD c) = true → s.chState c = 2 ∨ s.chState c = 3 → (s.dmaCh c).elems = [] → s.chEn c = true →
    Answers (.chCmdStop t m c) s fun u => u.dmaCh c = { s.dmaCh c with stop := false } ∧ u.chState c = 4 ∧ Frame s u [R.dma_CH_STAT c] { s.rest with dma := u.dma }) ∧
  (∀ (s : State) t m (c : Fin 16), s.takes m (R.dma_CH_CMD c) = true → s.chHeld c = true → s.chTail c ≠ s.chHead c →
    Answers (.chCmdSkip t m c) s fun u =>
      let st := if s.chState c = 4 then 6 else s.f (R.dma_CH_STAT c) 7 4
      let d := if s.chState c = 4 then 0 else s.f (R.dma_CH_STAT c) 15 8
      .hostWrite (s.descAddr c (s.chHead c) + 24) (writeBack st d (s.f (R.dma_BYTES c) 23 0)) ∈ u.out ∧ u.chHead c = (s.chHead c + 1) % 65536 ∧
      u.chState c = (if s.chTail c = (s.chHead c + 1) % 65536 then 1 else 2) ∧ u.dmaCh c = {} ∧ u.f (R.dma_CH_STAT c) 15 4 = 0 ∧
      u.b (R.IRQ_STAT P.dma) (8 + c) = (s.b (R.IRQ_STAT P.dma) (8 + c) || (s.dmaCh c).desc.any descIrq) ∧
      Frame s u ([R.dma_CH_STAT c, R.dma_HEAD c, R.dma_BYTES c, R.dma_CUR c, R.dma_DMA_STAT] ++ irqRegs P.dma) { s.rest with dma := u.dma }) ∧
  (∀ (s : State) t m (c : Fin 16), s.takes m (R.dma_CH_CMD c) = true → s.chHeld c = true →
    Answers (.chCmdReset t m c) s fun u => u.chTail c = s.chHead c ∧ u.chHead c = s.chHead c ∧ u.chState c = 1 ∧ u.dmaCh c = {} ∧ u.f (R.dma_CH_STAT c) 15 4 = 0 ∧
      Frame s u [R.dma_CH_STAT c, R.dma_TAIL c, R.dma_BYTES c, R.dma_CUR c, R.dma_DMA_STAT] { s.rest with dma := u.dma })

/-- DMA_ELEMENT_START, DMA_HOST_COMPLETION, PCIE_COMPLETION_TIMEOUT and DMA_ELEMENT_LANDED: the channel picked reads its descriptor and starts an element up to the next 256-byte boundary; data
answer the oldest element that waits, an error halts the channel with its status; an element that lands is counted, and the last writes its descriptor back and advances
HEAD (R539 to R544). -/
def Obligations.DmaElements : Prop :=
  (∀ (s : State) t (d : List Byte) c, s.dmaOpen = true → s.dmaPick = some c → s.dmaCh c = {} → s.dma.foldl (fun n e => n + e.2.elems.length) 0 < 16 → d.length = 32 →
    s.descCheck d = 0 → descOp d = 1 → descXd d = false → s.chState c = 2 → c < 16 →
    Answers (.dmaElementStart t d) s fun u =>
      let n := min (descLen d) (256 - descD d % 256)
      u.dmaCh c = { desc := some d, started := 1, landed := 0, off := n, stop := false, elems := [{
        len := n, src := { host := true, addr := descH d }, dst := { host := false, addr := descD d }, sa := BitVec.ofNat 64 (descH d), da := BitVec.ofNat 64 (descD d),
        axis := none, data := none, fail := none }] } ∧
      u.out = .hostRead (BitVec.ofNat 64 (descH d)) n :: s.out ∧ u.f R.dma_DMA_STAT 11 8 = c ∧ u.chState c = 2 ∧
      Frame s u [R.dma_DMA_STAT, R.dma_BYTES c, R.dma_CUR c] { s.rest with dma := u.dma }) ∧
  (∀ (s : State) t (d : List Byte) c, s.dmaOpen = true → s.dmaPick = some c → s.dmaCh c = {} → s.dma.foldl (fun n e => n + e.2.elems.length) 0 < 16 → d.length = 32 →
    s.descCheck d ≠ 0 → c < 16 →
    Answers (.dmaElementStart t d) s fun u =>
      u.chState c = 5 ∧ u.f (R.dma_CH_STAT c) 7 4 = 1 ∧ u.f (R.dma_CH_STAT c) 15 8 = s.descCheck d ∧ u.b (R.IRQ_STAT P.dma) 24 = true ∧ u.chHead c = s.chHead c ∧
      Frame s u ([R.dma_DMA_STAT, R.dma_CH_STAT c, R.dma_CUR c, R.dma_FADDR_W0 c, R.dma_FADDR_W1 c] ++ irqRegs P.dma) { s.rest with dma := u.dma }) ∧
  (∀ (s : State) t d, s.dmaOpen = false ∨ s.dmaPick = none → Answers (.dmaElementStart t d) s fun u => Frame s u [] s.rest) ∧
  (∀ (s : State) t (c : Fin 16) e r l, (s.dmaCh c).elems = e :: r → e.data = none → e.fail = none →
    Answers (.dmaHostCompletion t c (.data l)) s fun u =>
      u.dmaCh c = { s.dmaCh c with elems := { e with data := some (l.take e.len) } :: r } ∧ Frame s u [] { s.rest with dma := u.dma }) ∧
  (∀ (s : State) t (c : Fin 16) e r st, (s.dmaCh c).elems = e :: r → e.data = none → e.fail = none → e.axis = none → (∀ x ∈ r, x.axis = none) →
    Answers (.dmaHostCompletion t c (.failed st)) s fun u =>
      u.chState c = 5 ∧ u.f (R.dma_CH_STAT c) 7 4 = 4 ∧ u.f (R.dma_CH_STAT c) 15 8 = st.toNat ∧ (u.dmaCh c).elems = [] ∧ u.rd (R.dma_FADDR_W0 c) = e.sa.setWidth 32 ∧
      u.f R.pcie_PCIE_ERR 23 16 = min (s.f R.pcie_PCIE_ERR 23 16 + 1) 255 ∧ u.b (R.IRQ_STAT P.dma) 24 = true ∧
      Frame s u ([R.dma_DMA_STAT, R.dma_CH_STAT c, R.dma_CUR c, R.dma_FADDR_W0 c, R.dma_FADDR_W1 c, R.pcie_PCIE_ERR] ++ irqRegs P.dma) { s.rest with dma := u.dma }) ∧
  (∀ (s : State) t (c : Fin 16) e r, (s.dmaCh c).elems = e :: r → e.data = none → e.fail = none → e.axis = none → (∀ x ∈ r, x.axis = none) →
    Answers (.pcieCompletionTimeout t (.dma c)) s fun u =>
      u.chState c = 5 ∧ u.f (R.dma_CH_STAT c) 7 4 = 4 ∧ u.f (R.dma_CH_STAT c) 15 8 = 7 ∧ u.f R.pcie_PCIE_ERR 15 8 = min (s.f R.pcie_PCIE_ERR 15 8 + 1) 255 ∧
      Frame s u ([R.dma_DMA_STAT, R.dma_CH_STAT c, R.dma_CUR c, R.dma_FADDR_W0 c, R.dma_FADDR_W1 c, R.pcie_PCIE_ERR] ++ irqRegs P.dma) { s.rest with dma := u.dma }) ∧
  (∀ (s : State) t (c : Fin 16) e r l d, s.blockInReset 0x0E = false → (s.dmaCh c).elems = e :: r → e.data = some l → e.fail = none → e.dst.host = true → e.axis = none →
    (s.dmaCh c).desc = some d → s.f (R.dma_BYTES c) 23 0 + e.len < descBytes d → s.f (R.dma_BYTES c) 23 0 + e.len < 2 ^ 24 → s.chEn c = true → (s.dmaCh c).stop = false →
    (∀ x ∈ r, x.fail = none) →
    Answers (.dmaElementLanded t c) s fun u =>
      u.out = .hostWrite (BitVec.ofNat 64 e.dst.addr) l :: s.out ∧ u.f (R.dma_BYTES c) 23 0 = s.f (R.dma_BYTES c) 23 0 + e.len ∧
      u.dmaCh c = { s.dmaCh c with elems := r, landed := (s.dmaCh c).landed + 1 } ∧ Frame s u [R.dma_BYTES c, R.dma_CUR c, R.dma_DMA_STAT] { s.rest with dma := u.dma }) ∧
  (∀ (s : State) t (c : Fin 16) e l d, s.blockInReset 0x0E = false → (s.dmaCh c).elems = [e] → e.data = some l → e.fail = none → e.dst.host = true → e.axis = none →
    (s.dmaCh c).desc = some d → descBytes d = s.f (R.dma_BYTES c) 23 0 + e.len → s.chEn c = true → (s.dmaCh c).stop = false →
    Answers (.dmaElementLanded t c) s fun u =>
      .hostWrite (s.descAddr c (s.chHead c) + 24) (writeBack 0 0 (descBytes d)) :: .hostWrite (BitVec.ofNat 64 e.dst.addr) l :: s.out <:+ u.out ∧
      u.chHead c = (s.chHead c + 1) % 65536 ∧ u.chState c = (if s.chTail c = (s.chHead c + 1) % 65536 then 1 else 2) ∧ u.dmaCh c = {} ∧
      (descIrq d = true → u.b (R.IRQ_STAT P.dma) (8 + c) = true) ∧
      Frame s u ([R.dma_HEAD c, R.dma_CH_STAT c, R.dma_BYTES c, R.dma_CUR c, R.dma_DMA_STAT] ++ irqRegs P.dma) { s.rest with dma := u.dma })

/-- CAN_FRAME_RECEIVE, RXFULL_FREE, TXREQ, TXCAN, CAN_TX_SUCCESS and CAN_DISABLE: a frame is stored in the lowest free buffer whose filter matches, and only then is the buffer
marked; a request of a TX buffer is taken while the controller may send, any other is refused; a request ends sent, or cancelled at once where its frame is not in transmission;
disabling ends every request (R562 to R567, R580). -/
def Obligations.CanMessages : Prop :=
  (∀ (s : State) t (n : Fin 2) f b, s.canOn n = true → (f.fdf = true → s.b (R.can_CCFG n) 2 = true) → (s.canSt n).rxErr ≤ 127 →
    ((List.range 64).filter fun b => s.mbMatch n b f).find? (fun b => !s.mbBit R.can_RXFULL n b) = some b →
    Answers (.canFrameReceive t n f) s fun u =>
      u.mbBit R.can_RXFULL n b = true ∧ u.bytes (s.mbAddr n b) 80 = canRecord f ∧ u.b (R.IRQ_STAT (P.can n)) 10 = true ∧
      (u.canSt n).rxErr = (if s.canListen n then (s.canSt n).rxErr else (s.canSt n).rxErr - 1) ∧ (u.canSt n).txErr = (s.canSt n).txErr ∧
      (∀ a, a < s.mbAddr n b ∨ s.mbAddr n b + 80 ≤ a → u.byte a = s.byte a) ∧
      RegsKept s u ([R.can_RXFULL n (b / 32), R.can_ECNT n, R.can_TXSTAT n] ++ irqRegs (P.can n)) ∧
      u.rest = { s.rest with can := u.can, fd := u.fd, mem := u.mem, ecc := u.ecc }) ∧
  (∀ (s : State) t (n : Fin 2) f, s.canOn n = true → (f.fdf = true → s.b (R.can_CCFG n) 2 = true) → (s.canSt n).rxErr ≤ 127 →
    (∃ b, b < 64 ∧ s.mbMatch n b f = true) → (∀ b, b < 64 → s.mbMatch n b f = true → s.mbBit R.can_RXFULL n b = true) →
    Answers (.canFrameReceive t n f) s fun u =>
      u.f (R.can_CNT n) 15 0 = min (s.f (R.can_CNT n) 15 0 + 1) 65535 ∧ u.b (R.IRQ_STAT (P.can n)) 11 = true ∧
      Frame s u ([R.can_CNT n, R.can_ECNT n, R.can_TXSTAT n] ++ irqRegs (P.can n)) { s.rest with can := u.can, fd := u.fd }) ∧
  (∀ (s : State) t (n : Fin 2) f, s.canOn n = true → (f.fdf = true → s.b (R.can_CCFG n) 2 = true) → (s.canSt n).rxErr ≤ 127 →
    (∀ b, b < 64 → s.mbMatch n b f = false) →
    Answers (.canFrameReceive t n f) s fun u => Frame s u ([R.can_ECNT n, R.can_TXSTAT n] ++ irqRegs (P.can n)) { s.rest with can := u.can, fd := u.fd }) ∧
  (∀ (s : State) t (n : Fin 2) f, s.canOn n = false ∨ (f.fdf = true ∧ s.b (R.can_CCFG n) 2 = false) →
    Answers (.canFrameReceive t n f) s fun u => Frame s u [] s.rest) ∧
  (∀ (s : State) t m (n : Fin 2) hi bits, s.takes m (R.can_RXFULL n (b2n hi)) = true → (Tab.get s.hwSet (R.can_RXFULL n (b2n hi)) (0, 0)).1 ≠ ecyc (s.tick t).now →
    Answers (.rxfullFree t m n hi bits) s fun u =>
      u.rd (R.can_RXFULL n (b2n hi)) = s.rd (R.can_RXFULL n (b2n hi)) &&& ~~~ bits ∧ Frame s u [R.can_RXFULL n (b2n hi)] s.rest) ∧
  (∀ (s : State) t m (n : Fin 2) hi bits, s.takes m (R.can_TXREQ n (b2n hi)) = true → s.canListen n = false → s.canEn n = true → s.canRetired n = false →
    Answers (.txreq t m n hi bits) s fun u =>
      (∀ b, b < 64 → u.mbBit R.can_TXREQ n b = (s.mbBit R.can_TXREQ n b || (decide (b ∈ mbsOf hi bits) && decide (s.mbMode n b = 2)))) ∧
      (∀ b ∈ mbsOf hi bits, s.mbMode n b = 2 → s.mbBit R.can_TXREQ n b = false → Tab.get (u.canSt n).tries b 0 = 0) ∧
      ((∃ b ∈ mbsOf hi bits, s.mbMode n b ≠ 2) → u.b (R.IRQ_STAT (P.can n)) 15 = true) ∧
      Frame s u ([R.can_TXREQ n (b2n hi), R.can_TXSTAT n] ++ irqRegs (P.can n)) { s.rest with can := u.can }) ∧
  (∀ (s : State) t m (n : Fin 2) hi bits, s.takes m (R.can_TXREQ n (b2n hi)) = true → (s.canListen n || !s.canEn n || s.canRetired n) = true → bits ≠ 0 →
    Answers (.txreq t m n hi bits) s fun u =>
      u.b (R.IRQ_STAT (P.can n)) 15 = true ∧ Frame s u (R.can_TXSTAT n :: irqRegs (P.can n)) { s.rest with can := u.can }) ∧
  (∀ (s : State) t m (n : Fin 2) hi i, s.takes m (R.can_TXCAN n (b2n hi)) = true → i < 32 → s.mbBit R.can_TXREQ n (32 * b2n hi + i) = true →
    (s.canSt n).cur ≠ some (32 * b2n hi + i) →
    Answers (.txcan t m n hi (BitVec.ofNat 32 (2 ^ i))) s fun u =>
      let b := 32 * b2n hi + i
      u.mbBit R.can_TXREQ n b = false ∧ u.mbBit R.can_TXFAIL n b = true ∧ fld (BitVec.ofNat 32 (u.le (s.mbAddr n b + 4) 4)) 25 24 = 3 ∧
      u.b (R.IRQ_STAT (P.can n)) 9 = true ∧ (∀ a, a < s.mbAddr n b + 4 ∨ s.mbAddr n b + 8 ≤ a → u.byte a = s.byte a) ∧
      RegsKept s u ([R.can_TXREQ n (b2n hi), R.can_TXCAN n (b2n hi), R.can_TXFAIL n (b2n hi), R.can_TXSTAT n] ++ irqRegs (P.can n)) ∧
      u.rest = { s.rest with can := u.can, mem := u.mem }) ∧
  (∀ (s : State) t m (n : Fin 2) hi i, s.takes m (R.can_TXCAN n (b2n hi)) = true → i < 32 → s.mbBit R.can_TXREQ n (32 * b2n hi + i) = true →
    (s.canSt n).cur = some (32 * b2n hi + i) →
    Answers (.txcan t m n hi (BitVec.ofNat 32 (2 ^ i))) s fun u =>
      u.rd (R.can_TXCAN n (b2n hi)) = s.rd (R.can_TXCAN n (b2n hi)) ||| BitVec.ofNat 32 (2 ^ i) ∧ u.canSt n = s.canSt n ∧
      Frame s u [R.can_TXCAN n (b2n hi), R.can_TXSTAT n] { s.rest with can := u.can }) ∧
  (∀ (s : State) t (n : Fin 2) b, (s.canSt n).cur = some b → b < 64 →
    Answers (.canTxSuccess t n) s fun u =>
      let id := BitVec.ofNat 32 (s.le (s.mbAddr n b) 4)
      let ctl := BitVec.ofNat 32 (s.le (s.mbAddr n b + 4) 4)
      .canFrame n id ctl (s.bytes (s.mbAddr n b + 16) (canLen id ctl)) :: s.out <:+ u.out ∧
      u.mbBit R.can_TXREQ n b = false ∧ u.mbBit R.can_TXDONE n b = true ∧ fld (BitVec.ofNat 32 (u.le (s.mbAddr n b + 4) 4)) 25 24 = 1 ∧
      u.b (R.IRQ_STAT (P.can n)) 8 = true ∧ (u.canSt n).txErr = (s.canSt n).txErr - 1 ∧
      (∀ a, a < s.mbAddr n b + 4 ∨ s.mbAddr n b + 8 ≤ a → u.byte a = s.byte a) ∧
      RegsKept s u ([R.can_TXREQ n (b / 32), R.can_TXCAN n (b / 32), R.can_TXDONE n (b / 32), R.can_TXSTAT n, R.can_ECNT n] ++ irqRegs (P.can n)) ∧
      u.rest = { s.rest with can := u.can, mem := u.mem, fd := u.fd }) ∧
  (∀ (s : State) t (n : Fin 2), (s.canSt n).cur = none → Answers (.canTxSuccess t n) s fun u => Frame s u [] s.rest) ∧
  (∀ (s : State) t (n : Fin 2), (s.canSt n).cur = none → (s.canSt n).offAfter = true →
    Answers (.canDisable t n) s fun u =>
      (∀ b, b < 64 → u.mbBit R.can_TXREQ n b = false ∧ (s.mbBit R.can_TXREQ n b = true →
        u.mbBit R.can_TXFAIL n b = true ∧ fld (BitVec.ofNat 32 (u.le (s.mbAddr n b + 4) 4)) 25 24 = 3)) ∧ (u.canSt n).offAfter = false ∧
      (∀ a, a < s.mbAddr n 0 ∨ s.mbAddr n 0 + 0x2000 ≤ a → u.byte a = s.byte a) ∧
      RegsKept s u ([R.can_TXREQ n 0, R.can_TXREQ n 1, R.can_TXCAN n 0, R.can_TXCAN n 1, R.can_TXFAIL n 0, R.can_TXFAIL n 1, R.can_TXSTAT n] ++ irqRegs (P.can n)) ∧
      u.rest = { s.rest with can := u.can, mem := u.mem }) ∧
  (∀ (s : State) t (n : Fin 2), (s.canSt n).offAfter = false ∨ (s.canSt n).cur ≠ none → Answers (.canDisable t n) s fun u => Frame s u [] s.rest)

/-- CAN_FAILED_ATTEMPT, CAN_RECEIVE_ERROR, RECOVER and CAN_RECOVERED: a failed attempt is counted and its request stays, or ends at the limit RETRY; a transmission error adds 8 to the
transmit error counter, and at 256 the controller is bus-off, with its buffer as head, until RECOVER; a permanent fault retires it and ends every request (R566, R568 to R571;
the steps of the counters are ISO 11898-1's, log entry 40). -/
def Obligations.CanErrors : Prop :=
  (∀ (s : State) t (n : Fin 2) b, (s.canSt n).cur = some b → b < 64 → (s.canSt n).txErr < 256 →
    s.f (R.can_CCFG n) 12 8 = 0 ∨ Tab.get (s.canSt n).tries b 0 + 1 < s.f (R.can_CCFG n) 12 8 → s.mbBit R.can_TXCAN n b = false →
    Answers (.canFailedAttempt t n .lostArbitration) s fun u =>
      Tab.get (u.canSt n).tries b 0 = Tab.get (s.canSt n).tries b 0 + 1 ∧ (u.canSt n).txErr = (s.canSt n).txErr ∧ Frame s u [R.can_TXSTAT n] { s.rest with can := u.can }) ∧
  (∀ (s : State) t (n : Fin 2) b k, (s.canSt n).cur = some b → b < 64 → (s.canSt n).txErr + 8 < 256 → s.canState n < 2 → ¬ (k = .ack ∧ s.canState n = 1) →
    s.f (R.can_CCFG n) 12 8 = 0 ∨ Tab.get (s.canSt n).tries b 0 + 1 < s.f (R.can_CCFG n) 12 8 → s.mbBit R.can_TXCAN n b = false →
    Answers (.canFailedAttempt t n (.error k)) s fun u =>
      Tab.get (u.canSt n).tries b 0 = Tab.get (s.canSt n).tries b 0 + 1 ∧ (u.canSt n).txErr = (s.canSt n).txErr + 8 ∧ u.f (R.can_ECNT n) 7 0 = (s.canSt n).txErr + 8 ∧
      u.f (R.can_ECNT n) 26 24 = canErrCode k ∧ u.canState n = (if 127 < (s.canSt n).txErr + 8 ∨ 127 < (s.canSt n).rxErr then 1 else 0) ∧
      (u.canState n = 1 → s.canState n = 0 → u.b (R.IRQ_STAT (P.can n)) 12 = true) ∧
      Frame s u ([R.can_TXSTAT n, R.can_ECNT n] ++ irqRegs (P.can n)) { s.rest with can := u.can }) ∧
  (∀ (s : State) t (n : Fin 2) b k, (s.canSt n).cur = some b → b < 64 → (s.canSt n).txErr + 8 < 256 → 0 < s.f (R.can_CCFG n) 12 8 →
    s.f (R.can_CCFG n) 12 8 ≤ Tab.get (s.canSt n).tries b 0 + 1 →
    Answers (.canFailedAttempt t n k) s fun u =>
      u.mbBit R.can_TXREQ n b = false ∧ u.mbBit R.can_TXFAIL n b = true ∧ fld (BitVec.ofNat 32 (u.le (s.mbAddr n b + 4) 4)) 25 24 = 2 ∧
      u.b (R.IRQ_STAT (P.can n)) 9 = true ∧ (∀ a, a < s.mbAddr n b + 4 ∨ s.mbAddr n b + 8 ≤ a → u.byte a = s.byte a) ∧
      RegsKept s u ([R.can_TXREQ n (b / 32), R.can_TXCAN n (b / 32), R.can_TXFAIL n (b / 32), R.can_TXSTAT n, R.can_ECNT n] ++ irqRegs (P.can n)) ∧
      u.rest = { s.rest with can := u.can, mem := u.mem }) ∧
  (∀ (s : State) t (n : Fin 2) b k, (s.canSt n).cur = some b → b < 64 → 256 ≤ (s.canSt n).txErr + 8 → s.canState n < 2 → ¬ (k = .ack ∧ s.canState n = 1) →
    s.f (R.can_CCFG n) 12 8 = 0 → s.mbBit R.can_TXCAN n b = false → s.mbBit R.can_TXREQ n b = true → (s.fdCh 8 n).perm = false → (s.fdCh 8 n).lastGood = false →
    (s.fdCh 8 n).level + 1 < s.fdLimit 8 →
    Answers (.canFailedAttempt t n (.error k)) s fun u =>
      u.canState n = 2 ∧ (u.canSt n).cur = none ∧ (u.canSt n).head = some b ∧ Tab.get (u.canSt n).tries b 0 = Tab.get (s.canSt n).tries b 0 + 1 ∧
      u.f (R.can_TXSTAT n) 5 0 = b ∧ u.b (R.can_TXSTAT n) 7 = true ∧ u.f (R.can_CNT n) 31 16 = min (s.f (R.can_CNT n) 31 16 + 1) 65535 ∧
      u.b (R.IRQ_STAT (P.can n)) 13 = true ∧ (u.fdCh 8 n).level = (s.fdCh 8 n).level + 1 ∧
      Frame s u ([R.can_TXSTAT n, R.can_ECNT n, R.can_CNT n] ++ irqRegs (P.can n)) { s.rest with can := u.can, fd := u.fd }) ∧
  (∀ (s : State) t (n : Fin 2) b k, (s.canSt n).cur = some b → b < 64 → 256 ≤ (s.canSt n).txErr + 8 → s.canState n < 2 → ¬ (k = .ack ∧ s.canState n = 1) →
    s.f (R.can_CCFG n) 12 8 = 0 → s.mbBit R.can_TXCAN n b = false → s.mbBit R.can_TXREQ n b = true → (s.fdCh 8 n).perm = false → (s.fdCh 8 n).lastGood = false →
    s.fdLimit 8 ≤ (s.fdCh 8 n).level + 1 → (s.fdCh 8 n).level < 255 →
    Answers (.canFailedAttempt t n (.error k)) s fun u =>
      u.canState n = 2 ∧ u.canRetired n = true ∧
      (∀ c, c < 64 → u.mbBit R.can_TXREQ n c = false ∧ (s.mbBit R.can_TXREQ n c = true → fld (BitVec.ofNat 32 (u.le (s.mbAddr n c + 4) 4)) 25 24 = 3)) ∧
      (∀ a, a < s.mbAddr n 0 ∨ s.mbAddr n 0 + 0x2000 ≤ a → u.byte a = s.byte a) ∧
      RegsKept s u ([R.can_TXREQ n 0, R.can_TXREQ n 1, R.can_TXCAN n 0, R.can_TXCAN n 1, R.can_TXFAIL n 0, R.can_TXFAIL n 1, R.can_TXSTAT n, R.can_ECNT n, R.can_CNT n,
        R.STATUS (P.can n)] ++ irqRegs (P.can n)) ∧ u.rest = { s.rest with can := u.can, fd := u.fd, mem := u.mem }) ∧
  (∀ (s : State) t (n : Fin 2) k, (s.canSt n).cur = none → Answers (.canFailedAttempt t n k) s fun u => Frame s u [] s.rest) ∧
  (∀ (s : State) t (n : Fin 2) k, s.canOn n = true → s.canListen n = false →
    Answers (.canReceiveError t n k) s fun u =>
      let r := (s.canSt n).rxErr + (if k = .bit0 then 8 else 1)
      (u.canSt n).rxErr = r ∧ u.f (R.can_ECNT n) 15 8 = min r 255 ∧ u.f (R.can_ECNT n) 26 24 = canErrCode k ∧ (u.canSt n).txErr = (s.canSt n).txErr ∧
      Frame s u (R.can_ECNT n :: irqRegs (P.can n)) { s.rest with can := u.can }) ∧
  (∀ (s : State) t (n : Fin 2) k, s.canOn n = false ∨ s.canListen n = true → Answers (.canReceiveError t n k) s fun u => Frame s u [] s.rest) ∧
  (∀ (s : State) t m (n : Fin 2), s.takes m (R.can_CMD n) = true → s.canState n = 2 → s.canRetired n = false →
    Answers (.recover t m n) s fun u => u.canState n = 3 ∧ Frame s u [R.can_ECNT n] s.rest) ∧
  (∀ (s : State) t m (n : Fin 2), s.takes m (R.can_CMD n) = true → s.canState n ≠ 2 ∨ s.canRetired n = true →
    Answers (.recover t m n) s fun u => u.b (R.IRQ_STAT (P.can n)) 15 = true ∧ Frame s u (irqRegs (P.can n)) s.rest) ∧
  (∀ (s : State) t (n : Fin 2), s.canState n = 3 →
    Answers (.canRecovered t n) s fun u =>
      u.canState n = 0 ∧ (u.canSt n).txErr = 0 ∧ (u.canSt n).rxErr = 0 ∧ u.f (R.can_ECNT n) 15 0 = 0 ∧ u.b (R.IRQ_STAT (P.can n)) 14 = true ∧
      (∀ b, (s.canSt n).head = some b → (s.canSt n).cur = none → s.canEn n = true → s.canListen n = false → (s.canSt n).offAfter = false → (u.canSt n).cur = some b) ∧
      Frame s u ([R.can_ECNT n, R.can_TXSTAT n] ++ irqRegs (P.can n)) { s.rest with can := u.can }) ∧
  (∀ (s : State) t (n : Fin 2), s.canState n ≠ 3 → Answers (.canRecovered t n) s fun u => Frame s u [] s.rest)

/-- A frame for the host receive ring alone of port n: PTP, to the port, or to a group it takes, and not forwarded (Table 17.4, R576). -/
def Machine.ToHost (s : State) (n : Nat) (f : EthFrame) : Prop :=
  s.ethEn n = true ∧ f.fcsGood = true ∧ f.len ≤ 1522 ∧ (s.ethBridge = false ∨ ethDst f.bytes = s.ethMac n) ∧
  ((ptpAt f.bytes (s.b R.invarPtp_PTPCFG 8)).isSome = true ∨
   ((s.b (R.eth_MBX_CFG n) 16 = false ∨ ethType f.bytes ≠ s.f (R.eth_MBX_CFG n) 15 0 ∨ ethDst f.bytes ≠ s.ethMac n) ∧
    (ethDst f.bytes = s.ethMac n ∨ ethDst f.bytes = 2 ^ 48 - 1 ∨ (ethDst f.bytes / 2 ^ 40 % 2 = 1 ∧ s.b (R.eth_ECFG n) 4 = true))))

/-- A frame for the mailbox of port n (Table 17.4). -/
def Machine.ToMailbox (s : State) (n : Nat) (f : EthFrame) : Prop :=
  s.ethEn n = true ∧ f.fcsGood = true ∧ f.len ≤ 1522 ∧ (ptpAt f.bytes (s.b R.invarPtp_PTPCFG 8)).isSome = false ∧ s.b (R.eth_MBX_CFG n) 16 = true ∧
  ethType f.bytes = s.f (R.eth_MBX_CFG n) 15 0 ∧ ethDst f.bytes = s.ethMac n

/-- A frame that port n only forwards or discards (the last row of Table 17.4). -/
def Machine.OnlyForwarded (s : State) (n : Nat) (f : EthFrame) : Prop :=
  s.ethEn n = true ∧ f.fcsGood = true ∧ f.len ≤ 1522 ∧ (ptpAt f.bytes (s.b R.invarPtp_PTPCFG 8)).isSome = false ∧ ethDst f.bytes ≠ s.ethMac n ∧
  ethDst f.bytes ≠ 2 ^ 48 - 1 ∧ ¬ (ethDst f.bytes / 2 ^ 40 % 2 = 1 ∧ s.b (R.eth_ECFG n) 4 = true)

/-- ETH_FRAME_RECEIVE, RX_RD_WRITE, TX_WR_WRITE, ETH_FRAME_SENT, MBX_RX_FREE, MBX_TX, MDIO_CMD, MDIO_DONE and ETH_LINK_CHANGE: a frame goes to the host ring, a mailbox slot or the other
port's queue, and one that finds no room is dropped and counted; frames handed over are sent in the order of R576, with a timestamp where it is asked for and an event
message's residence time added (R412, R413, R573 to R577, R581). -/
def Obligations.EthernetCommands : Prop :=
  (∀ (s : State) t (n : Fin 2) f, s.ethEn n = false → Answers (.ethFrameReceive t n f) s fun u => Frame s u [] s.rest) ∧
  (∀ (s : State) t (n : Fin 2) (f : EthFrame), s.ethEn n = true → f.fcsGood = false ∨ 1522 < f.len →
    Answers (.ethFrameReceive t n f) s fun u => u.f (R.eth_CNT n) 31 24 = min (s.f (R.eth_CNT n) 31 24 + 1) 255 ∧ Frame s u [R.eth_CNT n] s.rest) ∧
  (∀ (s : State) t (n : Fin 2) f, Machine.ToHost s n f → (s.rd (R.eth_RX_WR n) - s.rd (R.eth_RX_RD n)).toNat ≠ s.ethRingLen (R.eth_RXRING n) →
    Answers (.ethFrameReceive t n f) s fun u =>
      let a := s.ethRingSlot (R.eth_RXRING n) (s.rd (R.eth_RX_WR n)).toNat
      u.bytes a (16 + f.bytes.length) = slotBytes f (s.ingress f) ∧ u.rd (R.eth_RX_WR n) = s.rd (R.eth_RX_WR n) + 1 ∧ u.b (R.IRQ_STAT (P.eth n)) 8 = true ∧
      (∀ x, x < a ∨ a + 16 + f.bytes.length ≤ x → u.byte x = s.byte x) ∧ u.rd R.invarPtp_PTPSTAT = (s.ptpOther n f).rd R.invarPtp_PTPSTAT ∧
      RegsKept s u (R.eth_RX_WR n :: R.invarPtp_PTPSTAT :: irqRegs (P.eth n)) ∧
      u.rest = { s.rest with mem := u.mem, ecc := u.ecc }) ∧
  (∀ (s : State) t (n : Fin 2) f, Machine.ToHost s n f → (s.rd (R.eth_RX_WR n) - s.rd (R.eth_RX_RD n)).toNat = s.ethRingLen (R.eth_RXRING n) →
    Answers (.ethFrameReceive t n f) s fun u =>
      u.f (R.eth_CNT n) 7 0 = min (s.f (R.eth_CNT n) 7 0 + 1) 255 ∧ u.b (R.IRQ_STAT (P.eth n)) 10 = true ∧
      u.rd R.invarPtp_PTPSTAT = (s.ptpOther n f).rd R.invarPtp_PTPSTAT ∧ Frame s u (R.eth_CNT n :: R.invarPtp_PTPSTAT :: irqRegs (P.eth n)) s.rest) ∧
  (∀ (s : State) t (n : Fin 2) f i, Machine.ToMailbox s n f → i < 8 → s.b (R.eth_MBX_RX n) i = false → (∀ j, j < i → s.b (R.eth_MBX_RX n) j = true) →
    Answers (.ethFrameReceive t n f) s fun u =>
      u.bytes (s.mbxRxSlot n i) (16 + f.bytes.length) = slotBytes f (s.ingress f) ∧ u.rd (R.eth_MBX_RX n) = s.rd (R.eth_MBX_RX n) ||| BitVec.ofNat 32 (2 ^ i) ∧
      u.b (R.IRQ_STAT (P.eth n)) 11 = true ∧ (∀ x, x < s.mbxRxSlot n i ∨ s.mbxRxSlot n i + 16 + f.bytes.length ≤ x → u.byte x = s.byte x) ∧
      RegsKept s u (R.eth_MBX_RX n :: irqRegs (P.eth n)) ∧ u.rest = { s.rest with mem := u.mem, ecc := u.ecc }) ∧
  (∀ (s : State) t (n : Fin 2) f, Machine.ToMailbox s n f → (∀ j, j < 8 → s.b (R.eth_MBX_RX n) j = true) →
    Answers (.ethFrameReceive t n f) s fun u => u.f (R.eth_CNT n) 23 16 = min (s.f (R.eth_CNT n) 23 16 + 1) 255 ∧ Frame s u [R.eth_CNT n] s.rest) ∧
  (∀ (s : State) t (n : Fin 2) f, Machine.OnlyForwarded s n f → s.ethBridge = false → Answers (.ethFrameReceive t n f) s fun u => Frame s u [] s.rest) ∧
  (∀ (s : State) t (n : Fin 2) f, Machine.OnlyForwarded s n f → s.ethBridge = true → (s.ethSt (1 - n.val)).events.length + (s.ethSt (1 - n.val)).fwd.length < 16 →
    Answers (.ethFrameReceive t n f) s fun u =>
      let x := s.ethSt (1 - n.val)
      let ev := (anyEvent f.bytes).isSome
      let y := if ev then { x with events := x.events ++ [.forward f.bytes (s.ingress f) ev] } else { x with fwd := x.fwd ++ [.forward f.bytes (s.ingress f) ev] }
      u.ethSt (1 - n.val) = (if s.ethEn (1 - n.val) then y.pick else y) ∧ u.ethSt n = s.ethSt n ∧ Frame s u [] { s.rest with eth := u.eth }) ∧
  (∀ (s : State) t (n : Fin 2) f, Machine.OnlyForwarded s n f → s.ethBridge = true → 16 ≤ (s.ethSt (1 - n.val)).events.length + (s.ethSt (1 - n.val)).fwd.length →
    Answers (.ethFrameReceive t n f) s fun u => u.f (R.eth_CNT n) 15 8 = min (s.f (R.eth_CNT n) 15 8 + 1) 255 ∧ Frame s u [R.eth_CNT n] s.rest) ∧
  (∀ (x : EthSt), x.cur = none →
    (∀ f r, x.events = f :: r → x.pick = { x with events := r, cur := some f }) ∧ (∀ f r, x.events = [] → x.fwd = f :: r → x.pick = { x with fwd := r, cur := some f }) ∧
    (∀ f r, x.events = [] → x.fwd = [] → x.host = f :: r → x.pick = { x with host := r, cur := some f })) ∧
  (∀ (s : State) t m (n : Fin 2) val, s.takes m (R.eth_RX_RD n) = true →
    Answers (.rxRdWrite t m n val) s fun u => u.rd (R.eth_RX_RD n) = val ∧ Frame s u [R.eth_RX_RD n] s.rest) ∧
  (∀ (s : State) t m (n : Fin 2) (val : W32), s.takes m (R.eth_TX_WR n) = true → (val - s.rd (R.eth_TX_RD n)).toNat ≤ s.ethRingLen (R.eth_TXRING n) →
    (s.rd (R.eth_TX_WR n) - s.rd (R.eth_TX_RD n)).toNat ≤ (val - s.rd (R.eth_TX_RD n)).toNat →
    Answers (.txWrWrite t m n val) s fun u =>
      let x := s.ethSt n
      let w := (s.rd (R.eth_TX_WR n)).toNat
      let y := { x with host := x.host ++ (List.range (val - s.rd (R.eth_TX_WR n)).toNat).map fun i => EthTx.ring ((w + i) % 2 ^ 32) }
      u.rd (R.eth_TX_WR n) = val ∧ u.ethSt n = (if s.ethEn n then y.pick else y) ∧ Frame s u [R.eth_TX_WR n] { s.rest with eth := u.eth }) ∧
  (∀ (s : State) t m (n : Fin 2) (val : W32), s.takes m (R.eth_TX_WR n) = true → s.ethRingLen (R.eth_TXRING n) < (val - s.rd (R.eth_TX_RD n)).toNat ∨
    (val - s.rd (R.eth_TX_RD n)).toNat < (s.rd (R.eth_TX_WR n) - s.rd (R.eth_TX_RD n)).toNat →
    Answers (.txWrWrite t m n val) s fun u => u.b (R.IRQ_STAT (P.eth n)) 13 = true ∧ Frame s u (irqRegs (P.eth n)) s.rest) ∧
  (∀ (s : State) t (n : Fin 2) i, (s.ethSt n).cur = some (.ring i) →
    Answers (.ethFrameSent t n) s fun u =>
      let a := s.ethRingSlot (R.eth_TXRING n) i
      let h := BitVec.ofNat 32 (s.le a 4)
      .ethFrame n (s.bytes (a + 16) (fld h 10 0)) :: s.out <:+ u.out ∧ u.rd (R.eth_TX_RD n) = s.rd (R.eth_TX_RD n) + 1 ∧ u.b (R.IRQ_STAT (P.eth n)) 9 = true ∧
      u.ethSt n = (if s.ethEn n then EthSt.pick { s.ethSt n with cur := none } else { s.ethSt n with cur := none }) ∧
      (bit h 16 = true → u.le a 4 = (setFld h 17 17 1).toNat ∧ u.le (a + 8) 6 = ((s.tick t).egress (fld h 10 0)).toNat / 65536) ∧ (bit h 16 = false → MemKept s u) ∧
      (∀ x, x < a ∨ a + 16 ≤ x → u.byte x = s.byte x) ∧ RegsKept s u (R.eth_TX_RD n :: irqRegs (P.eth n)) ∧
      u.rest = { s.rest with eth := u.eth, mem := u.mem, ecc := u.ecc }) ∧
  (∀ (s : State) t (n : Fin 2) i, (s.ethSt n).cur = some (.mailbox i) → bit (BitVec.ofNat 32 (s.le (s.mbxTxSlot n i) 4)) 16 = false → i < 8 →
    Answers (.ethFrameSent t n) s fun u =>
      let h := BitVec.ofNat 32 (s.le (s.mbxTxSlot n i) 4)
      .ethFrame n (s.bytes (s.mbxTxSlot n i + 16) (fld h 10 0)) :: s.out <:+ u.out ∧ u.b (R.eth_MBX_TX n) i = false ∧ u.b (R.IRQ_STAT (P.eth n)) 9 = true ∧
      Frame s u (R.eth_MBX_TX n :: irqRegs (P.eth n)) { s.rest with eth := u.eth }) ∧
  (∀ (s : State) t (n : Fin 2) f st ev, (s.ethSt n).cur = some (.forward f st ev) → anyEvent f = none ∨ s.b R.invarPtp_PTPCFG 9 = false →
    Answers (.ethFrameSent t n) s fun u => u.out = .ethFrame n f :: s.out ∧ Frame s u [] { s.rest with eth := u.eth }) ∧
  (∀ (s : State) t (n : Fin 2) f st ev o udp, (s.ethSt n).cur = some (.forward f st ev) → anyEvent f = some (o, udp) → s.b R.invarPtp_PTPCFG 9 = true →
    Answers (.ethFrameSent t n) s fun u =>
      u.out = .ethFrame n (correctAt f o udp ((s.tick t).egress f.length - st).toInt) :: s.out ∧ Frame s u [R.invarPtp_TC_CNT] { s.rest with eth := u.eth }) ∧
  (∀ (s : State) t (n : Fin 2), (s.ethSt n).cur = none → Answers (.ethFrameSent t n) s fun u => Frame s u [] s.rest) ∧
  (∀ (s : State) t m (n : Fin 2) (bits : Byte), s.takes m (R.eth_MBX_RX n) = true → (Tab.get s.hwSet (R.eth_MBX_RX n) (0, 0)).1 ≠ ecyc (s.tick t).now →
    Answers (.mbxRxFree t m n bits) s fun u => u.rd (R.eth_MBX_RX n) = s.rd (R.eth_MBX_RX n) &&& ~~~ bits.setWidth 32 ∧ Frame s u [R.eth_MBX_RX n] s.rest) ∧
  (∀ (s : State) t m (n : Fin 2) (bits : Byte), s.takes m (R.eth_MBX_TX n) = true →
    Answers (.mbxTx t m n bits) s fun u =>
      let x := s.ethSt n
      let new := (List.range 8).filter fun i => bits.toNat.testBit i && !s.b (R.eth_MBX_TX n) i
      let y := { x with host := x.host ++ new.map EthTx.mailbox }
      u.rd (R.eth_MBX_TX n) = s.rd (R.eth_MBX_TX n) ||| bits.setWidth 32 ∧ u.ethSt n = (if s.ethEn n then y.pick else y) ∧ Frame s u [R.eth_MBX_TX n] { s.rest with eth := u.eth }) ∧
  (∀ (s : State) t m (val : W32), s.takes m (R.eth_MDIO_CMD 0) = true → s.mdio = none →
    Answers (.mdioCmd t m val) s fun u => u.mdio = some val ∧ u.b (R.eth_MDIO_STAT 0) 16 = true ∧ Frame s u [R.eth_MDIO_STAT 0] { s.rest with mdio := u.mdio }) ∧
  (∀ (s : State) t m (val w : W32), s.takes m (R.eth_MDIO_CMD 0) = true → s.mdio = some w →
    Answers (.mdioCmd t m val) s fun u => u.b (R.IRQ_STAT (P.eth 0)) 13 = true ∧ Frame s u (irqRegs (P.eth 0)) s.rest) ∧
  (∀ (s : State) t data w, s.mdio = some w →
    Answers (.mdioDone t data) s fun u =>
      u.mdio = none ∧ u.b (R.eth_MDIO_STAT 0) 16 = false ∧ u.f (R.eth_MDIO_STAT 0) 15 0 = (if bit w 10 then s.f (R.eth_MDIO_STAT 0) 15 0 else data.toNat) ∧
      Frame s u [R.eth_MDIO_STAT 0] { s.rest with mdio := u.mdio }) ∧
  (∀ (s : State) t data, s.mdio = none → Answers (.mdioDone t data) s fun u => Frame s u [] s.rest) ∧
  (∀ (s : State) t (n : Fin 2) on aneg, s.blockInReset (0x0C + n) = false →
    Answers (.ethLinkChange t n on aneg) s fun u =>
      let up := on && s.calOk 3
      u.b (R.eth_LSTAT n) 0 = up ∧ u.b (R.eth_LSTAT n) 1 = (up && aneg) ∧
      u.f (R.eth_LSTAT n) 31 16 = (if s.b (R.eth_LSTAT n) 0 && !up then min (s.f (R.eth_LSTAT n) 31 16 + 1) 65535 else s.f (R.eth_LSTAT n) 31 16) ∧
      (s.b (R.eth_LSTAT n) 0 ≠ up → u.b (R.IRQ_STAT (P.eth n)) 12 = true) ∧ Frame s u (R.eth_LSTAT n :: irqRegs (P.eth n)) s.rest)

/-- GPIO_SET, GPIO_CLR, PAD_WRITE, TWI_CMD, TWI_DONE and TWI_TIMEOUT: the output bits written change and no other; a pad keeps the bits of Table 19.7; a two-wire command runs until it is done, or
is discarded while another runs (R613, R615, R616). BW_WINDOW_END, FREEZE, COUNTER_OVERFLOW and CLR_PEAK: a window closes into LAST and PEAK and the next begins; freezing stops the
counts; a counter that wrapped sets its bit (R593, R594, R596). -/
def Obligations.PinsAndCounters : Prop :=
  (∀ (s : State) t m (bits : BitVec 16), s.takes m R.chip_GPIO_SET = true →
    Answers (.gpioSet t m bits) s fun u => u.rd R.chip_GPIO_OUT = s.rd R.chip_GPIO_OUT ||| bits.setWidth 32 ∧ Frame s u [R.chip_GPIO_OUT] s.rest) ∧
  (∀ (s : State) t m (bits : BitVec 16), s.takes m R.chip_GPIO_CLR = true →
    Answers (.gpioClr t m bits) s fun u => u.rd R.chip_GPIO_OUT = s.rd R.chip_GPIO_OUT &&& ~~~ (bits.setWidth 32) ∧ Frame s u [R.chip_GPIO_OUT] s.rest) ∧
  (∀ (s : State) t m (k : Fin 64) val, s.takes m (R.chip_PAD k) = true →
    Answers (.padWrite t m k val) s fun u => u.rd (R.chip_PAD k) = val &&& 0x7F7 ∧ Frame s u [R.chip_PAD k] s.rest) ∧
  (∀ (s : State) t m (val : W32), s.takes m R.chip_TWI_CMD = true → s.twi = none → s.b R.chip_TWI_CFG 0 = true →
    Answers (.twiCmd t m val) s fun u => u.twi = some val ∧ u.b R.chip_TWI_STAT 8 = true ∧ Frame s u [R.chip_TWI_STAT] { s.rest with twi := u.twi }) ∧
  (∀ (s : State) t m (val : W32), s.takes m R.chip_TWI_CMD = true → s.twi ≠ none ∨ s.b R.chip_TWI_CFG 0 = false →
    Answers (.twiCmd t m val) s fun u => u.rd R.chip_TWI_STAT = s.rd R.chip_TWI_STAT ||| 0x8000 ∧ Frame s u [R.chip_TWI_STAT] s.rest) ∧
  (∀ (s : State) t acked rx w, s.twi = some w →
    Answers (.twiDone t acked rx false) s fun u =>
      u.twi = none ∧ u.b R.chip_TWI_STAT 8 = false ∧ u.b (R.IRQ_STAT P.chip) 8 = true ∧
      (bit w 10 = true → u.f R.chip_TWI_STAT 7 0 = rx.toNat ∧ u.b R.chip_TWI_STAT 9 = s.b R.chip_TWI_STAT 9) ∧
      (bit w 10 = false → u.f R.chip_TWI_STAT 7 0 = s.f R.chip_TWI_STAT 7 0 ∧ u.b R.chip_TWI_STAT 9 = acked ∧ u.b R.chip_TWI_STAT 12 = (s.b R.chip_TWI_STAT 12 || !acked)) ∧
      Frame s u (R.chip_TWI_STAT :: irqRegs P.chip) { s.rest with twi := u.twi }) ∧
  (∀ (s : State) t acked rx w, s.twi = some w →
    Answers (.twiDone t acked rx true) s fun u =>
      u.twi = none ∧ u.b R.chip_TWI_STAT 8 = false ∧ u.b R.chip_TWI_STAT 13 = true ∧ u.f R.chip_TWI_STAT 7 0 = s.f R.chip_TWI_STAT 7 0 ∧ u.b (R.IRQ_STAT P.chip) 8 = true ∧
      Frame s u (R.chip_TWI_STAT :: irqRegs P.chip) { s.rest with twi := u.twi }) ∧
  (∀ (s : State) t w, s.twi = some w →
    Answers (.twiTimeout t) s fun u =>
      u.twi = none ∧ u.b R.chip_TWI_STAT 8 = false ∧ u.b R.chip_TWI_STAT 14 = true ∧ u.b (R.IRQ_STAT P.chip) 8 = true ∧
      Frame s u (R.chip_TWI_STAT :: irqRegs P.chip) { s.rest with twi := u.twi }) ∧
  (∀ (s : State) t i, s.twi = none → (i = .twiTimeout t ∨ ∃ acked rx lost, i = .twiDone t acked rx lost) → Answers i s fun u => Frame s u [] s.rest) ∧
  (∀ (s : State) t (c : Fin 8), s.b (R.perfCell_BW_CFG c) 24 = true → s.frozen = false → s.perf.stopped.contains c.val = false →
    Tab.get s.perf.since c 0 + s.bwLen c ≤ (s.tick t).now →
    Answers (.bwWindowEnd t c) s fun u =>
      (∀ p, p < 6 → u.rd (R.perfCell_BW_LAST c p) = s.rd (R.perfCell_BW_CUR c p) ∧ u.rd (R.perfCell_BW_CUR c p) = 0 ∧
        (u.rd (R.perfCell_BW_PEAK c p)).toNat = max (s.rd (R.perfCell_BW_PEAK c p)).toNat (s.rd (R.perfCell_BW_CUR c p)).toNat) ∧
      u.f (R.perfCell_BW_CFG c) 31 28 = (s.f (R.perfCell_BW_CFG c) 31 28 + 1) % 16 ∧ (s.b (R.perfCell_BW_CFG c) 25 = true → u.b (R.IRQ_STAT (P.perfCell c)) 12 = true) ∧
      Tab.get u.perf.since c 0 = Tab.get s.perf.since c 0 + s.bwLen c ∧
      Frame s u (R.perfCell_BW_CFG c :: ((List.range 6).flatMap fun p => [R.perfCell_BW_LAST c p, R.perfCell_BW_CUR c p, R.perfCell_BW_PEAK c p]) ++ irqRegs (P.perfCell c))
        { s.rest with perf := u.perf }) ∧
  (∀ (s : State) t (c : Fin 8), s.b (R.perfCell_BW_CFG c) 24 = false ∨ s.frozen = true ∨ s.perf.stopped.contains c.val = true ∨ (s.tick t).now < Tab.get s.perf.since c 0 + s.bwLen c →
    Answers (.bwWindowEnd t c) s fun u => Frame s u [] s.rest) ∧
  (∀ (s : State) t m on, s.takes m R.perfCommon_PCTL = true →
    Answers (.freeze t m on) s fun u =>
      u.frozen = on ∧ (on = true → s.frozen = false → u.perf.frozenAt = u.now ∧ u.perf.since = s.perf.since) ∧
      (∀ c, c < 8 → on = false → s.frozen = true → Tab.get u.perf.since c 0 = Tab.get s.perf.since c 0 + (u.now - s.perf.frozenAt)) ∧
      (∀ e, (u.eng e).servs = (s.eng e).servs) ∧ QuietRegs s u [R.perfCommon_PCTL] ∧ MemKept s u ∧ u.rest = { s.rest with engs := u.engs, perf := u.perf }) ∧
  (∀ (s : State) t (e : Fin 32) (i : CounterIdx) v, v = (s.tick t).slots e ((s.tick t).eng e).slotClass → i.val < 8 → v.perf.wraps.contains (e.val * 9 + i.val) = true →
    Answers (.counterOverflow t e i) s fun u =>
      u.b (R.perfCell_OVF (e.val / 4) (e.val % 4)) i = true ∧ u.perf.wraps = v.perf.wraps.filter (· ≠ e.val * 9 + i.val) ∧
      (s.b (R.perfCell_PSEL (e.val / 4) (e.val % 4) i) 17 = true → u.b (R.IRQ_STAT (P.perfCell (e.val / 4))) (8 + e.val % 4) = true) ∧
      QuietRegs s u [R.router_VEC_ARM 0, R.router_VEC_ARM 1] ∧ MemKept s u ∧ u.rest = { s.rest with engs := u.engs, perf := u.perf }) ∧
  (∀ (s : State) t (e : Fin 32) (i : CounterIdx) v, v = (s.tick t).slots e ((s.tick t).eng e).slotClass → i.val < 8 → v.perf.wraps.contains (e.val * 9 + i.val) = false →
    Answers (.counterOverflow t e i) s fun u => QuietRegs s u [] ∧ MemKept s u ∧ u.rest = { s.rest with engs := u.engs, perf := u.perf }) ∧
  (∀ (s : State) t (e : Fin 32), Tab.get s.perf.ecycWraps e 0 < (s.tick t).ecycRaw e / 2 ^ 64 →
    Answers (.counterOverflow t e 8) s fun u =>
      u.b (R.perfCell_OVF (e.val / 4) (e.val % 4)) 8 = true ∧ Tab.get u.perf.ecycWraps e 0 = (s.tick t).ecycRaw e / 2 ^ 64 ∧
      QuietRegs s u [] ∧ MemKept s u ∧ u.rest = { s.rest with engs := u.engs, perf := u.perf }) ∧
  (∀ (s : State) t m (c : Fin 8), s.takes m (R.CTRL (P.perfCell c)) = true →
    Answers (.clrPeak t m c) s fun u =>
      (∀ p, p < 6 → u.rd (R.perfCell_BW_PEAK c p) = 0) ∧ Frame s u ((List.range 6).map fun p => R.perfCell_BW_PEAK c p) s.rest)

/-- Every step keeps memory, the registers and the staged copies in canonical form: addresses rise strictly and no entry equals what an unlisted address reads as, so equal
contents are equal data. -/
def Obligations.StepKeepsCanonicalForm : Prop := ∀ s u : State, s.Canonical → step s = .next u → u.Canonical

/-- Whatever the command, a step takes the front command off the queue and no other, the device's time never runs back, and what has left the device stays as it was; no command
is refused in any state, and the one stop is the factory test mode that the straps select at a RESET_N release (R518). -/
def Obligations.StepIsOrderly : Prop :=
  (∀ (s u : State) c r, s.pending = c :: r → step s = .next u → u.pending = r ∧ s.now ≤ u.now ∧ s.out <:+ u.out) ∧
  (∀ (s : State) c, (∃ u, exec c s = .next u) ∨ (exec c s = .fault .testBypass ∧ ∃ t src straps banks, c = .resetRelease t src straps banks))
end

