-- ==== Sys2Proof/Laws/Tab.lean ====
section
/-! SUPPORT. Tables: what a read gives after a write, and that every operation keeps the canonical form. -/

namespace Sys2Proof.Machine

variable {α : Type}

@[simp] theorem Tab.get_nil (k : Nat) (d : α) : Tab.get ([] : Tab α) k d = d := rfl

@[simp] theorem Tab.get_cons (k' k : Nat) (v d : α) (r : Tab α) : Tab.get ((k', v) :: r) k d = if k' = k then v else Tab.get r k d := rfl

theorem Tab.get_del (t : Tab α) (k j : Nat) (d : α) : Tab.get (Tab.del t k) j d = if j = k then d else Tab.get t j d := by
  induction t with
  | nil => simp [Tab.del]
  | cons e r ih =>
    obtain ⟨k', v⟩ := e
    by_cases hk : k' = k
    · subst hk; simp only [Tab.del, if_true, ih, Tab.get_cons]
      by_cases hj : j = k'
      · simp [hj]
      · simp [hj, Ne.symm hj]
    · simp only [Tab.del, hk, if_false, Tab.get_cons, ih]
      by_cases hj : k' = j
      · subst hj; simp [hk]
      · simp [hj]

theorem Tab.get_ins (t : Tab α) (k j : Nat) (v d : α) : Tab.get (Tab.ins t k v) j d = if j = k then v else Tab.get t j d := by
  induction t with
  | nil =>
    by_cases h : j = k
    · simp [Tab.ins, h]
    · simp [Tab.ins, h, Ne.symm h]
  | cons e r ih =>
    obtain ⟨k', v'⟩ := e
    by_cases hk : k' = k
    · subst hk
      by_cases hj : j = k' <;> simp [Tab.ins, hj, eq_comm]
    · by_cases hl : k < k'
      · by_cases hj : j = k
        · subst hj; simp [Tab.ins, hk, hl]
        · simp [Tab.ins, hk, hl, hj, Ne.symm hj]
      · simp only [Tab.ins, hk, hl, if_false, Tab.get_cons, ih]
        by_cases hj : k' = j
        · subst hj; simp [hk]
        · simp [hj]

/-- A read after a write: the written value at its key, and what was there before at every other key. -/
theorem Tab.get_set [DecidableEq α] (t : Tab α) (k j : Nat) (v d d' : α) (h : j = k → d' = d) :
    Tab.get (Tab.set t k v d) j d' = if j = k then v else Tab.get t j d' := by
  unfold Tab.set
  by_cases hv : v = d
  · simp only [hv, if_true, Tab.get_del]
    by_cases hj : j = k
    · simp [hj, h hj]
    · simp [hj]
  · simp only [hv, if_false, Tab.get_ins]

@[simp] theorem Tab.get_set_same [DecidableEq α] (t : Tab α) (k j : Nat) (v d : α) :
    Tab.get (Tab.set t k v d) j d = if j = k then v else Tab.get t j d := Tab.get_set t k j v d d fun _ => rfl

theorem Tab.sorted_mono (t : Tab α) {lo hi : Nat} (h : lo ≤ hi) (hs : Tab.sortedFrom hi t = true) : Tab.sortedFrom lo t = true := by
  cases t with
  | nil => rfl
  | cons e r =>
    obtain ⟨k, v⟩ := e
    simp only [Tab.sortedFrom, Bool.and_eq_true, decide_eq_true_eq] at hs ⊢
    exact ⟨Nat.le_trans h hs.1, hs.2⟩

theorem Tab.sorted_del (t : Tab α) (k lo : Nat) (hs : Tab.sortedFrom lo t = true) : Tab.sortedFrom lo (Tab.del t k) = true := by
  induction t generalizing lo with
  | nil => rfl
  | cons e r ih =>
    obtain ⟨k', v⟩ := e
    simp only [Tab.sortedFrom, Bool.and_eq_true, decide_eq_true_eq] at hs
    by_cases hk : k' = k
    · simp only [Tab.del, hk, if_true]
      exact ih lo (Tab.sorted_mono r (by omega) hs.2)
    · simp only [Tab.del, hk, if_false, Tab.sortedFrom, Bool.and_eq_true, decide_eq_true_eq]
      exact ⟨hs.1, ih (k' + 1) hs.2⟩

theorem Tab.sorted_ins (t : Tab α) (k lo : Nat) (v : α) (hk : lo ≤ k) (hs : Tab.sortedFrom lo t = true) :
    Tab.sortedFrom lo (Tab.ins t k v) = true := by
  induction t generalizing lo with
  | nil => simp [Tab.ins, Tab.sortedFrom, hk]
  | cons e r ih =>
    obtain ⟨k', v'⟩ := e
    simp only [Tab.sortedFrom, Bool.and_eq_true, decide_eq_true_eq] at hs
    by_cases he : k' = k
    · subst he; simp only [Tab.ins, if_true, Tab.sortedFrom, Bool.and_eq_true, decide_eq_true_eq]; exact hs
    · by_cases hl : k < k'
      · simp only [Tab.ins, he, hl, if_false, if_true, Tab.sortedFrom, Bool.and_eq_true, decide_eq_true_eq]
        exact ⟨hk, by omega, hs.2⟩
      · simp only [Tab.ins, he, hl, if_false, Tab.sortedFrom, Bool.and_eq_true, decide_eq_true_eq]
        exact ⟨hs.1, ih (k' + 1) (by omega) hs.2⟩

theorem Tab.mem_del (t : Tab α) (k : Nat) (e : Nat × α) (h : e ∈ Tab.del t k) : e ∈ t := by
  induction t with
  | nil => cases h
  | cons x r ih =>
    obtain ⟨k', v⟩ := x
    by_cases hk : k' = k
    · simp only [Tab.del, hk, if_true] at h; exact List.mem_cons_of_mem _ (ih h)
    · simp only [Tab.del, hk, if_false, List.mem_cons] at h ⊢
      rcases h with h | h
      · exact Or.inl h
      · exact Or.inr (ih h)

theorem Tab.mem_ins (t : Tab α) (k : Nat) (v : α) (e : Nat × α) (h : e ∈ Tab.ins t k v) : e = (k, v) ∨ e ∈ t := by
  induction t with
  | nil => simpa [Tab.ins] using h
  | cons x r ih =>
    obtain ⟨k', v'⟩ := x
    by_cases hk : k' = k
    · simp only [Tab.ins, hk, if_true, List.mem_cons] at h ⊢
      rcases h with h | h
      · exact Or.inl h
      · exact Or.inr (Or.inr h)
    · by_cases hl : k < k'
      · simpa [Tab.ins, hk, hl] using h
      · simp only [Tab.ins, hk, hl, if_false, List.mem_cons] at h ⊢
        rcases h with h | h
        · exact Or.inr (Or.inl h)
        · rcases ih h with h | h
          · exact Or.inl h
          · exact Or.inr (Or.inr h)

theorem Tab.sorted_filter (t : Tab α) (p : Nat × α → Bool) (lo : Nat) (hs : Tab.sortedFrom lo t = true) :
    Tab.sortedFrom lo (t.filter p) = true := by
  induction t generalizing lo with
  | nil => rfl
  | cons e r ih =>
    obtain ⟨k, v⟩ := e
    simp only [Tab.sortedFrom, Bool.and_eq_true, decide_eq_true_eq] at hs
    by_cases hp : p (k, v) = true
    · simp only [List.filter, hp, Tab.sortedFrom, Bool.and_eq_true, decide_eq_true_eq]
      exact ⟨hs.1, ih (k + 1) hs.2⟩
    · simp only [List.filter, hp]
      exact ih lo (Tab.sorted_mono r (by omega) hs.2)

theorem Tab.clear_eq_filter (t : Tab α) (lo hi : Nat) :
    Tab.clear t lo hi = t.filter fun e => !(decide (lo ≤ e.1) && decide (e.1 < hi)) := by
  induction t with
  | nil => rfl
  | cons e r ih =>
    obtain ⟨k, v⟩ := e
    by_cases h : lo ≤ k ∧ k < hi
    · simp [Tab.clear, h, List.filter, ih]
    · simp only [Tab.clear, h, if_false, List.filter, ih]
      have : (!(decide (lo ≤ k) && decide (k < hi))) = true := by
        simp only [Bool.not_eq_true', Bool.and_eq_false_iff, decide_eq_false_iff_not]
        omega
      simp only [this]

theorem Tab.get_clear (t : Tab α) (lo hi k : Nat) (d : α) :
    Tab.get (Tab.clear t lo hi) k d = if lo ≤ k ∧ k < hi then d else Tab.get t k d := by
  induction t with
  | nil => simp [Tab.clear]
  | cons e r ih =>
    obtain ⟨k', v⟩ := e
    by_cases h : lo ≤ k' ∧ k' < hi
    · rw [Tab.clear, if_pos h, ih, Tab.get_cons]
      by_cases hj : k' = k
      · subst hj; rw [if_pos h, if_pos h]
      · rw [if_neg hj]
    · rw [Tab.clear, if_neg h, Tab.get_cons, ih, Tab.get_cons]
      by_cases hj : k' = k
      · subst hj; rw [if_pos rfl, if_pos rfl, if_neg h]
      · rw [if_neg hj, if_neg hj]

variable [DecidableEq α]

theorem Tab.wf_iff (f : Nat → α) (t : Tab α) : Tab.wf f t = true ↔ Tab.sortedFrom 0 t = true ∧ ∀ e ∈ t, e.2 ≠ f e.1 := by
  simp [Tab.wf]

@[simp] theorem Tab.wf_nil (f : Nat → α) : Tab.wf f ([] : Tab α) = true := rfl

/-- A write keeps the canonical form. -/
theorem Tab.wf_set (f : Nat → α) (t : Tab α) (k : Nat) (v : α) (h : Tab.wf f t = true) : Tab.wf f (Tab.set t k v (f k)) = true := by
  rw [Tab.wf_iff] at h ⊢
  unfold Tab.set
  by_cases hv : v = f k
  · simp only [hv, if_true]
    exact ⟨Tab.sorted_del t k 0 h.1, fun e he => h.2 e (Tab.mem_del t k e he)⟩
  · simp only [hv, if_false]
    refine ⟨Tab.sorted_ins t k 0 v (Nat.zero_le k) h.1, fun e he => ?_⟩
    rcases Tab.mem_ins t k v e he with rfl | he
    · exact hv
    · exact h.2 e he

/-- Dropping entries keeps the canonical form. -/
theorem Tab.wf_filter (f : Nat → α) (t : Tab α) (p : Nat × α → Bool) (h : Tab.wf f t = true) : Tab.wf f (t.filter p) = true := by
  rw [Tab.wf_iff] at h ⊢
  exact ⟨Tab.sorted_filter t p 0 h.1, fun e he => h.2 e ((List.mem_filter.mp he).1)⟩

/-- Clearing a range keeps the canonical form. -/
theorem Tab.wf_clear (f : Nat → α) (t : Tab α) (lo hi : Nat) (h : Tab.wf f t = true) : Tab.wf f (Tab.clear t lo hi) = true := by
  rw [Tab.clear_eq_filter]
  exact Tab.wf_filter f t _ h

end Sys2Proof.Machine
end

