-- ==== Sys2Proof/Laws/State.lean ====
section
/-! SUPPORT. What each update of State leaves of each field: one lemma per field and update, and what the readers of tables give after it. -/

namespace Sys2Proof.Machine

/-! ### tick -/

@[simp] theorem State.tick_pending (s : State) (t : Time) : (s.tick t).pending = s.pending := (rfl)
@[simp] theorem State.tick_now (s : State) (t : Time) : (s.tick t).now = if s.now ≤ t then t else s.now := (rfl)
@[simp] theorem State.tick_freeCtr (s : State) (t : Time) : (s.tick t).freeCtr = s.freeCtr := (rfl)
@[simp] theorem State.tick_regs (s : State) (t : Time) : (s.tick t).regs = s.regs := (rfl)
@[simp] theorem State.tick_stage (s : State) (t : Time) : (s.tick t).stage = s.stage := (rfl)
@[simp] theorem State.tick_hwSet (s : State) (t : Time) : (s.tick t).hwSet = s.hwSet := (rfl)
@[simp] theorem State.tick_pages (s : State) (t : Time) : (s.tick t).pages = s.pages := (rfl)
@[simp] theorem State.tick_shadows (s : State) (t : Time) : (s.tick t).shadows = s.shadows := (rfl)
@[simp] theorem State.tick_mem (s : State) (t : Time) : (s.tick t).mem = s.mem := (rfl)
@[simp] theorem State.tick_ecc (s : State) (t : Time) : (s.tick t).ecc = s.ecc := (rfl)
@[simp] theorem State.tick_fd (s : State) (t : Time) : (s.tick t).fd = s.fd := (rfl)
@[simp] theorem State.tick_out (s : State) (t : Time) : (s.tick t).out = s.out := (rfl)
@[simp] theorem State.tick_rst (s : State) (t : Time) : (s.tick t).rst = s.rst := (rfl)
@[simp] theorem State.tick_pcie (s : State) (t : Time) : (s.tick t).pcie = s.pcie := (rfl)
@[simp] theorem State.tick_pair (s : State) (t : Time) : (s.tick t).pair = s.pair := (rfl)
@[simp] theorem State.tick_sin (s : State) (t : Time) : (s.tick t).sin = s.sin := (rfl)
@[simp] theorem State.tick_br (s : State) (t : Time) : (s.tick t).br = s.br := (rfl)
@[simp] theorem State.tick_inv (s : State) (t : Time) : (s.tick t).inv = s.inv := (rfl)
@[simp] theorem State.tick_lahar (s : State) (t : Time) : (s.tick t).lahar = s.lahar := (rfl)
@[simp] theorem State.tick_engs (s : State) (t : Time) : (s.tick t).engs = s.engs := (rfl)
@[simp] theorem State.tick_xl (s : State) (t : Time) : (s.tick t).xl = s.xl := (rfl)
@[simp] theorem State.tick_perf (s : State) (t : Time) : (s.tick t).perf = s.perf := (rfl)
@[simp] theorem State.tick_lp (s : State) (t : Time) : (s.tick t).lp = s.lp := (rfl)
@[simp] theorem State.tick_ax (s : State) (t : Time) : (s.tick t).ax = s.ax := (rfl)
@[simp] theorem State.tick_gey (s : State) (t : Time) : (s.tick t).gey = s.gey := (rfl)
@[simp] theorem State.tick_dma (s : State) (t : Time) : (s.tick t).dma = s.dma := (rfl)
@[simp] theorem State.tick_can (s : State) (t : Time) : (s.tick t).can = s.can := (rfl)
@[simp] theorem State.tick_eth (s : State) (t : Time) : (s.tick t).eth = s.eth := (rfl)
@[simp] theorem State.tick_lv (s : State) (t : Time) : (s.tick t).lv = s.lv := (rfl)
@[simp] theorem State.tick_mdio (s : State) (t : Time) : (s.tick t).mdio = s.mdio := (rfl)
@[simp] theorem State.tick_twi (s : State) (t : Time) : (s.tick t).twi = s.twi := (rfl)
@[simp] theorem State.tick_masters (s : State) (t : Time) : (s.tick t).masters = s.masters := (rfl)
@[simp] theorem State.tick_tau (s : State) (t : Time) : (s.tick t).tau = s.tau := (rfl)
@[simp] theorem State.tick_tauDev (s : State) (t : Time) : (s.tick t).tauDev = s.tauDev := (rfl)
@[simp] theorem State.tick_target (s : State) (t : Time) : (s.tick t).target = s.target := (rfl)
@[simp] theorem State.tick_cycling (s : State) (t : Time) : (s.tick t).cycling = s.cycling := (rfl)
@[simp] theorem State.tick_firstCycle (s : State) (t : Time) : (s.tick t).firstCycle = s.firstCycle := (rfl)
@[simp] theorem State.tick_rd (s : State) (t : Time) : (s.tick t).rd = s.rd := (rfl)
@[simp] theorem State.tick_byte (s : State) (t : Time) : (s.tick t).byte = s.byte := (rfl)
@[simp] theorem State.tick_page (s : State) (t : Time) : (s.tick t).page = s.page := (rfl)
@[simp] theorem State.tick_rdStage (s : State) (t : Time) : (s.tick t).rdStage = s.rdStage := (rfl)
@[simp] theorem State.tick_eccAt (s : State) (t : Time) : (s.tick t).eccAt = s.eccAt := (rfl)
@[simp] theorem State.tick_branch (s : State) (t : Time) : (s.tick t).branch = s.branch := (rfl)
@[simp] theorem State.tick_eng (s : State) (t : Time) : (s.tick t).eng = s.eng := (rfl)
@[simp] theorem State.tick_fdCh (s : State) (t : Time) : (s.tick t).fdCh = s.fdCh := (rfl)
@[simp] theorem State.tick_axSt (s : State) (t : Time) : (s.tick t).axSt = s.axSt := (rfl)
@[simp] theorem State.tick_canSt (s : State) (t : Time) : (s.tick t).canSt = s.canSt := (rfl)
@[simp] theorem State.tick_ethSt (s : State) (t : Time) : (s.tick t).ethSt = s.ethSt := (rfl)
@[simp] theorem State.tick_dmaCh (s : State) (t : Time) : (s.tick t).dmaCh = s.dmaCh := (rfl)

/-! ### emit -/

@[simp] theorem State.emit_pending (s : State) (e : Emit) : (s.emit e).pending = s.pending := (rfl)
@[simp] theorem State.emit_now (s : State) (e : Emit) : (s.emit e).now = s.now := (rfl)
@[simp] theorem State.emit_freeCtr (s : State) (e : Emit) : (s.emit e).freeCtr = s.freeCtr := (rfl)
@[simp] theorem State.emit_regs (s : State) (e : Emit) : (s.emit e).regs = s.regs := (rfl)
@[simp] theorem State.emit_stage (s : State) (e : Emit) : (s.emit e).stage = s.stage := (rfl)
@[simp] theorem State.emit_hwSet (s : State) (e : Emit) : (s.emit e).hwSet = s.hwSet := (rfl)
@[simp] theorem State.emit_pages (s : State) (e : Emit) : (s.emit e).pages = s.pages := (rfl)
@[simp] theorem State.emit_shadows (s : State) (e : Emit) : (s.emit e).shadows = s.shadows := (rfl)
@[simp] theorem State.emit_mem (s : State) (e : Emit) : (s.emit e).mem = s.mem := (rfl)
@[simp] theorem State.emit_ecc (s : State) (e : Emit) : (s.emit e).ecc = s.ecc := (rfl)
@[simp] theorem State.emit_fd (s : State) (e : Emit) : (s.emit e).fd = s.fd := (rfl)
@[simp] theorem State.emit_out (s : State) (e : Emit) : (s.emit e).out = e :: s.out := (rfl)
@[simp] theorem State.emit_rst (s : State) (e : Emit) : (s.emit e).rst = s.rst := (rfl)
@[simp] theorem State.emit_pcie (s : State) (e : Emit) : (s.emit e).pcie = s.pcie := (rfl)
@[simp] theorem State.emit_pair (s : State) (e : Emit) : (s.emit e).pair = s.pair := (rfl)
@[simp] theorem State.emit_sin (s : State) (e : Emit) : (s.emit e).sin = s.sin := (rfl)
@[simp] theorem State.emit_br (s : State) (e : Emit) : (s.emit e).br = s.br := (rfl)
@[simp] theorem State.emit_inv (s : State) (e : Emit) : (s.emit e).inv = s.inv := (rfl)
@[simp] theorem State.emit_lahar (s : State) (e : Emit) : (s.emit e).lahar = s.lahar := (rfl)
@[simp] theorem State.emit_engs (s : State) (e : Emit) : (s.emit e).engs = s.engs := (rfl)
@[simp] theorem State.emit_xl (s : State) (e : Emit) : (s.emit e).xl = s.xl := (rfl)
@[simp] theorem State.emit_perf (s : State) (e : Emit) : (s.emit e).perf = s.perf := (rfl)
@[simp] theorem State.emit_lp (s : State) (e : Emit) : (s.emit e).lp = s.lp := (rfl)
@[simp] theorem State.emit_ax (s : State) (e : Emit) : (s.emit e).ax = s.ax := (rfl)
@[simp] theorem State.emit_gey (s : State) (e : Emit) : (s.emit e).gey = s.gey := (rfl)
@[simp] theorem State.emit_dma (s : State) (e : Emit) : (s.emit e).dma = s.dma := (rfl)
@[simp] theorem State.emit_can (s : State) (e : Emit) : (s.emit e).can = s.can := (rfl)
@[simp] theorem State.emit_eth (s : State) (e : Emit) : (s.emit e).eth = s.eth := (rfl)
@[simp] theorem State.emit_lv (s : State) (e : Emit) : (s.emit e).lv = s.lv := (rfl)
@[simp] theorem State.emit_mdio (s : State) (e : Emit) : (s.emit e).mdio = s.mdio := (rfl)
@[simp] theorem State.emit_twi (s : State) (e : Emit) : (s.emit e).twi = s.twi := (rfl)
@[simp] theorem State.emit_masters (s : State) (e : Emit) : (s.emit e).masters = s.masters := (rfl)
@[simp] theorem State.emit_tau (s : State) (e : Emit) : (s.emit e).tau = s.tau := (rfl)
@[simp] theorem State.emit_tauDev (s : State) (e : Emit) : (s.emit e).tauDev = s.tauDev := (rfl)
@[simp] theorem State.emit_target (s : State) (e : Emit) : (s.emit e).target = s.target := (rfl)
@[simp] theorem State.emit_cycling (s : State) (e : Emit) : (s.emit e).cycling = s.cycling := (rfl)
@[simp] theorem State.emit_firstCycle (s : State) (e : Emit) : (s.emit e).firstCycle = s.firstCycle := (rfl)
@[simp] theorem State.emit_rd (s : State) (e : Emit) : (s.emit e).rd = s.rd := (rfl)
@[simp] theorem State.emit_byte (s : State) (e : Emit) : (s.emit e).byte = s.byte := (rfl)
@[simp] theorem State.emit_page (s : State) (e : Emit) : (s.emit e).page = s.page := (rfl)
@[simp] theorem State.emit_rdStage (s : State) (e : Emit) : (s.emit e).rdStage = s.rdStage := (rfl)
@[simp] theorem State.emit_eccAt (s : State) (e : Emit) : (s.emit e).eccAt = s.eccAt := (rfl)
@[simp] theorem State.emit_branch (s : State) (e : Emit) : (s.emit e).branch = s.branch := (rfl)
@[simp] theorem State.emit_eng (s : State) (e : Emit) : (s.emit e).eng = s.eng := (rfl)
@[simp] theorem State.emit_fdCh (s : State) (e : Emit) : (s.emit e).fdCh = s.fdCh := (rfl)
@[simp] theorem State.emit_axSt (s : State) (e : Emit) : (s.emit e).axSt = s.axSt := (rfl)
@[simp] theorem State.emit_canSt (s : State) (e : Emit) : (s.emit e).canSt = s.canSt := (rfl)
@[simp] theorem State.emit_ethSt (s : State) (e : Emit) : (s.emit e).ethSt = s.ethSt := (rfl)
@[simp] theorem State.emit_dmaCh (s : State) (e : Emit) : (s.emit e).dmaCh = s.dmaCh := (rfl)

/-! ### useFree -/

@[simp] theorem State.useFree_pending (s : State) : (s.useFree).pending = s.pending := (rfl)
@[simp] theorem State.useFree_now (s : State) : (s.useFree).now = s.now := (rfl)
@[simp] theorem State.useFree_freeCtr (s : State) : (s.useFree).freeCtr = s.freeCtr + 1 := (rfl)
@[simp] theorem State.useFree_regs (s : State) : (s.useFree).regs = s.regs := (rfl)
@[simp] theorem State.useFree_stage (s : State) : (s.useFree).stage = s.stage := (rfl)
@[simp] theorem State.useFree_hwSet (s : State) : (s.useFree).hwSet = s.hwSet := (rfl)
@[simp] theorem State.useFree_pages (s : State) : (s.useFree).pages = s.pages := (rfl)
@[simp] theorem State.useFree_shadows (s : State) : (s.useFree).shadows = s.shadows := (rfl)
@[simp] theorem State.useFree_mem (s : State) : (s.useFree).mem = s.mem := (rfl)
@[simp] theorem State.useFree_ecc (s : State) : (s.useFree).ecc = s.ecc := (rfl)
@[simp] theorem State.useFree_fd (s : State) : (s.useFree).fd = s.fd := (rfl)
@[simp] theorem State.useFree_out (s : State) : (s.useFree).out = s.out := (rfl)
@[simp] theorem State.useFree_rst (s : State) : (s.useFree).rst = s.rst := (rfl)
@[simp] theorem State.useFree_pcie (s : State) : (s.useFree).pcie = s.pcie := (rfl)
@[simp] theorem State.useFree_pair (s : State) : (s.useFree).pair = s.pair := (rfl)
@[simp] theorem State.useFree_sin (s : State) : (s.useFree).sin = s.sin := (rfl)
@[simp] theorem State.useFree_br (s : State) : (s.useFree).br = s.br := (rfl)
@[simp] theorem State.useFree_inv (s : State) : (s.useFree).inv = s.inv := (rfl)
@[simp] theorem State.useFree_lahar (s : State) : (s.useFree).lahar = s.lahar := (rfl)
@[simp] theorem State.useFree_engs (s : State) : (s.useFree).engs = s.engs := (rfl)
@[simp] theorem State.useFree_xl (s : State) : (s.useFree).xl = s.xl := (rfl)
@[simp] theorem State.useFree_perf (s : State) : (s.useFree).perf = s.perf := (rfl)
@[simp] theorem State.useFree_lp (s : State) : (s.useFree).lp = s.lp := (rfl)
@[simp] theorem State.useFree_ax (s : State) : (s.useFree).ax = s.ax := (rfl)
@[simp] theorem State.useFree_gey (s : State) : (s.useFree).gey = s.gey := (rfl)
@[simp] theorem State.useFree_dma (s : State) : (s.useFree).dma = s.dma := (rfl)
@[simp] theorem State.useFree_can (s : State) : (s.useFree).can = s.can := (rfl)
@[simp] theorem State.useFree_eth (s : State) : (s.useFree).eth = s.eth := (rfl)
@[simp] theorem State.useFree_lv (s : State) : (s.useFree).lv = s.lv := (rfl)
@[simp] theorem State.useFree_mdio (s : State) : (s.useFree).mdio = s.mdio := (rfl)
@[simp] theorem State.useFree_twi (s : State) : (s.useFree).twi = s.twi := (rfl)
@[simp] theorem State.useFree_masters (s : State) : (s.useFree).masters = s.masters := (rfl)
@[simp] theorem State.useFree_tau (s : State) : (s.useFree).tau = s.tau := (rfl)
@[simp] theorem State.useFree_tauDev (s : State) : (s.useFree).tauDev = s.tauDev := (rfl)
@[simp] theorem State.useFree_target (s : State) : (s.useFree).target = s.target := (rfl)
@[simp] theorem State.useFree_cycling (s : State) : (s.useFree).cycling = s.cycling := (rfl)
@[simp] theorem State.useFree_firstCycle (s : State) : (s.useFree).firstCycle = s.firstCycle := (rfl)
@[simp] theorem State.useFree_rd (s : State) : (s.useFree).rd = s.rd := (rfl)
@[simp] theorem State.useFree_byte (s : State) : (s.useFree).byte = s.byte := (rfl)
@[simp] theorem State.useFree_page (s : State) : (s.useFree).page = s.page := (rfl)
@[simp] theorem State.useFree_rdStage (s : State) : (s.useFree).rdStage = s.rdStage := (rfl)
@[simp] theorem State.useFree_eccAt (s : State) : (s.useFree).eccAt = s.eccAt := (rfl)
@[simp] theorem State.useFree_branch (s : State) : (s.useFree).branch = s.branch := (rfl)
@[simp] theorem State.useFree_eng (s : State) : (s.useFree).eng = s.eng := (rfl)
@[simp] theorem State.useFree_fdCh (s : State) : (s.useFree).fdCh = s.fdCh := (rfl)
@[simp] theorem State.useFree_axSt (s : State) : (s.useFree).axSt = s.axSt := (rfl)
@[simp] theorem State.useFree_canSt (s : State) : (s.useFree).canSt = s.canSt := (rfl)
@[simp] theorem State.useFree_ethSt (s : State) : (s.useFree).ethSt = s.ethSt := (rfl)
@[simp] theorem State.useFree_dmaCh (s : State) : (s.useFree).dmaCh = s.dmaCh := (rfl)

/-! ### wr -/

@[simp] theorem State.wr_pending (s : State) (a : Nat) (v : W32) : (s.wr a v).pending = s.pending := (rfl)
@[simp] theorem State.wr_now (s : State) (a : Nat) (v : W32) : (s.wr a v).now = s.now := (rfl)
@[simp] theorem State.wr_freeCtr (s : State) (a : Nat) (v : W32) : (s.wr a v).freeCtr = s.freeCtr := (rfl)
@[simp] theorem State.wr_regs (s : State) (a : Nat) (v : W32) : (s.wr a v).regs = Tab.set s.regs a v (resetOf a) := (rfl)
@[simp] theorem State.wr_stage (s : State) (a : Nat) (v : W32) : (s.wr a v).stage = s.stage := (rfl)
@[simp] theorem State.wr_hwSet (s : State) (a : Nat) (v : W32) : (s.wr a v).hwSet = s.hwSet := (rfl)
@[simp] theorem State.wr_pages (s : State) (a : Nat) (v : W32) : (s.wr a v).pages = s.pages := (rfl)
@[simp] theorem State.wr_shadows (s : State) (a : Nat) (v : W32) : (s.wr a v).shadows = s.shadows := (rfl)
@[simp] theorem State.wr_mem (s : State) (a : Nat) (v : W32) : (s.wr a v).mem = s.mem := (rfl)
@[simp] theorem State.wr_ecc (s : State) (a : Nat) (v : W32) : (s.wr a v).ecc = s.ecc := (rfl)
@[simp] theorem State.wr_fd (s : State) (a : Nat) (v : W32) : (s.wr a v).fd = s.fd := (rfl)
@[simp] theorem State.wr_out (s : State) (a : Nat) (v : W32) : (s.wr a v).out = s.out := (rfl)
@[simp] theorem State.wr_rst (s : State) (a : Nat) (v : W32) : (s.wr a v).rst = s.rst := (rfl)
@[simp] theorem State.wr_pcie (s : State) (a : Nat) (v : W32) : (s.wr a v).pcie = s.pcie := (rfl)
@[simp] theorem State.wr_pair (s : State) (a : Nat) (v : W32) : (s.wr a v).pair = s.pair := (rfl)
@[simp] theorem State.wr_sin (s : State) (a : Nat) (v : W32) : (s.wr a v).sin = s.sin := (rfl)
@[simp] theorem State.wr_br (s : State) (a : Nat) (v : W32) : (s.wr a v).br = s.br := (rfl)
@[simp] theorem State.wr_inv (s : State) (a : Nat) (v : W32) : (s.wr a v).inv = s.inv := (rfl)
@[simp] theorem State.wr_lahar (s : State) (a : Nat) (v : W32) : (s.wr a v).lahar = s.lahar := (rfl)
@[simp] theorem State.wr_engs (s : State) (a : Nat) (v : W32) : (s.wr a v).engs = s.engs := (rfl)
@[simp] theorem State.wr_xl (s : State) (a : Nat) (v : W32) : (s.wr a v).xl = s.xl := (rfl)
@[simp] theorem State.wr_perf (s : State) (a : Nat) (v : W32) : (s.wr a v).perf = s.perf := (rfl)
@[simp] theorem State.wr_lp (s : State) (a : Nat) (v : W32) : (s.wr a v).lp = s.lp := (rfl)
@[simp] theorem State.wr_ax (s : State) (a : Nat) (v : W32) : (s.wr a v).ax = s.ax := (rfl)
@[simp] theorem State.wr_gey (s : State) (a : Nat) (v : W32) : (s.wr a v).gey = s.gey := (rfl)
@[simp] theorem State.wr_dma (s : State) (a : Nat) (v : W32) : (s.wr a v).dma = s.dma := (rfl)
@[simp] theorem State.wr_can (s : State) (a : Nat) (v : W32) : (s.wr a v).can = s.can := (rfl)
@[simp] theorem State.wr_eth (s : State) (a : Nat) (v : W32) : (s.wr a v).eth = s.eth := (rfl)
@[simp] theorem State.wr_lv (s : State) (a : Nat) (v : W32) : (s.wr a v).lv = s.lv := (rfl)
@[simp] theorem State.wr_mdio (s : State) (a : Nat) (v : W32) : (s.wr a v).mdio = s.mdio := (rfl)
@[simp] theorem State.wr_twi (s : State) (a : Nat) (v : W32) : (s.wr a v).twi = s.twi := (rfl)
@[simp] theorem State.wr_masters (s : State) (a : Nat) (v : W32) : (s.wr a v).masters = s.masters := (rfl)
@[simp] theorem State.wr_tau (s : State) (a : Nat) (v : W32) : (s.wr a v).tau = s.tau := (rfl)
@[simp] theorem State.wr_tauDev (s : State) (a : Nat) (v : W32) : (s.wr a v).tauDev = s.tauDev := (rfl)
@[simp] theorem State.wr_target (s : State) (a : Nat) (v : W32) : (s.wr a v).target = s.target := (rfl)
@[simp] theorem State.wr_cycling (s : State) (a : Nat) (v : W32) : (s.wr a v).cycling = s.cycling := (rfl)
@[simp] theorem State.wr_firstCycle (s : State) (a : Nat) (v : W32) : (s.wr a v).firstCycle = s.firstCycle := (rfl)
@[simp] theorem State.wr_byte (s : State) (a : Nat) (v : W32) : (s.wr a v).byte = s.byte := (rfl)
@[simp] theorem State.wr_page (s : State) (a : Nat) (v : W32) : (s.wr a v).page = s.page := (rfl)
@[simp] theorem State.wr_rdStage (s : State) (a : Nat) (v : W32) : (s.wr a v).rdStage = s.rdStage := (rfl)
@[simp] theorem State.wr_eccAt (s : State) (a : Nat) (v : W32) : (s.wr a v).eccAt = s.eccAt := (rfl)
@[simp] theorem State.wr_branch (s : State) (a : Nat) (v : W32) : (s.wr a v).branch = s.branch := (rfl)
@[simp] theorem State.wr_eng (s : State) (a : Nat) (v : W32) : (s.wr a v).eng = s.eng := (rfl)
@[simp] theorem State.wr_fdCh (s : State) (a : Nat) (v : W32) : (s.wr a v).fdCh = s.fdCh := (rfl)
@[simp] theorem State.wr_axSt (s : State) (a : Nat) (v : W32) : (s.wr a v).axSt = s.axSt := (rfl)
@[simp] theorem State.wr_canSt (s : State) (a : Nat) (v : W32) : (s.wr a v).canSt = s.canSt := (rfl)
@[simp] theorem State.wr_ethSt (s : State) (a : Nat) (v : W32) : (s.wr a v).ethSt = s.ethSt := (rfl)
@[simp] theorem State.wr_dmaCh (s : State) (a : Nat) (v : W32) : (s.wr a v).dmaCh = s.dmaCh := (rfl)

/-! ### wrStage -/

@[simp] theorem State.wrStage_pending (s : State) (a : Nat) (v : W32) : (s.wrStage a v).pending = s.pending := (rfl)
@[simp] theorem State.wrStage_now (s : State) (a : Nat) (v : W32) : (s.wrStage a v).now = s.now := (rfl)
@[simp] theorem State.wrStage_freeCtr (s : State) (a : Nat) (v : W32) : (s.wrStage a v).freeCtr = s.freeCtr := (rfl)
@[simp] theorem State.wrStage_regs (s : State) (a : Nat) (v : W32) : (s.wrStage a v).regs = s.regs := (rfl)
@[simp] theorem State.wrStage_stage (s : State) (a : Nat) (v : W32) : (s.wrStage a v).stage = Tab.set s.stage a v (resetOf a) := (rfl)
@[simp] theorem State.wrStage_hwSet (s : State) (a : Nat) (v : W32) : (s.wrStage a v).hwSet = s.hwSet := (rfl)
@[simp] theorem State.wrStage_pages (s : State) (a : Nat) (v : W32) : (s.wrStage a v).pages = s.pages := (rfl)
@[simp] theorem State.wrStage_shadows (s : State) (a : Nat) (v : W32) : (s.wrStage a v).shadows = s.shadows := (rfl)
@[simp] theorem State.wrStage_mem (s : State) (a : Nat) (v : W32) : (s.wrStage a v).mem = s.mem := (rfl)
@[simp] theorem State.wrStage_ecc (s : State) (a : Nat) (v : W32) : (s.wrStage a v).ecc = s.ecc := (rfl)
@[simp] theorem State.wrStage_fd (s : State) (a : Nat) (v : W32) : (s.wrStage a v).fd = s.fd := (rfl)
@[simp] theorem State.wrStage_out (s : State) (a : Nat) (v : W32) : (s.wrStage a v).out = s.out := (rfl)
@[simp] theorem State.wrStage_rst (s : State) (a : Nat) (v : W32) : (s.wrStage a v).rst = s.rst := (rfl)
@[simp] theorem State.wrStage_pcie (s : State) (a : Nat) (v : W32) : (s.wrStage a v).pcie = s.pcie := (rfl)
@[simp] theorem State.wrStage_pair (s : State) (a : Nat) (v : W32) : (s.wrStage a v).pair = s.pair := (rfl)
@[simp] theorem State.wrStage_sin (s : State) (a : Nat) (v : W32) : (s.wrStage a v).sin = s.sin := (rfl)
@[simp] theorem State.wrStage_br (s : State) (a : Nat) (v : W32) : (s.wrStage a v).br = s.br := (rfl)
@[simp] theorem State.wrStage_inv (s : State) (a : Nat) (v : W32) : (s.wrStage a v).inv = s.inv := (rfl)
@[simp] theorem State.wrStage_lahar (s : State) (a : Nat) (v : W32) : (s.wrStage a v).lahar = s.lahar := (rfl)
@[simp] theorem State.wrStage_engs (s : State) (a : Nat) (v : W32) : (s.wrStage a v).engs = s.engs := (rfl)
@[simp] theorem State.wrStage_xl (s : State) (a : Nat) (v : W32) : (s.wrStage a v).xl = s.xl := (rfl)
@[simp] theorem State.wrStage_perf (s : State) (a : Nat) (v : W32) : (s.wrStage a v).perf = s.perf := (rfl)
@[simp] theorem State.wrStage_lp (s : State) (a : Nat) (v : W32) : (s.wrStage a v).lp = s.lp := (rfl)
@[simp] theorem State.wrStage_ax (s : State) (a : Nat) (v : W32) : (s.wrStage a v).ax = s.ax := (rfl)
@[simp] theorem State.wrStage_gey (s : State) (a : Nat) (v : W32) : (s.wrStage a v).gey = s.gey := (rfl)
@[simp] theorem State.wrStage_dma (s : State) (a : Nat) (v : W32) : (s.wrStage a v).dma = s.dma := (rfl)
@[simp] theorem State.wrStage_can (s : State) (a : Nat) (v : W32) : (s.wrStage a v).can = s.can := (rfl)
@[simp] theorem State.wrStage_eth (s : State) (a : Nat) (v : W32) : (s.wrStage a v).eth = s.eth := (rfl)
@[simp] theorem State.wrStage_lv (s : State) (a : Nat) (v : W32) : (s.wrStage a v).lv = s.lv := (rfl)
@[simp] theorem State.wrStage_mdio (s : State) (a : Nat) (v : W32) : (s.wrStage a v).mdio = s.mdio := (rfl)
@[simp] theorem State.wrStage_twi (s : State) (a : Nat) (v : W32) : (s.wrStage a v).twi = s.twi := (rfl)
@[simp] theorem State.wrStage_masters (s : State) (a : Nat) (v : W32) : (s.wrStage a v).masters = s.masters := (rfl)
@[simp] theorem State.wrStage_tau (s : State) (a : Nat) (v : W32) : (s.wrStage a v).tau = s.tau := (rfl)
@[simp] theorem State.wrStage_tauDev (s : State) (a : Nat) (v : W32) : (s.wrStage a v).tauDev = s.tauDev := (rfl)
@[simp] theorem State.wrStage_target (s : State) (a : Nat) (v : W32) : (s.wrStage a v).target = s.target := (rfl)
@[simp] theorem State.wrStage_cycling (s : State) (a : Nat) (v : W32) : (s.wrStage a v).cycling = s.cycling := (rfl)
@[simp] theorem State.wrStage_firstCycle (s : State) (a : Nat) (v : W32) : (s.wrStage a v).firstCycle = s.firstCycle := (rfl)
@[simp] theorem State.wrStage_rd (s : State) (a : Nat) (v : W32) : (s.wrStage a v).rd = s.rd := (rfl)
@[simp] theorem State.wrStage_byte (s : State) (a : Nat) (v : W32) : (s.wrStage a v).byte = s.byte := (rfl)
@[simp] theorem State.wrStage_page (s : State) (a : Nat) (v : W32) : (s.wrStage a v).page = s.page := (rfl)
@[simp] theorem State.wrStage_eccAt (s : State) (a : Nat) (v : W32) : (s.wrStage a v).eccAt = s.eccAt := (rfl)
@[simp] theorem State.wrStage_branch (s : State) (a : Nat) (v : W32) : (s.wrStage a v).branch = s.branch := (rfl)
@[simp] theorem State.wrStage_eng (s : State) (a : Nat) (v : W32) : (s.wrStage a v).eng = s.eng := (rfl)
@[simp] theorem State.wrStage_fdCh (s : State) (a : Nat) (v : W32) : (s.wrStage a v).fdCh = s.fdCh := (rfl)
@[simp] theorem State.wrStage_axSt (s : State) (a : Nat) (v : W32) : (s.wrStage a v).axSt = s.axSt := (rfl)
@[simp] theorem State.wrStage_canSt (s : State) (a : Nat) (v : W32) : (s.wrStage a v).canSt = s.canSt := (rfl)
@[simp] theorem State.wrStage_ethSt (s : State) (a : Nat) (v : W32) : (s.wrStage a v).ethSt = s.ethSt := (rfl)
@[simp] theorem State.wrStage_dmaCh (s : State) (a : Nat) (v : W32) : (s.wrStage a v).dmaCh = s.dmaCh := (rfl)

/-! ### hwSetBits -/

@[simp] theorem State.hwSetBits_pending (s : State) (a : Nat) (v : W32) : (s.hwSetBits a v).pending = s.pending := (rfl)
@[simp] theorem State.hwSetBits_now (s : State) (a : Nat) (v : W32) : (s.hwSetBits a v).now = s.now := (rfl)
@[simp] theorem State.hwSetBits_freeCtr (s : State) (a : Nat) (v : W32) : (s.hwSetBits a v).freeCtr = s.freeCtr := (rfl)
@[simp] theorem State.hwSetBits_regs (s : State) (a : Nat) (v : W32) : (s.hwSetBits a v).regs = Tab.set s.regs a (s.rd a ||| v) (resetOf a) := (rfl)
@[simp] theorem State.hwSetBits_stage (s : State) (a : Nat) (v : W32) : (s.hwSetBits a v).stage = s.stage := (rfl)
@[simp] theorem State.hwSetBits_pages (s : State) (a : Nat) (v : W32) : (s.hwSetBits a v).pages = s.pages := (rfl)
@[simp] theorem State.hwSetBits_shadows (s : State) (a : Nat) (v : W32) : (s.hwSetBits a v).shadows = s.shadows := (rfl)
@[simp] theorem State.hwSetBits_mem (s : State) (a : Nat) (v : W32) : (s.hwSetBits a v).mem = s.mem := (rfl)
@[simp] theorem State.hwSetBits_ecc (s : State) (a : Nat) (v : W32) : (s.hwSetBits a v).ecc = s.ecc := (rfl)
@[simp] theorem State.hwSetBits_fd (s : State) (a : Nat) (v : W32) : (s.hwSetBits a v).fd = s.fd := (rfl)
@[simp] theorem State.hwSetBits_out (s : State) (a : Nat) (v : W32) : (s.hwSetBits a v).out = s.out := (rfl)
@[simp] theorem State.hwSetBits_rst (s : State) (a : Nat) (v : W32) : (s.hwSetBits a v).rst = s.rst := (rfl)
@[simp] theorem State.hwSetBits_pcie (s : State) (a : Nat) (v : W32) : (s.hwSetBits a v).pcie = s.pcie := (rfl)
@[simp] theorem State.hwSetBits_pair (s : State) (a : Nat) (v : W32) : (s.hwSetBits a v).pair = s.pair := (rfl)
@[simp] theorem State.hwSetBits_sin (s : State) (a : Nat) (v : W32) : (s.hwSetBits a v).sin = s.sin := (rfl)
@[simp] theorem State.hwSetBits_br (s : State) (a : Nat) (v : W32) : (s.hwSetBits a v).br = s.br := (rfl)
@[simp] theorem State.hwSetBits_inv (s : State) (a : Nat) (v : W32) : (s.hwSetBits a v).inv = s.inv := (rfl)
@[simp] theorem State.hwSetBits_lahar (s : State) (a : Nat) (v : W32) : (s.hwSetBits a v).lahar = s.lahar := (rfl)
@[simp] theorem State.hwSetBits_engs (s : State) (a : Nat) (v : W32) : (s.hwSetBits a v).engs = s.engs := (rfl)
@[simp] theorem State.hwSetBits_xl (s : State) (a : Nat) (v : W32) : (s.hwSetBits a v).xl = s.xl := (rfl)
@[simp] theorem State.hwSetBits_perf (s : State) (a : Nat) (v : W32) : (s.hwSetBits a v).perf = s.perf := (rfl)
@[simp] theorem State.hwSetBits_lp (s : State) (a : Nat) (v : W32) : (s.hwSetBits a v).lp = s.lp := (rfl)
@[simp] theorem State.hwSetBits_ax (s : State) (a : Nat) (v : W32) : (s.hwSetBits a v).ax = s.ax := (rfl)
@[simp] theorem State.hwSetBits_gey (s : State) (a : Nat) (v : W32) : (s.hwSetBits a v).gey = s.gey := (rfl)
@[simp] theorem State.hwSetBits_dma (s : State) (a : Nat) (v : W32) : (s.hwSetBits a v).dma = s.dma := (rfl)
@[simp] theorem State.hwSetBits_can (s : State) (a : Nat) (v : W32) : (s.hwSetBits a v).can = s.can := (rfl)
@[simp] theorem State.hwSetBits_eth (s : State) (a : Nat) (v : W32) : (s.hwSetBits a v).eth = s.eth := (rfl)
@[simp] theorem State.hwSetBits_lv (s : State) (a : Nat) (v : W32) : (s.hwSetBits a v).lv = s.lv := (rfl)
@[simp] theorem State.hwSetBits_mdio (s : State) (a : Nat) (v : W32) : (s.hwSetBits a v).mdio = s.mdio := (rfl)
@[simp] theorem State.hwSetBits_twi (s : State) (a : Nat) (v : W32) : (s.hwSetBits a v).twi = s.twi := (rfl)
@[simp] theorem State.hwSetBits_masters (s : State) (a : Nat) (v : W32) : (s.hwSetBits a v).masters = s.masters := (rfl)
@[simp] theorem State.hwSetBits_tau (s : State) (a : Nat) (v : W32) : (s.hwSetBits a v).tau = s.tau := (rfl)
@[simp] theorem State.hwSetBits_tauDev (s : State) (a : Nat) (v : W32) : (s.hwSetBits a v).tauDev = s.tauDev := (rfl)
@[simp] theorem State.hwSetBits_target (s : State) (a : Nat) (v : W32) : (s.hwSetBits a v).target = s.target := (rfl)
@[simp] theorem State.hwSetBits_cycling (s : State) (a : Nat) (v : W32) : (s.hwSetBits a v).cycling = s.cycling := (rfl)
@[simp] theorem State.hwSetBits_firstCycle (s : State) (a : Nat) (v : W32) : (s.hwSetBits a v).firstCycle = s.firstCycle := (rfl)
@[simp] theorem State.hwSetBits_byte (s : State) (a : Nat) (v : W32) : (s.hwSetBits a v).byte = s.byte := (rfl)
@[simp] theorem State.hwSetBits_page (s : State) (a : Nat) (v : W32) : (s.hwSetBits a v).page = s.page := (rfl)
@[simp] theorem State.hwSetBits_rdStage (s : State) (a : Nat) (v : W32) : (s.hwSetBits a v).rdStage = s.rdStage := (rfl)
@[simp] theorem State.hwSetBits_eccAt (s : State) (a : Nat) (v : W32) : (s.hwSetBits a v).eccAt = s.eccAt := (rfl)
@[simp] theorem State.hwSetBits_branch (s : State) (a : Nat) (v : W32) : (s.hwSetBits a v).branch = s.branch := (rfl)
@[simp] theorem State.hwSetBits_eng (s : State) (a : Nat) (v : W32) : (s.hwSetBits a v).eng = s.eng := (rfl)
@[simp] theorem State.hwSetBits_fdCh (s : State) (a : Nat) (v : W32) : (s.hwSetBits a v).fdCh = s.fdCh := (rfl)
@[simp] theorem State.hwSetBits_axSt (s : State) (a : Nat) (v : W32) : (s.hwSetBits a v).axSt = s.axSt := (rfl)
@[simp] theorem State.hwSetBits_canSt (s : State) (a : Nat) (v : W32) : (s.hwSetBits a v).canSt = s.canSt := (rfl)
@[simp] theorem State.hwSetBits_ethSt (s : State) (a : Nat) (v : W32) : (s.hwSetBits a v).ethSt = s.ethSt := (rfl)
@[simp] theorem State.hwSetBits_dmaCh (s : State) (a : Nat) (v : W32) : (s.hwSetBits a v).dmaCh = s.dmaCh := (rfl)

/-! ### setPage -/

@[simp] theorem State.setPage_pending (s : State) (p : Nat) (x : PageSt) : (s.setPage p x).pending = s.pending := (rfl)
@[simp] theorem State.setPage_now (s : State) (p : Nat) (x : PageSt) : (s.setPage p x).now = s.now := (rfl)
@[simp] theorem State.setPage_freeCtr (s : State) (p : Nat) (x : PageSt) : (s.setPage p x).freeCtr = s.freeCtr := (rfl)
@[simp] theorem State.setPage_regs (s : State) (p : Nat) (x : PageSt) : (s.setPage p x).regs = s.regs := (rfl)
@[simp] theorem State.setPage_stage (s : State) (p : Nat) (x : PageSt) : (s.setPage p x).stage = s.stage := (rfl)
@[simp] theorem State.setPage_hwSet (s : State) (p : Nat) (x : PageSt) : (s.setPage p x).hwSet = s.hwSet := (rfl)
@[simp] theorem State.setPage_pages (s : State) (p : Nat) (x : PageSt) : (s.setPage p x).pages = Tab.set s.pages p x {} := (rfl)
@[simp] theorem State.setPage_shadows (s : State) (p : Nat) (x : PageSt) : (s.setPage p x).shadows = s.shadows := (rfl)
@[simp] theorem State.setPage_mem (s : State) (p : Nat) (x : PageSt) : (s.setPage p x).mem = s.mem := (rfl)
@[simp] theorem State.setPage_ecc (s : State) (p : Nat) (x : PageSt) : (s.setPage p x).ecc = s.ecc := (rfl)
@[simp] theorem State.setPage_fd (s : State) (p : Nat) (x : PageSt) : (s.setPage p x).fd = s.fd := (rfl)
@[simp] theorem State.setPage_out (s : State) (p : Nat) (x : PageSt) : (s.setPage p x).out = s.out := (rfl)
@[simp] theorem State.setPage_rst (s : State) (p : Nat) (x : PageSt) : (s.setPage p x).rst = s.rst := (rfl)
@[simp] theorem State.setPage_pcie (s : State) (p : Nat) (x : PageSt) : (s.setPage p x).pcie = s.pcie := (rfl)
@[simp] theorem State.setPage_pair (s : State) (p : Nat) (x : PageSt) : (s.setPage p x).pair = s.pair := (rfl)
@[simp] theorem State.setPage_sin (s : State) (p : Nat) (x : PageSt) : (s.setPage p x).sin = s.sin := (rfl)
@[simp] theorem State.setPage_br (s : State) (p : Nat) (x : PageSt) : (s.setPage p x).br = s.br := (rfl)
@[simp] theorem State.setPage_inv (s : State) (p : Nat) (x : PageSt) : (s.setPage p x).inv = s.inv := (rfl)
@[simp] theorem State.setPage_lahar (s : State) (p : Nat) (x : PageSt) : (s.setPage p x).lahar = s.lahar := (rfl)
@[simp] theorem State.setPage_engs (s : State) (p : Nat) (x : PageSt) : (s.setPage p x).engs = s.engs := (rfl)
@[simp] theorem State.setPage_xl (s : State) (p : Nat) (x : PageSt) : (s.setPage p x).xl = s.xl := (rfl)
@[simp] theorem State.setPage_perf (s : State) (p : Nat) (x : PageSt) : (s.setPage p x).perf = s.perf := (rfl)
@[simp] theorem State.setPage_lp (s : State) (p : Nat) (x : PageSt) : (s.setPage p x).lp = s.lp := (rfl)
@[simp] theorem State.setPage_ax (s : State) (p : Nat) (x : PageSt) : (s.setPage p x).ax = s.ax := (rfl)
@[simp] theorem State.setPage_gey (s : State) (p : Nat) (x : PageSt) : (s.setPage p x).gey = s.gey := (rfl)
@[simp] theorem State.setPage_dma (s : State) (p : Nat) (x : PageSt) : (s.setPage p x).dma = s.dma := (rfl)
@[simp] theorem State.setPage_can (s : State) (p : Nat) (x : PageSt) : (s.setPage p x).can = s.can := (rfl)
@[simp] theorem State.setPage_eth (s : State) (p : Nat) (x : PageSt) : (s.setPage p x).eth = s.eth := (rfl)
@[simp] theorem State.setPage_lv (s : State) (p : Nat) (x : PageSt) : (s.setPage p x).lv = s.lv := (rfl)
@[simp] theorem State.setPage_mdio (s : State) (p : Nat) (x : PageSt) : (s.setPage p x).mdio = s.mdio := (rfl)
@[simp] theorem State.setPage_twi (s : State) (p : Nat) (x : PageSt) : (s.setPage p x).twi = s.twi := (rfl)
@[simp] theorem State.setPage_masters (s : State) (p : Nat) (x : PageSt) : (s.setPage p x).masters = s.masters := (rfl)
@[simp] theorem State.setPage_tau (s : State) (p : Nat) (x : PageSt) : (s.setPage p x).tau = s.tau := (rfl)
@[simp] theorem State.setPage_tauDev (s : State) (p : Nat) (x : PageSt) : (s.setPage p x).tauDev = s.tauDev := (rfl)
@[simp] theorem State.setPage_target (s : State) (p : Nat) (x : PageSt) : (s.setPage p x).target = s.target := (rfl)
@[simp] theorem State.setPage_cycling (s : State) (p : Nat) (x : PageSt) : (s.setPage p x).cycling = s.cycling := (rfl)
@[simp] theorem State.setPage_firstCycle (s : State) (p : Nat) (x : PageSt) : (s.setPage p x).firstCycle = s.firstCycle := (rfl)
@[simp] theorem State.setPage_rd (s : State) (p : Nat) (x : PageSt) : (s.setPage p x).rd = s.rd := (rfl)
@[simp] theorem State.setPage_byte (s : State) (p : Nat) (x : PageSt) : (s.setPage p x).byte = s.byte := (rfl)
@[simp] theorem State.setPage_rdStage (s : State) (p : Nat) (x : PageSt) : (s.setPage p x).rdStage = s.rdStage := (rfl)
@[simp] theorem State.setPage_eccAt (s : State) (p : Nat) (x : PageSt) : (s.setPage p x).eccAt = s.eccAt := (rfl)
@[simp] theorem State.setPage_branch (s : State) (p : Nat) (x : PageSt) : (s.setPage p x).branch = s.branch := (rfl)
@[simp] theorem State.setPage_eng (s : State) (p : Nat) (x : PageSt) : (s.setPage p x).eng = s.eng := (rfl)
@[simp] theorem State.setPage_fdCh (s : State) (p : Nat) (x : PageSt) : (s.setPage p x).fdCh = s.fdCh := (rfl)
@[simp] theorem State.setPage_axSt (s : State) (p : Nat) (x : PageSt) : (s.setPage p x).axSt = s.axSt := (rfl)
@[simp] theorem State.setPage_canSt (s : State) (p : Nat) (x : PageSt) : (s.setPage p x).canSt = s.canSt := (rfl)
@[simp] theorem State.setPage_ethSt (s : State) (p : Nat) (x : PageSt) : (s.setPage p x).ethSt = s.ethSt := (rfl)
@[simp] theorem State.setPage_dmaCh (s : State) (p : Nat) (x : PageSt) : (s.setPage p x).dmaCh = s.dmaCh := (rfl)

/-! ### setByte -/

@[simp] theorem State.setByte_pending (s : State) (a : Nat) (v : Byte) : (s.setByte a v).pending = s.pending := (rfl)
@[simp] theorem State.setByte_now (s : State) (a : Nat) (v : Byte) : (s.setByte a v).now = s.now := (rfl)
@[simp] theorem State.setByte_freeCtr (s : State) (a : Nat) (v : Byte) : (s.setByte a v).freeCtr = s.freeCtr := (rfl)
@[simp] theorem State.setByte_regs (s : State) (a : Nat) (v : Byte) : (s.setByte a v).regs = s.regs := (rfl)
@[simp] theorem State.setByte_stage (s : State) (a : Nat) (v : Byte) : (s.setByte a v).stage = s.stage := (rfl)
@[simp] theorem State.setByte_hwSet (s : State) (a : Nat) (v : Byte) : (s.setByte a v).hwSet = s.hwSet := (rfl)
@[simp] theorem State.setByte_pages (s : State) (a : Nat) (v : Byte) : (s.setByte a v).pages = s.pages := (rfl)
@[simp] theorem State.setByte_shadows (s : State) (a : Nat) (v : Byte) : (s.setByte a v).shadows = s.shadows := (rfl)
@[simp] theorem State.setByte_mem (s : State) (a : Nat) (v : Byte) : (s.setByte a v).mem = Tab.set s.mem a v 0 := (rfl)
@[simp] theorem State.setByte_ecc (s : State) (a : Nat) (v : Byte) : (s.setByte a v).ecc = s.ecc := (rfl)
@[simp] theorem State.setByte_fd (s : State) (a : Nat) (v : Byte) : (s.setByte a v).fd = s.fd := (rfl)
@[simp] theorem State.setByte_out (s : State) (a : Nat) (v : Byte) : (s.setByte a v).out = s.out := (rfl)
@[simp] theorem State.setByte_rst (s : State) (a : Nat) (v : Byte) : (s.setByte a v).rst = s.rst := (rfl)
@[simp] theorem State.setByte_pcie (s : State) (a : Nat) (v : Byte) : (s.setByte a v).pcie = s.pcie := (rfl)
@[simp] theorem State.setByte_pair (s : State) (a : Nat) (v : Byte) : (s.setByte a v).pair = s.pair := (rfl)
@[simp] theorem State.setByte_sin (s : State) (a : Nat) (v : Byte) : (s.setByte a v).sin = s.sin := (rfl)
@[simp] theorem State.setByte_br (s : State) (a : Nat) (v : Byte) : (s.setByte a v).br = s.br := (rfl)
@[simp] theorem State.setByte_inv (s : State) (a : Nat) (v : Byte) : (s.setByte a v).inv = s.inv := (rfl)
@[simp] theorem State.setByte_lahar (s : State) (a : Nat) (v : Byte) : (s.setByte a v).lahar = s.lahar := (rfl)
@[simp] theorem State.setByte_engs (s : State) (a : Nat) (v : Byte) : (s.setByte a v).engs = s.engs := (rfl)
@[simp] theorem State.setByte_xl (s : State) (a : Nat) (v : Byte) : (s.setByte a v).xl = s.xl := (rfl)
@[simp] theorem State.setByte_perf (s : State) (a : Nat) (v : Byte) : (s.setByte a v).perf = s.perf := (rfl)
@[simp] theorem State.setByte_lp (s : State) (a : Nat) (v : Byte) : (s.setByte a v).lp = s.lp := (rfl)
@[simp] theorem State.setByte_ax (s : State) (a : Nat) (v : Byte) : (s.setByte a v).ax = s.ax := (rfl)
@[simp] theorem State.setByte_gey (s : State) (a : Nat) (v : Byte) : (s.setByte a v).gey = s.gey := (rfl)
@[simp] theorem State.setByte_dma (s : State) (a : Nat) (v : Byte) : (s.setByte a v).dma = s.dma := (rfl)
@[simp] theorem State.setByte_can (s : State) (a : Nat) (v : Byte) : (s.setByte a v).can = s.can := (rfl)
@[simp] theorem State.setByte_eth (s : State) (a : Nat) (v : Byte) : (s.setByte a v).eth = s.eth := (rfl)
@[simp] theorem State.setByte_lv (s : State) (a : Nat) (v : Byte) : (s.setByte a v).lv = s.lv := (rfl)
@[simp] theorem State.setByte_mdio (s : State) (a : Nat) (v : Byte) : (s.setByte a v).mdio = s.mdio := (rfl)
@[simp] theorem State.setByte_twi (s : State) (a : Nat) (v : Byte) : (s.setByte a v).twi = s.twi := (rfl)
@[simp] theorem State.setByte_masters (s : State) (a : Nat) (v : Byte) : (s.setByte a v).masters = s.masters := (rfl)
@[simp] theorem State.setByte_tau (s : State) (a : Nat) (v : Byte) : (s.setByte a v).tau = s.tau := (rfl)
@[simp] theorem State.setByte_tauDev (s : State) (a : Nat) (v : Byte) : (s.setByte a v).tauDev = s.tauDev := (rfl)
@[simp] theorem State.setByte_target (s : State) (a : Nat) (v : Byte) : (s.setByte a v).target = s.target := (rfl)
@[simp] theorem State.setByte_cycling (s : State) (a : Nat) (v : Byte) : (s.setByte a v).cycling = s.cycling := (rfl)
@[simp] theorem State.setByte_firstCycle (s : State) (a : Nat) (v : Byte) : (s.setByte a v).firstCycle = s.firstCycle := (rfl)
@[simp] theorem State.setByte_rd (s : State) (a : Nat) (v : Byte) : (s.setByte a v).rd = s.rd := (rfl)
@[simp] theorem State.setByte_page (s : State) (a : Nat) (v : Byte) : (s.setByte a v).page = s.page := (rfl)
@[simp] theorem State.setByte_rdStage (s : State) (a : Nat) (v : Byte) : (s.setByte a v).rdStage = s.rdStage := (rfl)
@[simp] theorem State.setByte_eccAt (s : State) (a : Nat) (v : Byte) : (s.setByte a v).eccAt = s.eccAt := (rfl)
@[simp] theorem State.setByte_branch (s : State) (a : Nat) (v : Byte) : (s.setByte a v).branch = s.branch := (rfl)
@[simp] theorem State.setByte_eng (s : State) (a : Nat) (v : Byte) : (s.setByte a v).eng = s.eng := (rfl)
@[simp] theorem State.setByte_fdCh (s : State) (a : Nat) (v : Byte) : (s.setByte a v).fdCh = s.fdCh := (rfl)
@[simp] theorem State.setByte_axSt (s : State) (a : Nat) (v : Byte) : (s.setByte a v).axSt = s.axSt := (rfl)
@[simp] theorem State.setByte_canSt (s : State) (a : Nat) (v : Byte) : (s.setByte a v).canSt = s.canSt := (rfl)
@[simp] theorem State.setByte_ethSt (s : State) (a : Nat) (v : Byte) : (s.setByte a v).ethSt = s.ethSt := (rfl)
@[simp] theorem State.setByte_dmaCh (s : State) (a : Nat) (v : Byte) : (s.setByte a v).dmaCh = s.dmaCh := (rfl)

/-! ### setEcc -/

@[simp] theorem State.setEcc_pending (s : State) (a : Nat) (e : Ecc) : (s.setEcc a e).pending = s.pending := (rfl)
@[simp] theorem State.setEcc_now (s : State) (a : Nat) (e : Ecc) : (s.setEcc a e).now = s.now := (rfl)
@[simp] theorem State.setEcc_freeCtr (s : State) (a : Nat) (e : Ecc) : (s.setEcc a e).freeCtr = s.freeCtr := (rfl)
@[simp] theorem State.setEcc_regs (s : State) (a : Nat) (e : Ecc) : (s.setEcc a e).regs = s.regs := (rfl)
@[simp] theorem State.setEcc_stage (s : State) (a : Nat) (e : Ecc) : (s.setEcc a e).stage = s.stage := (rfl)
@[simp] theorem State.setEcc_hwSet (s : State) (a : Nat) (e : Ecc) : (s.setEcc a e).hwSet = s.hwSet := (rfl)
@[simp] theorem State.setEcc_pages (s : State) (a : Nat) (e : Ecc) : (s.setEcc a e).pages = s.pages := (rfl)
@[simp] theorem State.setEcc_shadows (s : State) (a : Nat) (e : Ecc) : (s.setEcc a e).shadows = s.shadows := (rfl)
@[simp] theorem State.setEcc_mem (s : State) (a : Nat) (e : Ecc) : (s.setEcc a e).mem = s.mem := (rfl)
@[simp] theorem State.setEcc_ecc (s : State) (a : Nat) (e : Ecc) : (s.setEcc a e).ecc = Tab.set s.ecc (loc64 a) e .good := (rfl)
@[simp] theorem State.setEcc_fd (s : State) (a : Nat) (e : Ecc) : (s.setEcc a e).fd = s.fd := (rfl)
@[simp] theorem State.setEcc_out (s : State) (a : Nat) (e : Ecc) : (s.setEcc a e).out = s.out := (rfl)
@[simp] theorem State.setEcc_rst (s : State) (a : Nat) (e : Ecc) : (s.setEcc a e).rst = s.rst := (rfl)
@[simp] theorem State.setEcc_pcie (s : State) (a : Nat) (e : Ecc) : (s.setEcc a e).pcie = s.pcie := (rfl)
@[simp] theorem State.setEcc_pair (s : State) (a : Nat) (e : Ecc) : (s.setEcc a e).pair = s.pair := (rfl)
@[simp] theorem State.setEcc_sin (s : State) (a : Nat) (e : Ecc) : (s.setEcc a e).sin = s.sin := (rfl)
@[simp] theorem State.setEcc_br (s : State) (a : Nat) (e : Ecc) : (s.setEcc a e).br = s.br := (rfl)
@[simp] theorem State.setEcc_inv (s : State) (a : Nat) (e : Ecc) : (s.setEcc a e).inv = s.inv := (rfl)
@[simp] theorem State.setEcc_lahar (s : State) (a : Nat) (e : Ecc) : (s.setEcc a e).lahar = s.lahar := (rfl)
@[simp] theorem State.setEcc_engs (s : State) (a : Nat) (e : Ecc) : (s.setEcc a e).engs = s.engs := (rfl)
@[simp] theorem State.setEcc_xl (s : State) (a : Nat) (e : Ecc) : (s.setEcc a e).xl = s.xl := (rfl)
@[simp] theorem State.setEcc_perf (s : State) (a : Nat) (e : Ecc) : (s.setEcc a e).perf = s.perf := (rfl)
@[simp] theorem State.setEcc_lp (s : State) (a : Nat) (e : Ecc) : (s.setEcc a e).lp = s.lp := (rfl)
@[simp] theorem State.setEcc_ax (s : State) (a : Nat) (e : Ecc) : (s.setEcc a e).ax = s.ax := (rfl)
@[simp] theorem State.setEcc_gey (s : State) (a : Nat) (e : Ecc) : (s.setEcc a e).gey = s.gey := (rfl)
@[simp] theorem State.setEcc_dma (s : State) (a : Nat) (e : Ecc) : (s.setEcc a e).dma = s.dma := (rfl)
@[simp] theorem State.setEcc_can (s : State) (a : Nat) (e : Ecc) : (s.setEcc a e).can = s.can := (rfl)
@[simp] theorem State.setEcc_eth (s : State) (a : Nat) (e : Ecc) : (s.setEcc a e).eth = s.eth := (rfl)
@[simp] theorem State.setEcc_lv (s : State) (a : Nat) (e : Ecc) : (s.setEcc a e).lv = s.lv := (rfl)
@[simp] theorem State.setEcc_mdio (s : State) (a : Nat) (e : Ecc) : (s.setEcc a e).mdio = s.mdio := (rfl)
@[simp] theorem State.setEcc_twi (s : State) (a : Nat) (e : Ecc) : (s.setEcc a e).twi = s.twi := (rfl)
@[simp] theorem State.setEcc_masters (s : State) (a : Nat) (e : Ecc) : (s.setEcc a e).masters = s.masters := (rfl)
@[simp] theorem State.setEcc_tau (s : State) (a : Nat) (e : Ecc) : (s.setEcc a e).tau = s.tau := (rfl)
@[simp] theorem State.setEcc_tauDev (s : State) (a : Nat) (e : Ecc) : (s.setEcc a e).tauDev = s.tauDev := (rfl)
@[simp] theorem State.setEcc_target (s : State) (a : Nat) (e : Ecc) : (s.setEcc a e).target = s.target := (rfl)
@[simp] theorem State.setEcc_cycling (s : State) (a : Nat) (e : Ecc) : (s.setEcc a e).cycling = s.cycling := (rfl)
@[simp] theorem State.setEcc_firstCycle (s : State) (a : Nat) (e : Ecc) : (s.setEcc a e).firstCycle = s.firstCycle := (rfl)
@[simp] theorem State.setEcc_rd (s : State) (a : Nat) (e : Ecc) : (s.setEcc a e).rd = s.rd := (rfl)
@[simp] theorem State.setEcc_byte (s : State) (a : Nat) (e : Ecc) : (s.setEcc a e).byte = s.byte := (rfl)
@[simp] theorem State.setEcc_page (s : State) (a : Nat) (e : Ecc) : (s.setEcc a e).page = s.page := (rfl)
@[simp] theorem State.setEcc_rdStage (s : State) (a : Nat) (e : Ecc) : (s.setEcc a e).rdStage = s.rdStage := (rfl)
@[simp] theorem State.setEcc_branch (s : State) (a : Nat) (e : Ecc) : (s.setEcc a e).branch = s.branch := (rfl)
@[simp] theorem State.setEcc_eng (s : State) (a : Nat) (e : Ecc) : (s.setEcc a e).eng = s.eng := (rfl)
@[simp] theorem State.setEcc_fdCh (s : State) (a : Nat) (e : Ecc) : (s.setEcc a e).fdCh = s.fdCh := (rfl)
@[simp] theorem State.setEcc_axSt (s : State) (a : Nat) (e : Ecc) : (s.setEcc a e).axSt = s.axSt := (rfl)
@[simp] theorem State.setEcc_canSt (s : State) (a : Nat) (e : Ecc) : (s.setEcc a e).canSt = s.canSt := (rfl)
@[simp] theorem State.setEcc_ethSt (s : State) (a : Nat) (e : Ecc) : (s.setEcc a e).ethSt = s.ethSt := (rfl)
@[simp] theorem State.setEcc_dmaCh (s : State) (a : Nat) (e : Ecc) : (s.setEcc a e).dmaCh = s.dmaCh := (rfl)

/-! ### setPba -/

@[simp] theorem State.setPba_pending (s : State) (v : Nat) (x : Bool) : (s.setPba v x).pending = s.pending := (rfl)
@[simp] theorem State.setPba_now (s : State) (v : Nat) (x : Bool) : (s.setPba v x).now = s.now := (rfl)
@[simp] theorem State.setPba_freeCtr (s : State) (v : Nat) (x : Bool) : (s.setPba v x).freeCtr = s.freeCtr := (rfl)
@[simp] theorem State.setPba_regs (s : State) (v : Nat) (x : Bool) : (s.setPba v x).regs = s.regs := (rfl)
@[simp] theorem State.setPba_stage (s : State) (v : Nat) (x : Bool) : (s.setPba v x).stage = s.stage := (rfl)
@[simp] theorem State.setPba_hwSet (s : State) (v : Nat) (x : Bool) : (s.setPba v x).hwSet = s.hwSet := (rfl)
@[simp] theorem State.setPba_pages (s : State) (v : Nat) (x : Bool) : (s.setPba v x).pages = s.pages := (rfl)
@[simp] theorem State.setPba_shadows (s : State) (v : Nat) (x : Bool) : (s.setPba v x).shadows = s.shadows := (rfl)
@[simp] theorem State.setPba_mem (s : State) (v : Nat) (x : Bool) : (s.setPba v x).mem = s.mem := (rfl)
@[simp] theorem State.setPba_ecc (s : State) (v : Nat) (x : Bool) : (s.setPba v x).ecc = s.ecc := (rfl)
@[simp] theorem State.setPba_fd (s : State) (v : Nat) (x : Bool) : (s.setPba v x).fd = s.fd := (rfl)
@[simp] theorem State.setPba_out (s : State) (v : Nat) (x : Bool) : (s.setPba v x).out = s.out := (rfl)
@[simp] theorem State.setPba_rst (s : State) (v : Nat) (x : Bool) : (s.setPba v x).rst = s.rst := (rfl)
@[simp] theorem State.setPba_pcie (s : State) (v : Nat) (x : Bool) : (s.setPba v x).pcie = { s.pcie with pba := setFld s.pcie.pba v v (b2n x) } := (rfl)
@[simp] theorem State.setPba_pair (s : State) (v : Nat) (x : Bool) : (s.setPba v x).pair = s.pair := (rfl)
@[simp] theorem State.setPba_sin (s : State) (v : Nat) (x : Bool) : (s.setPba v x).sin = s.sin := (rfl)
@[simp] theorem State.setPba_br (s : State) (v : Nat) (x : Bool) : (s.setPba v x).br = s.br := (rfl)
@[simp] theorem State.setPba_inv (s : State) (v : Nat) (x : Bool) : (s.setPba v x).inv = s.inv := (rfl)
@[simp] theorem State.setPba_lahar (s : State) (v : Nat) (x : Bool) : (s.setPba v x).lahar = s.lahar := (rfl)
@[simp] theorem State.setPba_engs (s : State) (v : Nat) (x : Bool) : (s.setPba v x).engs = s.engs := (rfl)
@[simp] theorem State.setPba_xl (s : State) (v : Nat) (x : Bool) : (s.setPba v x).xl = s.xl := (rfl)
@[simp] theorem State.setPba_perf (s : State) (v : Nat) (x : Bool) : (s.setPba v x).perf = s.perf := (rfl)
@[simp] theorem State.setPba_lp (s : State) (v : Nat) (x : Bool) : (s.setPba v x).lp = s.lp := (rfl)
@[simp] theorem State.setPba_ax (s : State) (v : Nat) (x : Bool) : (s.setPba v x).ax = s.ax := (rfl)
@[simp] theorem State.setPba_gey (s : State) (v : Nat) (x : Bool) : (s.setPba v x).gey = s.gey := (rfl)
@[simp] theorem State.setPba_dma (s : State) (v : Nat) (x : Bool) : (s.setPba v x).dma = s.dma := (rfl)
@[simp] theorem State.setPba_can (s : State) (v : Nat) (x : Bool) : (s.setPba v x).can = s.can := (rfl)
@[simp] theorem State.setPba_eth (s : State) (v : Nat) (x : Bool) : (s.setPba v x).eth = s.eth := (rfl)
@[simp] theorem State.setPba_lv (s : State) (v : Nat) (x : Bool) : (s.setPba v x).lv = s.lv := (rfl)
@[simp] theorem State.setPba_mdio (s : State) (v : Nat) (x : Bool) : (s.setPba v x).mdio = s.mdio := (rfl)
@[simp] theorem State.setPba_twi (s : State) (v : Nat) (x : Bool) : (s.setPba v x).twi = s.twi := (rfl)
@[simp] theorem State.setPba_masters (s : State) (v : Nat) (x : Bool) : (s.setPba v x).masters = s.masters := (rfl)
@[simp] theorem State.setPba_tau (s : State) (v : Nat) (x : Bool) : (s.setPba v x).tau = s.tau := (rfl)
@[simp] theorem State.setPba_tauDev (s : State) (v : Nat) (x : Bool) : (s.setPba v x).tauDev = s.tauDev := (rfl)
@[simp] theorem State.setPba_target (s : State) (v : Nat) (x : Bool) : (s.setPba v x).target = s.target := (rfl)
@[simp] theorem State.setPba_cycling (s : State) (v : Nat) (x : Bool) : (s.setPba v x).cycling = s.cycling := (rfl)
@[simp] theorem State.setPba_firstCycle (s : State) (v : Nat) (x : Bool) : (s.setPba v x).firstCycle = s.firstCycle := (rfl)
@[simp] theorem State.setPba_rd (s : State) (v : Nat) (x : Bool) : (s.setPba v x).rd = s.rd := (rfl)
@[simp] theorem State.setPba_byte (s : State) (v : Nat) (x : Bool) : (s.setPba v x).byte = s.byte := (rfl)
@[simp] theorem State.setPba_page (s : State) (v : Nat) (x : Bool) : (s.setPba v x).page = s.page := (rfl)
@[simp] theorem State.setPba_rdStage (s : State) (v : Nat) (x : Bool) : (s.setPba v x).rdStage = s.rdStage := (rfl)
@[simp] theorem State.setPba_eccAt (s : State) (v : Nat) (x : Bool) : (s.setPba v x).eccAt = s.eccAt := (rfl)
@[simp] theorem State.setPba_branch (s : State) (v : Nat) (x : Bool) : (s.setPba v x).branch = s.branch := (rfl)
@[simp] theorem State.setPba_eng (s : State) (v : Nat) (x : Bool) : (s.setPba v x).eng = s.eng := (rfl)
@[simp] theorem State.setPba_fdCh (s : State) (v : Nat) (x : Bool) : (s.setPba v x).fdCh = s.fdCh := (rfl)
@[simp] theorem State.setPba_axSt (s : State) (v : Nat) (x : Bool) : (s.setPba v x).axSt = s.axSt := (rfl)
@[simp] theorem State.setPba_canSt (s : State) (v : Nat) (x : Bool) : (s.setPba v x).canSt = s.canSt := (rfl)
@[simp] theorem State.setPba_ethSt (s : State) (v : Nat) (x : Bool) : (s.setPba v x).ethSt = s.ethSt := (rfl)
@[simp] theorem State.setPba_dmaCh (s : State) (v : Nat) (x : Bool) : (s.setPba v x).dmaCh = s.dmaCh := (rfl)

/-! ### setPcie -/

@[simp] theorem State.setPcie_pending (s : State) (x : PcieSt) : (s.setPcie x).pending = s.pending := (rfl)
@[simp] theorem State.setPcie_now (s : State) (x : PcieSt) : (s.setPcie x).now = s.now := (rfl)
@[simp] theorem State.setPcie_freeCtr (s : State) (x : PcieSt) : (s.setPcie x).freeCtr = s.freeCtr := (rfl)
@[simp] theorem State.setPcie_regs (s : State) (x : PcieSt) : (s.setPcie x).regs = s.regs := (rfl)
@[simp] theorem State.setPcie_stage (s : State) (x : PcieSt) : (s.setPcie x).stage = s.stage := (rfl)
@[simp] theorem State.setPcie_hwSet (s : State) (x : PcieSt) : (s.setPcie x).hwSet = s.hwSet := (rfl)
@[simp] theorem State.setPcie_pages (s : State) (x : PcieSt) : (s.setPcie x).pages = s.pages := (rfl)
@[simp] theorem State.setPcie_shadows (s : State) (x : PcieSt) : (s.setPcie x).shadows = s.shadows := (rfl)
@[simp] theorem State.setPcie_mem (s : State) (x : PcieSt) : (s.setPcie x).mem = s.mem := (rfl)
@[simp] theorem State.setPcie_ecc (s : State) (x : PcieSt) : (s.setPcie x).ecc = s.ecc := (rfl)
@[simp] theorem State.setPcie_fd (s : State) (x : PcieSt) : (s.setPcie x).fd = s.fd := (rfl)
@[simp] theorem State.setPcie_out (s : State) (x : PcieSt) : (s.setPcie x).out = s.out := (rfl)
@[simp] theorem State.setPcie_rst (s : State) (x : PcieSt) : (s.setPcie x).rst = s.rst := (rfl)
@[simp] theorem State.setPcie_pcie (s : State) (x : PcieSt) : (s.setPcie x).pcie = x := (rfl)
@[simp] theorem State.setPcie_pair (s : State) (x : PcieSt) : (s.setPcie x).pair = s.pair := (rfl)
@[simp] theorem State.setPcie_sin (s : State) (x : PcieSt) : (s.setPcie x).sin = s.sin := (rfl)
@[simp] theorem State.setPcie_br (s : State) (x : PcieSt) : (s.setPcie x).br = s.br := (rfl)
@[simp] theorem State.setPcie_inv (s : State) (x : PcieSt) : (s.setPcie x).inv = s.inv := (rfl)
@[simp] theorem State.setPcie_lahar (s : State) (x : PcieSt) : (s.setPcie x).lahar = s.lahar := (rfl)
@[simp] theorem State.setPcie_engs (s : State) (x : PcieSt) : (s.setPcie x).engs = s.engs := (rfl)
@[simp] theorem State.setPcie_xl (s : State) (x : PcieSt) : (s.setPcie x).xl = s.xl := (rfl)
@[simp] theorem State.setPcie_perf (s : State) (x : PcieSt) : (s.setPcie x).perf = s.perf := (rfl)
@[simp] theorem State.setPcie_lp (s : State) (x : PcieSt) : (s.setPcie x).lp = s.lp := (rfl)
@[simp] theorem State.setPcie_ax (s : State) (x : PcieSt) : (s.setPcie x).ax = s.ax := (rfl)
@[simp] theorem State.setPcie_gey (s : State) (x : PcieSt) : (s.setPcie x).gey = s.gey := (rfl)
@[simp] theorem State.setPcie_dma (s : State) (x : PcieSt) : (s.setPcie x).dma = s.dma := (rfl)
@[simp] theorem State.setPcie_can (s : State) (x : PcieSt) : (s.setPcie x).can = s.can := (rfl)
@[simp] theorem State.setPcie_eth (s : State) (x : PcieSt) : (s.setPcie x).eth = s.eth := (rfl)
@[simp] theorem State.setPcie_lv (s : State) (x : PcieSt) : (s.setPcie x).lv = s.lv := (rfl)
@[simp] theorem State.setPcie_mdio (s : State) (x : PcieSt) : (s.setPcie x).mdio = s.mdio := (rfl)
@[simp] theorem State.setPcie_twi (s : State) (x : PcieSt) : (s.setPcie x).twi = s.twi := (rfl)
@[simp] theorem State.setPcie_masters (s : State) (x : PcieSt) : (s.setPcie x).masters = s.masters := (rfl)
@[simp] theorem State.setPcie_tau (s : State) (x : PcieSt) : (s.setPcie x).tau = s.tau := (rfl)
@[simp] theorem State.setPcie_tauDev (s : State) (x : PcieSt) : (s.setPcie x).tauDev = s.tauDev := (rfl)
@[simp] theorem State.setPcie_target (s : State) (x : PcieSt) : (s.setPcie x).target = s.target := (rfl)
@[simp] theorem State.setPcie_cycling (s : State) (x : PcieSt) : (s.setPcie x).cycling = s.cycling := (rfl)
@[simp] theorem State.setPcie_firstCycle (s : State) (x : PcieSt) : (s.setPcie x).firstCycle = s.firstCycle := (rfl)
@[simp] theorem State.setPcie_rd (s : State) (x : PcieSt) : (s.setPcie x).rd = s.rd := (rfl)
@[simp] theorem State.setPcie_byte (s : State) (x : PcieSt) : (s.setPcie x).byte = s.byte := (rfl)
@[simp] theorem State.setPcie_page (s : State) (x : PcieSt) : (s.setPcie x).page = s.page := (rfl)
@[simp] theorem State.setPcie_rdStage (s : State) (x : PcieSt) : (s.setPcie x).rdStage = s.rdStage := (rfl)
@[simp] theorem State.setPcie_eccAt (s : State) (x : PcieSt) : (s.setPcie x).eccAt = s.eccAt := (rfl)
@[simp] theorem State.setPcie_branch (s : State) (x : PcieSt) : (s.setPcie x).branch = s.branch := (rfl)
@[simp] theorem State.setPcie_eng (s : State) (x : PcieSt) : (s.setPcie x).eng = s.eng := (rfl)
@[simp] theorem State.setPcie_fdCh (s : State) (x : PcieSt) : (s.setPcie x).fdCh = s.fdCh := (rfl)
@[simp] theorem State.setPcie_axSt (s : State) (x : PcieSt) : (s.setPcie x).axSt = s.axSt := (rfl)
@[simp] theorem State.setPcie_canSt (s : State) (x : PcieSt) : (s.setPcie x).canSt = s.canSt := (rfl)
@[simp] theorem State.setPcie_ethSt (s : State) (x : PcieSt) : (s.setPcie x).ethSt = s.ethSt := (rfl)
@[simp] theorem State.setPcie_dmaCh (s : State) (x : PcieSt) : (s.setPcie x).dmaCh = s.dmaCh := (rfl)

/-! ### setRst -/

@[simp] theorem State.setRst_pending (s : State) (x : RstSt) : (s.setRst x).pending = s.pending := (rfl)
@[simp] theorem State.setRst_now (s : State) (x : RstSt) : (s.setRst x).now = s.now := (rfl)
@[simp] theorem State.setRst_freeCtr (s : State) (x : RstSt) : (s.setRst x).freeCtr = s.freeCtr := (rfl)
@[simp] theorem State.setRst_regs (s : State) (x : RstSt) : (s.setRst x).regs = s.regs := (rfl)
@[simp] theorem State.setRst_stage (s : State) (x : RstSt) : (s.setRst x).stage = s.stage := (rfl)
@[simp] theorem State.setRst_hwSet (s : State) (x : RstSt) : (s.setRst x).hwSet = s.hwSet := (rfl)
@[simp] theorem State.setRst_pages (s : State) (x : RstSt) : (s.setRst x).pages = s.pages := (rfl)
@[simp] theorem State.setRst_shadows (s : State) (x : RstSt) : (s.setRst x).shadows = s.shadows := (rfl)
@[simp] theorem State.setRst_mem (s : State) (x : RstSt) : (s.setRst x).mem = s.mem := (rfl)
@[simp] theorem State.setRst_ecc (s : State) (x : RstSt) : (s.setRst x).ecc = s.ecc := (rfl)
@[simp] theorem State.setRst_fd (s : State) (x : RstSt) : (s.setRst x).fd = s.fd := (rfl)
@[simp] theorem State.setRst_out (s : State) (x : RstSt) : (s.setRst x).out = s.out := (rfl)
@[simp] theorem State.setRst_rst (s : State) (x : RstSt) : (s.setRst x).rst = x := (rfl)
@[simp] theorem State.setRst_pcie (s : State) (x : RstSt) : (s.setRst x).pcie = s.pcie := (rfl)
@[simp] theorem State.setRst_pair (s : State) (x : RstSt) : (s.setRst x).pair = s.pair := (rfl)
@[simp] theorem State.setRst_sin (s : State) (x : RstSt) : (s.setRst x).sin = s.sin := (rfl)
@[simp] theorem State.setRst_br (s : State) (x : RstSt) : (s.setRst x).br = s.br := (rfl)
@[simp] theorem State.setRst_inv (s : State) (x : RstSt) : (s.setRst x).inv = s.inv := (rfl)
@[simp] theorem State.setRst_lahar (s : State) (x : RstSt) : (s.setRst x).lahar = s.lahar := (rfl)
@[simp] theorem State.setRst_engs (s : State) (x : RstSt) : (s.setRst x).engs = s.engs := (rfl)
@[simp] theorem State.setRst_xl (s : State) (x : RstSt) : (s.setRst x).xl = s.xl := (rfl)
@[simp] theorem State.setRst_perf (s : State) (x : RstSt) : (s.setRst x).perf = s.perf := (rfl)
@[simp] theorem State.setRst_lp (s : State) (x : RstSt) : (s.setRst x).lp = s.lp := (rfl)
@[simp] theorem State.setRst_ax (s : State) (x : RstSt) : (s.setRst x).ax = s.ax := (rfl)
@[simp] theorem State.setRst_gey (s : State) (x : RstSt) : (s.setRst x).gey = s.gey := (rfl)
@[simp] theorem State.setRst_dma (s : State) (x : RstSt) : (s.setRst x).dma = s.dma := (rfl)
@[simp] theorem State.setRst_can (s : State) (x : RstSt) : (s.setRst x).can = s.can := (rfl)
@[simp] theorem State.setRst_eth (s : State) (x : RstSt) : (s.setRst x).eth = s.eth := (rfl)
@[simp] theorem State.setRst_lv (s : State) (x : RstSt) : (s.setRst x).lv = s.lv := (rfl)
@[simp] theorem State.setRst_mdio (s : State) (x : RstSt) : (s.setRst x).mdio = s.mdio := (rfl)
@[simp] theorem State.setRst_twi (s : State) (x : RstSt) : (s.setRst x).twi = s.twi := (rfl)
@[simp] theorem State.setRst_masters (s : State) (x : RstSt) : (s.setRst x).masters = s.masters := (rfl)
@[simp] theorem State.setRst_tau (s : State) (x : RstSt) : (s.setRst x).tau = s.tau := (rfl)
@[simp] theorem State.setRst_tauDev (s : State) (x : RstSt) : (s.setRst x).tauDev = s.tauDev := (rfl)
@[simp] theorem State.setRst_target (s : State) (x : RstSt) : (s.setRst x).target = s.target := (rfl)
@[simp] theorem State.setRst_cycling (s : State) (x : RstSt) : (s.setRst x).cycling = s.cycling := (rfl)
@[simp] theorem State.setRst_firstCycle (s : State) (x : RstSt) : (s.setRst x).firstCycle = s.firstCycle := (rfl)
@[simp] theorem State.setRst_rd (s : State) (x : RstSt) : (s.setRst x).rd = s.rd := (rfl)
@[simp] theorem State.setRst_byte (s : State) (x : RstSt) : (s.setRst x).byte = s.byte := (rfl)
@[simp] theorem State.setRst_page (s : State) (x : RstSt) : (s.setRst x).page = s.page := (rfl)
@[simp] theorem State.setRst_rdStage (s : State) (x : RstSt) : (s.setRst x).rdStage = s.rdStage := (rfl)
@[simp] theorem State.setRst_eccAt (s : State) (x : RstSt) : (s.setRst x).eccAt = s.eccAt := (rfl)
@[simp] theorem State.setRst_branch (s : State) (x : RstSt) : (s.setRst x).branch = s.branch := (rfl)
@[simp] theorem State.setRst_eng (s : State) (x : RstSt) : (s.setRst x).eng = s.eng := (rfl)
@[simp] theorem State.setRst_fdCh (s : State) (x : RstSt) : (s.setRst x).fdCh = s.fdCh := (rfl)
@[simp] theorem State.setRst_axSt (s : State) (x : RstSt) : (s.setRst x).axSt = s.axSt := (rfl)
@[simp] theorem State.setRst_canSt (s : State) (x : RstSt) : (s.setRst x).canSt = s.canSt := (rfl)
@[simp] theorem State.setRst_ethSt (s : State) (x : RstSt) : (s.setRst x).ethSt = s.ethSt := (rfl)
@[simp] theorem State.setRst_dmaCh (s : State) (x : RstSt) : (s.setRst x).dmaCh = s.dmaCh := (rfl)

/-! ### setLahar -/

@[simp] theorem State.setLahar_pending (s : State) (x : LaharSt) : (s.setLahar x).pending = s.pending := (rfl)
@[simp] theorem State.setLahar_now (s : State) (x : LaharSt) : (s.setLahar x).now = s.now := (rfl)
@[simp] theorem State.setLahar_freeCtr (s : State) (x : LaharSt) : (s.setLahar x).freeCtr = s.freeCtr := (rfl)
@[simp] theorem State.setLahar_regs (s : State) (x : LaharSt) : (s.setLahar x).regs = s.regs := (rfl)
@[simp] theorem State.setLahar_stage (s : State) (x : LaharSt) : (s.setLahar x).stage = s.stage := (rfl)
@[simp] theorem State.setLahar_hwSet (s : State) (x : LaharSt) : (s.setLahar x).hwSet = s.hwSet := (rfl)
@[simp] theorem State.setLahar_pages (s : State) (x : LaharSt) : (s.setLahar x).pages = s.pages := (rfl)
@[simp] theorem State.setLahar_shadows (s : State) (x : LaharSt) : (s.setLahar x).shadows = s.shadows := (rfl)
@[simp] theorem State.setLahar_mem (s : State) (x : LaharSt) : (s.setLahar x).mem = s.mem := (rfl)
@[simp] theorem State.setLahar_ecc (s : State) (x : LaharSt) : (s.setLahar x).ecc = s.ecc := (rfl)
@[simp] theorem State.setLahar_fd (s : State) (x : LaharSt) : (s.setLahar x).fd = s.fd := (rfl)
@[simp] theorem State.setLahar_out (s : State) (x : LaharSt) : (s.setLahar x).out = s.out := (rfl)
@[simp] theorem State.setLahar_rst (s : State) (x : LaharSt) : (s.setLahar x).rst = s.rst := (rfl)
@[simp] theorem State.setLahar_pcie (s : State) (x : LaharSt) : (s.setLahar x).pcie = s.pcie := (rfl)
@[simp] theorem State.setLahar_pair (s : State) (x : LaharSt) : (s.setLahar x).pair = s.pair := (rfl)
@[simp] theorem State.setLahar_sin (s : State) (x : LaharSt) : (s.setLahar x).sin = s.sin := (rfl)
@[simp] theorem State.setLahar_br (s : State) (x : LaharSt) : (s.setLahar x).br = s.br := (rfl)
@[simp] theorem State.setLahar_inv (s : State) (x : LaharSt) : (s.setLahar x).inv = s.inv := (rfl)
@[simp] theorem State.setLahar_lahar (s : State) (x : LaharSt) : (s.setLahar x).lahar = x := (rfl)
@[simp] theorem State.setLahar_engs (s : State) (x : LaharSt) : (s.setLahar x).engs = s.engs := (rfl)
@[simp] theorem State.setLahar_xl (s : State) (x : LaharSt) : (s.setLahar x).xl = s.xl := (rfl)
@[simp] theorem State.setLahar_perf (s : State) (x : LaharSt) : (s.setLahar x).perf = s.perf := (rfl)
@[simp] theorem State.setLahar_lp (s : State) (x : LaharSt) : (s.setLahar x).lp = s.lp := (rfl)
@[simp] theorem State.setLahar_ax (s : State) (x : LaharSt) : (s.setLahar x).ax = s.ax := (rfl)
@[simp] theorem State.setLahar_gey (s : State) (x : LaharSt) : (s.setLahar x).gey = s.gey := (rfl)
@[simp] theorem State.setLahar_dma (s : State) (x : LaharSt) : (s.setLahar x).dma = s.dma := (rfl)
@[simp] theorem State.setLahar_can (s : State) (x : LaharSt) : (s.setLahar x).can = s.can := (rfl)
@[simp] theorem State.setLahar_eth (s : State) (x : LaharSt) : (s.setLahar x).eth = s.eth := (rfl)
@[simp] theorem State.setLahar_lv (s : State) (x : LaharSt) : (s.setLahar x).lv = s.lv := (rfl)
@[simp] theorem State.setLahar_mdio (s : State) (x : LaharSt) : (s.setLahar x).mdio = s.mdio := (rfl)
@[simp] theorem State.setLahar_twi (s : State) (x : LaharSt) : (s.setLahar x).twi = s.twi := (rfl)
@[simp] theorem State.setLahar_masters (s : State) (x : LaharSt) : (s.setLahar x).masters = s.masters := (rfl)
@[simp] theorem State.setLahar_tau (s : State) (x : LaharSt) : (s.setLahar x).tau = s.tau := (rfl)
@[simp] theorem State.setLahar_tauDev (s : State) (x : LaharSt) : (s.setLahar x).tauDev = s.tauDev := (rfl)
@[simp] theorem State.setLahar_target (s : State) (x : LaharSt) : (s.setLahar x).target = s.target := (rfl)
@[simp] theorem State.setLahar_cycling (s : State) (x : LaharSt) : (s.setLahar x).cycling = s.cycling := (rfl)
@[simp] theorem State.setLahar_firstCycle (s : State) (x : LaharSt) : (s.setLahar x).firstCycle = s.firstCycle := (rfl)
@[simp] theorem State.setLahar_rd (s : State) (x : LaharSt) : (s.setLahar x).rd = s.rd := (rfl)
@[simp] theorem State.setLahar_byte (s : State) (x : LaharSt) : (s.setLahar x).byte = s.byte := (rfl)
@[simp] theorem State.setLahar_page (s : State) (x : LaharSt) : (s.setLahar x).page = s.page := (rfl)
@[simp] theorem State.setLahar_rdStage (s : State) (x : LaharSt) : (s.setLahar x).rdStage = s.rdStage := (rfl)
@[simp] theorem State.setLahar_eccAt (s : State) (x : LaharSt) : (s.setLahar x).eccAt = s.eccAt := (rfl)
@[simp] theorem State.setLahar_branch (s : State) (x : LaharSt) : (s.setLahar x).branch = s.branch := (rfl)
@[simp] theorem State.setLahar_eng (s : State) (x : LaharSt) : (s.setLahar x).eng = s.eng := (rfl)
@[simp] theorem State.setLahar_fdCh (s : State) (x : LaharSt) : (s.setLahar x).fdCh = s.fdCh := (rfl)
@[simp] theorem State.setLahar_axSt (s : State) (x : LaharSt) : (s.setLahar x).axSt = s.axSt := (rfl)
@[simp] theorem State.setLahar_canSt (s : State) (x : LaharSt) : (s.setLahar x).canSt = s.canSt := (rfl)
@[simp] theorem State.setLahar_ethSt (s : State) (x : LaharSt) : (s.setLahar x).ethSt = s.ethSt := (rfl)
@[simp] theorem State.setLahar_dmaCh (s : State) (x : LaharSt) : (s.setLahar x).dmaCh = s.dmaCh := (rfl)

/-! ### setEng -/

@[simp] theorem State.setEng_pending (s : State) (e : Nat) (x : Eng) : (s.setEng e x).pending = s.pending := (rfl)
@[simp] theorem State.setEng_now (s : State) (e : Nat) (x : Eng) : (s.setEng e x).now = s.now := (rfl)
@[simp] theorem State.setEng_freeCtr (s : State) (e : Nat) (x : Eng) : (s.setEng e x).freeCtr = s.freeCtr := (rfl)
@[simp] theorem State.setEng_regs (s : State) (e : Nat) (x : Eng) : (s.setEng e x).regs = s.regs := (rfl)
@[simp] theorem State.setEng_stage (s : State) (e : Nat) (x : Eng) : (s.setEng e x).stage = s.stage := (rfl)
@[simp] theorem State.setEng_hwSet (s : State) (e : Nat) (x : Eng) : (s.setEng e x).hwSet = s.hwSet := (rfl)
@[simp] theorem State.setEng_pages (s : State) (e : Nat) (x : Eng) : (s.setEng e x).pages = s.pages := (rfl)
@[simp] theorem State.setEng_shadows (s : State) (e : Nat) (x : Eng) : (s.setEng e x).shadows = s.shadows := (rfl)
@[simp] theorem State.setEng_mem (s : State) (e : Nat) (x : Eng) : (s.setEng e x).mem = s.mem := (rfl)
@[simp] theorem State.setEng_ecc (s : State) (e : Nat) (x : Eng) : (s.setEng e x).ecc = s.ecc := (rfl)
@[simp] theorem State.setEng_fd (s : State) (e : Nat) (x : Eng) : (s.setEng e x).fd = s.fd := (rfl)
@[simp] theorem State.setEng_out (s : State) (e : Nat) (x : Eng) : (s.setEng e x).out = s.out := (rfl)
@[simp] theorem State.setEng_rst (s : State) (e : Nat) (x : Eng) : (s.setEng e x).rst = s.rst := (rfl)
@[simp] theorem State.setEng_pcie (s : State) (e : Nat) (x : Eng) : (s.setEng e x).pcie = s.pcie := (rfl)
@[simp] theorem State.setEng_pair (s : State) (e : Nat) (x : Eng) : (s.setEng e x).pair = s.pair := (rfl)
@[simp] theorem State.setEng_sin (s : State) (e : Nat) (x : Eng) : (s.setEng e x).sin = s.sin := (rfl)
@[simp] theorem State.setEng_br (s : State) (e : Nat) (x : Eng) : (s.setEng e x).br = s.br := (rfl)
@[simp] theorem State.setEng_inv (s : State) (e : Nat) (x : Eng) : (s.setEng e x).inv = s.inv := (rfl)
@[simp] theorem State.setEng_lahar (s : State) (e : Nat) (x : Eng) : (s.setEng e x).lahar = s.lahar := (rfl)
@[simp] theorem State.setEng_engs (s : State) (e : Nat) (x : Eng) : (s.setEng e x).engs = Tab.set s.engs e x {} := (rfl)
@[simp] theorem State.setEng_xl (s : State) (e : Nat) (x : Eng) : (s.setEng e x).xl = s.xl := (rfl)
@[simp] theorem State.setEng_perf (s : State) (e : Nat) (x : Eng) : (s.setEng e x).perf = s.perf := (rfl)
@[simp] theorem State.setEng_lp (s : State) (e : Nat) (x : Eng) : (s.setEng e x).lp = s.lp := (rfl)
@[simp] theorem State.setEng_ax (s : State) (e : Nat) (x : Eng) : (s.setEng e x).ax = s.ax := (rfl)
@[simp] theorem State.setEng_gey (s : State) (e : Nat) (x : Eng) : (s.setEng e x).gey = s.gey := (rfl)
@[simp] theorem State.setEng_dma (s : State) (e : Nat) (x : Eng) : (s.setEng e x).dma = s.dma := (rfl)
@[simp] theorem State.setEng_can (s : State) (e : Nat) (x : Eng) : (s.setEng e x).can = s.can := (rfl)
@[simp] theorem State.setEng_eth (s : State) (e : Nat) (x : Eng) : (s.setEng e x).eth = s.eth := (rfl)
@[simp] theorem State.setEng_lv (s : State) (e : Nat) (x : Eng) : (s.setEng e x).lv = s.lv := (rfl)
@[simp] theorem State.setEng_mdio (s : State) (e : Nat) (x : Eng) : (s.setEng e x).mdio = s.mdio := (rfl)
@[simp] theorem State.setEng_twi (s : State) (e : Nat) (x : Eng) : (s.setEng e x).twi = s.twi := (rfl)
@[simp] theorem State.setEng_masters (s : State) (e : Nat) (x : Eng) : (s.setEng e x).masters = s.masters := (rfl)
@[simp] theorem State.setEng_tau (s : State) (e : Nat) (x : Eng) : (s.setEng e x).tau = s.tau := (rfl)
@[simp] theorem State.setEng_tauDev (s : State) (e : Nat) (x : Eng) : (s.setEng e x).tauDev = s.tauDev := (rfl)
@[simp] theorem State.setEng_target (s : State) (e : Nat) (x : Eng) : (s.setEng e x).target = s.target := (rfl)
@[simp] theorem State.setEng_cycling (s : State) (e : Nat) (x : Eng) : (s.setEng e x).cycling = s.cycling := (rfl)
@[simp] theorem State.setEng_firstCycle (s : State) (e : Nat) (x : Eng) : (s.setEng e x).firstCycle = s.firstCycle := (rfl)
@[simp] theorem State.setEng_rd (s : State) (e : Nat) (x : Eng) : (s.setEng e x).rd = s.rd := (rfl)
@[simp] theorem State.setEng_byte (s : State) (e : Nat) (x : Eng) : (s.setEng e x).byte = s.byte := (rfl)
@[simp] theorem State.setEng_page (s : State) (e : Nat) (x : Eng) : (s.setEng e x).page = s.page := (rfl)
@[simp] theorem State.setEng_rdStage (s : State) (e : Nat) (x : Eng) : (s.setEng e x).rdStage = s.rdStage := (rfl)
@[simp] theorem State.setEng_eccAt (s : State) (e : Nat) (x : Eng) : (s.setEng e x).eccAt = s.eccAt := (rfl)
@[simp] theorem State.setEng_branch (s : State) (e : Nat) (x : Eng) : (s.setEng e x).branch = s.branch := (rfl)
@[simp] theorem State.setEng_fdCh (s : State) (e : Nat) (x : Eng) : (s.setEng e x).fdCh = s.fdCh := (rfl)
@[simp] theorem State.setEng_axSt (s : State) (e : Nat) (x : Eng) : (s.setEng e x).axSt = s.axSt := (rfl)
@[simp] theorem State.setEng_canSt (s : State) (e : Nat) (x : Eng) : (s.setEng e x).canSt = s.canSt := (rfl)
@[simp] theorem State.setEng_ethSt (s : State) (e : Nat) (x : Eng) : (s.setEng e x).ethSt = s.ethSt := (rfl)
@[simp] theorem State.setEng_dmaCh (s : State) (e : Nat) (x : Eng) : (s.setEng e x).dmaCh = s.dmaCh := (rfl)

/-! ### setXl -/

@[simp] theorem State.setXl_pending (s : State) (x : XlSt) : (s.setXl x).pending = s.pending := (rfl)
@[simp] theorem State.setXl_now (s : State) (x : XlSt) : (s.setXl x).now = s.now := (rfl)
@[simp] theorem State.setXl_freeCtr (s : State) (x : XlSt) : (s.setXl x).freeCtr = s.freeCtr := (rfl)
@[simp] theorem State.setXl_regs (s : State) (x : XlSt) : (s.setXl x).regs = s.regs := (rfl)
@[simp] theorem State.setXl_stage (s : State) (x : XlSt) : (s.setXl x).stage = s.stage := (rfl)
@[simp] theorem State.setXl_hwSet (s : State) (x : XlSt) : (s.setXl x).hwSet = s.hwSet := (rfl)
@[simp] theorem State.setXl_pages (s : State) (x : XlSt) : (s.setXl x).pages = s.pages := (rfl)
@[simp] theorem State.setXl_shadows (s : State) (x : XlSt) : (s.setXl x).shadows = s.shadows := (rfl)
@[simp] theorem State.setXl_mem (s : State) (x : XlSt) : (s.setXl x).mem = s.mem := (rfl)
@[simp] theorem State.setXl_ecc (s : State) (x : XlSt) : (s.setXl x).ecc = s.ecc := (rfl)
@[simp] theorem State.setXl_fd (s : State) (x : XlSt) : (s.setXl x).fd = s.fd := (rfl)
@[simp] theorem State.setXl_out (s : State) (x : XlSt) : (s.setXl x).out = s.out := (rfl)
@[simp] theorem State.setXl_rst (s : State) (x : XlSt) : (s.setXl x).rst = s.rst := (rfl)
@[simp] theorem State.setXl_pcie (s : State) (x : XlSt) : (s.setXl x).pcie = s.pcie := (rfl)
@[simp] theorem State.setXl_pair (s : State) (x : XlSt) : (s.setXl x).pair = s.pair := (rfl)
@[simp] theorem State.setXl_sin (s : State) (x : XlSt) : (s.setXl x).sin = s.sin := (rfl)
@[simp] theorem State.setXl_br (s : State) (x : XlSt) : (s.setXl x).br = s.br := (rfl)
@[simp] theorem State.setXl_inv (s : State) (x : XlSt) : (s.setXl x).inv = s.inv := (rfl)
@[simp] theorem State.setXl_lahar (s : State) (x : XlSt) : (s.setXl x).lahar = s.lahar := (rfl)
@[simp] theorem State.setXl_engs (s : State) (x : XlSt) : (s.setXl x).engs = s.engs := (rfl)
@[simp] theorem State.setXl_xl (s : State) (x : XlSt) : (s.setXl x).xl = x := (rfl)
@[simp] theorem State.setXl_perf (s : State) (x : XlSt) : (s.setXl x).perf = s.perf := (rfl)
@[simp] theorem State.setXl_lp (s : State) (x : XlSt) : (s.setXl x).lp = s.lp := (rfl)
@[simp] theorem State.setXl_ax (s : State) (x : XlSt) : (s.setXl x).ax = s.ax := (rfl)
@[simp] theorem State.setXl_gey (s : State) (x : XlSt) : (s.setXl x).gey = s.gey := (rfl)
@[simp] theorem State.setXl_dma (s : State) (x : XlSt) : (s.setXl x).dma = s.dma := (rfl)
@[simp] theorem State.setXl_can (s : State) (x : XlSt) : (s.setXl x).can = s.can := (rfl)
@[simp] theorem State.setXl_eth (s : State) (x : XlSt) : (s.setXl x).eth = s.eth := (rfl)
@[simp] theorem State.setXl_lv (s : State) (x : XlSt) : (s.setXl x).lv = s.lv := (rfl)
@[simp] theorem State.setXl_mdio (s : State) (x : XlSt) : (s.setXl x).mdio = s.mdio := (rfl)
@[simp] theorem State.setXl_twi (s : State) (x : XlSt) : (s.setXl x).twi = s.twi := (rfl)
@[simp] theorem State.setXl_masters (s : State) (x : XlSt) : (s.setXl x).masters = s.masters := (rfl)
@[simp] theorem State.setXl_tau (s : State) (x : XlSt) : (s.setXl x).tau = s.tau := (rfl)
@[simp] theorem State.setXl_tauDev (s : State) (x : XlSt) : (s.setXl x).tauDev = s.tauDev := (rfl)
@[simp] theorem State.setXl_target (s : State) (x : XlSt) : (s.setXl x).target = s.target := (rfl)
@[simp] theorem State.setXl_cycling (s : State) (x : XlSt) : (s.setXl x).cycling = s.cycling := (rfl)
@[simp] theorem State.setXl_firstCycle (s : State) (x : XlSt) : (s.setXl x).firstCycle = s.firstCycle := (rfl)
@[simp] theorem State.setXl_rd (s : State) (x : XlSt) : (s.setXl x).rd = s.rd := (rfl)
@[simp] theorem State.setXl_byte (s : State) (x : XlSt) : (s.setXl x).byte = s.byte := (rfl)
@[simp] theorem State.setXl_page (s : State) (x : XlSt) : (s.setXl x).page = s.page := (rfl)
@[simp] theorem State.setXl_rdStage (s : State) (x : XlSt) : (s.setXl x).rdStage = s.rdStage := (rfl)
@[simp] theorem State.setXl_eccAt (s : State) (x : XlSt) : (s.setXl x).eccAt = s.eccAt := (rfl)
@[simp] theorem State.setXl_branch (s : State) (x : XlSt) : (s.setXl x).branch = s.branch := (rfl)
@[simp] theorem State.setXl_eng (s : State) (x : XlSt) : (s.setXl x).eng = s.eng := (rfl)
@[simp] theorem State.setXl_fdCh (s : State) (x : XlSt) : (s.setXl x).fdCh = s.fdCh := (rfl)
@[simp] theorem State.setXl_axSt (s : State) (x : XlSt) : (s.setXl x).axSt = s.axSt := (rfl)
@[simp] theorem State.setXl_canSt (s : State) (x : XlSt) : (s.setXl x).canSt = s.canSt := (rfl)
@[simp] theorem State.setXl_ethSt (s : State) (x : XlSt) : (s.setXl x).ethSt = s.ethSt := (rfl)
@[simp] theorem State.setXl_dmaCh (s : State) (x : XlSt) : (s.setXl x).dmaCh = s.dmaCh := (rfl)

/-! ### setPerf -/

@[simp] theorem State.setPerf_pending (s : State) (x : PerfSt) : (s.setPerf x).pending = s.pending := (rfl)
@[simp] theorem State.setPerf_now (s : State) (x : PerfSt) : (s.setPerf x).now = s.now := (rfl)
@[simp] theorem State.setPerf_freeCtr (s : State) (x : PerfSt) : (s.setPerf x).freeCtr = s.freeCtr := (rfl)
@[simp] theorem State.setPerf_regs (s : State) (x : PerfSt) : (s.setPerf x).regs = s.regs := (rfl)
@[simp] theorem State.setPerf_stage (s : State) (x : PerfSt) : (s.setPerf x).stage = s.stage := (rfl)
@[simp] theorem State.setPerf_hwSet (s : State) (x : PerfSt) : (s.setPerf x).hwSet = s.hwSet := (rfl)
@[simp] theorem State.setPerf_pages (s : State) (x : PerfSt) : (s.setPerf x).pages = s.pages := (rfl)
@[simp] theorem State.setPerf_shadows (s : State) (x : PerfSt) : (s.setPerf x).shadows = s.shadows := (rfl)
@[simp] theorem State.setPerf_mem (s : State) (x : PerfSt) : (s.setPerf x).mem = s.mem := (rfl)
@[simp] theorem State.setPerf_ecc (s : State) (x : PerfSt) : (s.setPerf x).ecc = s.ecc := (rfl)
@[simp] theorem State.setPerf_fd (s : State) (x : PerfSt) : (s.setPerf x).fd = s.fd := (rfl)
@[simp] theorem State.setPerf_out (s : State) (x : PerfSt) : (s.setPerf x).out = s.out := (rfl)
@[simp] theorem State.setPerf_rst (s : State) (x : PerfSt) : (s.setPerf x).rst = s.rst := (rfl)
@[simp] theorem State.setPerf_pcie (s : State) (x : PerfSt) : (s.setPerf x).pcie = s.pcie := (rfl)
@[simp] theorem State.setPerf_pair (s : State) (x : PerfSt) : (s.setPerf x).pair = s.pair := (rfl)
@[simp] theorem State.setPerf_sin (s : State) (x : PerfSt) : (s.setPerf x).sin = s.sin := (rfl)
@[simp] theorem State.setPerf_br (s : State) (x : PerfSt) : (s.setPerf x).br = s.br := (rfl)
@[simp] theorem State.setPerf_inv (s : State) (x : PerfSt) : (s.setPerf x).inv = s.inv := (rfl)
@[simp] theorem State.setPerf_lahar (s : State) (x : PerfSt) : (s.setPerf x).lahar = s.lahar := (rfl)
@[simp] theorem State.setPerf_engs (s : State) (x : PerfSt) : (s.setPerf x).engs = s.engs := (rfl)
@[simp] theorem State.setPerf_xl (s : State) (x : PerfSt) : (s.setPerf x).xl = s.xl := (rfl)
@[simp] theorem State.setPerf_perf (s : State) (x : PerfSt) : (s.setPerf x).perf = x := (rfl)
@[simp] theorem State.setPerf_lp (s : State) (x : PerfSt) : (s.setPerf x).lp = s.lp := (rfl)
@[simp] theorem State.setPerf_ax (s : State) (x : PerfSt) : (s.setPerf x).ax = s.ax := (rfl)
@[simp] theorem State.setPerf_gey (s : State) (x : PerfSt) : (s.setPerf x).gey = s.gey := (rfl)
@[simp] theorem State.setPerf_dma (s : State) (x : PerfSt) : (s.setPerf x).dma = s.dma := (rfl)
@[simp] theorem State.setPerf_can (s : State) (x : PerfSt) : (s.setPerf x).can = s.can := (rfl)
@[simp] theorem State.setPerf_eth (s : State) (x : PerfSt) : (s.setPerf x).eth = s.eth := (rfl)
@[simp] theorem State.setPerf_lv (s : State) (x : PerfSt) : (s.setPerf x).lv = s.lv := (rfl)
@[simp] theorem State.setPerf_mdio (s : State) (x : PerfSt) : (s.setPerf x).mdio = s.mdio := (rfl)
@[simp] theorem State.setPerf_twi (s : State) (x : PerfSt) : (s.setPerf x).twi = s.twi := (rfl)
@[simp] theorem State.setPerf_masters (s : State) (x : PerfSt) : (s.setPerf x).masters = s.masters := (rfl)
@[simp] theorem State.setPerf_tau (s : State) (x : PerfSt) : (s.setPerf x).tau = s.tau := (rfl)
@[simp] theorem State.setPerf_tauDev (s : State) (x : PerfSt) : (s.setPerf x).tauDev = s.tauDev := (rfl)
@[simp] theorem State.setPerf_target (s : State) (x : PerfSt) : (s.setPerf x).target = s.target := (rfl)
@[simp] theorem State.setPerf_cycling (s : State) (x : PerfSt) : (s.setPerf x).cycling = s.cycling := (rfl)
@[simp] theorem State.setPerf_firstCycle (s : State) (x : PerfSt) : (s.setPerf x).firstCycle = s.firstCycle := (rfl)
@[simp] theorem State.setPerf_rd (s : State) (x : PerfSt) : (s.setPerf x).rd = s.rd := (rfl)
@[simp] theorem State.setPerf_byte (s : State) (x : PerfSt) : (s.setPerf x).byte = s.byte := (rfl)
@[simp] theorem State.setPerf_page (s : State) (x : PerfSt) : (s.setPerf x).page = s.page := (rfl)
@[simp] theorem State.setPerf_rdStage (s : State) (x : PerfSt) : (s.setPerf x).rdStage = s.rdStage := (rfl)
@[simp] theorem State.setPerf_eccAt (s : State) (x : PerfSt) : (s.setPerf x).eccAt = s.eccAt := (rfl)
@[simp] theorem State.setPerf_branch (s : State) (x : PerfSt) : (s.setPerf x).branch = s.branch := (rfl)
@[simp] theorem State.setPerf_eng (s : State) (x : PerfSt) : (s.setPerf x).eng = s.eng := (rfl)
@[simp] theorem State.setPerf_fdCh (s : State) (x : PerfSt) : (s.setPerf x).fdCh = s.fdCh := (rfl)
@[simp] theorem State.setPerf_axSt (s : State) (x : PerfSt) : (s.setPerf x).axSt = s.axSt := (rfl)
@[simp] theorem State.setPerf_canSt (s : State) (x : PerfSt) : (s.setPerf x).canSt = s.canSt := (rfl)
@[simp] theorem State.setPerf_ethSt (s : State) (x : PerfSt) : (s.setPerf x).ethSt = s.ethSt := (rfl)
@[simp] theorem State.setPerf_dmaCh (s : State) (x : PerfSt) : (s.setPerf x).dmaCh = s.dmaCh := (rfl)

/-! ### setLp -/

@[simp] theorem State.setLp_pending (s : State) (x : LpSt) : (s.setLp x).pending = s.pending := (rfl)
@[simp] theorem State.setLp_now (s : State) (x : LpSt) : (s.setLp x).now = s.now := (rfl)
@[simp] theorem State.setLp_freeCtr (s : State) (x : LpSt) : (s.setLp x).freeCtr = s.freeCtr := (rfl)
@[simp] theorem State.setLp_regs (s : State) (x : LpSt) : (s.setLp x).regs = s.regs := (rfl)
@[simp] theorem State.setLp_stage (s : State) (x : LpSt) : (s.setLp x).stage = s.stage := (rfl)
@[simp] theorem State.setLp_hwSet (s : State) (x : LpSt) : (s.setLp x).hwSet = s.hwSet := (rfl)
@[simp] theorem State.setLp_pages (s : State) (x : LpSt) : (s.setLp x).pages = s.pages := (rfl)
@[simp] theorem State.setLp_shadows (s : State) (x : LpSt) : (s.setLp x).shadows = s.shadows := (rfl)
@[simp] theorem State.setLp_mem (s : State) (x : LpSt) : (s.setLp x).mem = s.mem := (rfl)
@[simp] theorem State.setLp_ecc (s : State) (x : LpSt) : (s.setLp x).ecc = s.ecc := (rfl)
@[simp] theorem State.setLp_fd (s : State) (x : LpSt) : (s.setLp x).fd = s.fd := (rfl)
@[simp] theorem State.setLp_out (s : State) (x : LpSt) : (s.setLp x).out = s.out := (rfl)
@[simp] theorem State.setLp_rst (s : State) (x : LpSt) : (s.setLp x).rst = s.rst := (rfl)
@[simp] theorem State.setLp_pcie (s : State) (x : LpSt) : (s.setLp x).pcie = s.pcie := (rfl)
@[simp] theorem State.setLp_pair (s : State) (x : LpSt) : (s.setLp x).pair = s.pair := (rfl)
@[simp] theorem State.setLp_sin (s : State) (x : LpSt) : (s.setLp x).sin = s.sin := (rfl)
@[simp] theorem State.setLp_br (s : State) (x : LpSt) : (s.setLp x).br = s.br := (rfl)
@[simp] theorem State.setLp_inv (s : State) (x : LpSt) : (s.setLp x).inv = s.inv := (rfl)
@[simp] theorem State.setLp_lahar (s : State) (x : LpSt) : (s.setLp x).lahar = s.lahar := (rfl)
@[simp] theorem State.setLp_engs (s : State) (x : LpSt) : (s.setLp x).engs = s.engs := (rfl)
@[simp] theorem State.setLp_xl (s : State) (x : LpSt) : (s.setLp x).xl = s.xl := (rfl)
@[simp] theorem State.setLp_perf (s : State) (x : LpSt) : (s.setLp x).perf = s.perf := (rfl)
@[simp] theorem State.setLp_lp (s : State) (x : LpSt) : (s.setLp x).lp = x := (rfl)
@[simp] theorem State.setLp_ax (s : State) (x : LpSt) : (s.setLp x).ax = s.ax := (rfl)
@[simp] theorem State.setLp_gey (s : State) (x : LpSt) : (s.setLp x).gey = s.gey := (rfl)
@[simp] theorem State.setLp_dma (s : State) (x : LpSt) : (s.setLp x).dma = s.dma := (rfl)
@[simp] theorem State.setLp_can (s : State) (x : LpSt) : (s.setLp x).can = s.can := (rfl)
@[simp] theorem State.setLp_eth (s : State) (x : LpSt) : (s.setLp x).eth = s.eth := (rfl)
@[simp] theorem State.setLp_lv (s : State) (x : LpSt) : (s.setLp x).lv = s.lv := (rfl)
@[simp] theorem State.setLp_mdio (s : State) (x : LpSt) : (s.setLp x).mdio = s.mdio := (rfl)
@[simp] theorem State.setLp_twi (s : State) (x : LpSt) : (s.setLp x).twi = s.twi := (rfl)
@[simp] theorem State.setLp_masters (s : State) (x : LpSt) : (s.setLp x).masters = s.masters := (rfl)
@[simp] theorem State.setLp_tau (s : State) (x : LpSt) : (s.setLp x).tau = s.tau := (rfl)
@[simp] theorem State.setLp_tauDev (s : State) (x : LpSt) : (s.setLp x).tauDev = s.tauDev := (rfl)
@[simp] theorem State.setLp_target (s : State) (x : LpSt) : (s.setLp x).target = s.target := (rfl)
@[simp] theorem State.setLp_cycling (s : State) (x : LpSt) : (s.setLp x).cycling = s.cycling := (rfl)
@[simp] theorem State.setLp_firstCycle (s : State) (x : LpSt) : (s.setLp x).firstCycle = s.firstCycle := (rfl)
@[simp] theorem State.setLp_rd (s : State) (x : LpSt) : (s.setLp x).rd = s.rd := (rfl)
@[simp] theorem State.setLp_byte (s : State) (x : LpSt) : (s.setLp x).byte = s.byte := (rfl)
@[simp] theorem State.setLp_page (s : State) (x : LpSt) : (s.setLp x).page = s.page := (rfl)
@[simp] theorem State.setLp_rdStage (s : State) (x : LpSt) : (s.setLp x).rdStage = s.rdStage := (rfl)
@[simp] theorem State.setLp_eccAt (s : State) (x : LpSt) : (s.setLp x).eccAt = s.eccAt := (rfl)
@[simp] theorem State.setLp_branch (s : State) (x : LpSt) : (s.setLp x).branch = s.branch := (rfl)
@[simp] theorem State.setLp_eng (s : State) (x : LpSt) : (s.setLp x).eng = s.eng := (rfl)
@[simp] theorem State.setLp_fdCh (s : State) (x : LpSt) : (s.setLp x).fdCh = s.fdCh := (rfl)
@[simp] theorem State.setLp_axSt (s : State) (x : LpSt) : (s.setLp x).axSt = s.axSt := (rfl)
@[simp] theorem State.setLp_canSt (s : State) (x : LpSt) : (s.setLp x).canSt = s.canSt := (rfl)
@[simp] theorem State.setLp_ethSt (s : State) (x : LpSt) : (s.setLp x).ethSt = s.ethSt := (rfl)
@[simp] theorem State.setLp_dmaCh (s : State) (x : LpSt) : (s.setLp x).dmaCh = s.dmaCh := (rfl)

/-! ### setInv -/

@[simp] theorem State.setInv_pending (s : State) (x : InvSt) : (s.setInv x).pending = s.pending := (rfl)
@[simp] theorem State.setInv_now (s : State) (x : InvSt) : (s.setInv x).now = s.now := (rfl)
@[simp] theorem State.setInv_freeCtr (s : State) (x : InvSt) : (s.setInv x).freeCtr = s.freeCtr := (rfl)
@[simp] theorem State.setInv_regs (s : State) (x : InvSt) : (s.setInv x).regs = s.regs := (rfl)
@[simp] theorem State.setInv_stage (s : State) (x : InvSt) : (s.setInv x).stage = s.stage := (rfl)
@[simp] theorem State.setInv_hwSet (s : State) (x : InvSt) : (s.setInv x).hwSet = s.hwSet := (rfl)
@[simp] theorem State.setInv_pages (s : State) (x : InvSt) : (s.setInv x).pages = s.pages := (rfl)
@[simp] theorem State.setInv_shadows (s : State) (x : InvSt) : (s.setInv x).shadows = s.shadows := (rfl)
@[simp] theorem State.setInv_mem (s : State) (x : InvSt) : (s.setInv x).mem = s.mem := (rfl)
@[simp] theorem State.setInv_ecc (s : State) (x : InvSt) : (s.setInv x).ecc = s.ecc := (rfl)
@[simp] theorem State.setInv_fd (s : State) (x : InvSt) : (s.setInv x).fd = s.fd := (rfl)
@[simp] theorem State.setInv_out (s : State) (x : InvSt) : (s.setInv x).out = s.out := (rfl)
@[simp] theorem State.setInv_rst (s : State) (x : InvSt) : (s.setInv x).rst = s.rst := (rfl)
@[simp] theorem State.setInv_pcie (s : State) (x : InvSt) : (s.setInv x).pcie = s.pcie := (rfl)
@[simp] theorem State.setInv_pair (s : State) (x : InvSt) : (s.setInv x).pair = s.pair := (rfl)
@[simp] theorem State.setInv_sin (s : State) (x : InvSt) : (s.setInv x).sin = s.sin := (rfl)
@[simp] theorem State.setInv_br (s : State) (x : InvSt) : (s.setInv x).br = s.br := (rfl)
@[simp] theorem State.setInv_inv (s : State) (x : InvSt) : (s.setInv x).inv = x := (rfl)
@[simp] theorem State.setInv_lahar (s : State) (x : InvSt) : (s.setInv x).lahar = s.lahar := (rfl)
@[simp] theorem State.setInv_engs (s : State) (x : InvSt) : (s.setInv x).engs = s.engs := (rfl)
@[simp] theorem State.setInv_xl (s : State) (x : InvSt) : (s.setInv x).xl = s.xl := (rfl)
@[simp] theorem State.setInv_perf (s : State) (x : InvSt) : (s.setInv x).perf = s.perf := (rfl)
@[simp] theorem State.setInv_lp (s : State) (x : InvSt) : (s.setInv x).lp = s.lp := (rfl)
@[simp] theorem State.setInv_ax (s : State) (x : InvSt) : (s.setInv x).ax = s.ax := (rfl)
@[simp] theorem State.setInv_gey (s : State) (x : InvSt) : (s.setInv x).gey = s.gey := (rfl)
@[simp] theorem State.setInv_dma (s : State) (x : InvSt) : (s.setInv x).dma = s.dma := (rfl)
@[simp] theorem State.setInv_can (s : State) (x : InvSt) : (s.setInv x).can = s.can := (rfl)
@[simp] theorem State.setInv_eth (s : State) (x : InvSt) : (s.setInv x).eth = s.eth := (rfl)
@[simp] theorem State.setInv_lv (s : State) (x : InvSt) : (s.setInv x).lv = s.lv := (rfl)
@[simp] theorem State.setInv_mdio (s : State) (x : InvSt) : (s.setInv x).mdio = s.mdio := (rfl)
@[simp] theorem State.setInv_twi (s : State) (x : InvSt) : (s.setInv x).twi = s.twi := (rfl)
@[simp] theorem State.setInv_masters (s : State) (x : InvSt) : (s.setInv x).masters = s.masters := (rfl)
@[simp] theorem State.setInv_tau (s : State) (x : InvSt) : (s.setInv x).tau = s.tau := (rfl)
@[simp] theorem State.setInv_tauDev (s : State) (x : InvSt) : (s.setInv x).tauDev = s.tauDev := (rfl)
@[simp] theorem State.setInv_target (s : State) (x : InvSt) : (s.setInv x).target = s.target := (rfl)
@[simp] theorem State.setInv_cycling (s : State) (x : InvSt) : (s.setInv x).cycling = s.cycling := (rfl)
@[simp] theorem State.setInv_firstCycle (s : State) (x : InvSt) : (s.setInv x).firstCycle = s.firstCycle := (rfl)
@[simp] theorem State.setInv_rd (s : State) (x : InvSt) : (s.setInv x).rd = s.rd := (rfl)
@[simp] theorem State.setInv_byte (s : State) (x : InvSt) : (s.setInv x).byte = s.byte := (rfl)
@[simp] theorem State.setInv_page (s : State) (x : InvSt) : (s.setInv x).page = s.page := (rfl)
@[simp] theorem State.setInv_rdStage (s : State) (x : InvSt) : (s.setInv x).rdStage = s.rdStage := (rfl)
@[simp] theorem State.setInv_eccAt (s : State) (x : InvSt) : (s.setInv x).eccAt = s.eccAt := (rfl)
@[simp] theorem State.setInv_branch (s : State) (x : InvSt) : (s.setInv x).branch = s.branch := (rfl)
@[simp] theorem State.setInv_eng (s : State) (x : InvSt) : (s.setInv x).eng = s.eng := (rfl)
@[simp] theorem State.setInv_fdCh (s : State) (x : InvSt) : (s.setInv x).fdCh = s.fdCh := (rfl)
@[simp] theorem State.setInv_axSt (s : State) (x : InvSt) : (s.setInv x).axSt = s.axSt := (rfl)
@[simp] theorem State.setInv_canSt (s : State) (x : InvSt) : (s.setInv x).canSt = s.canSt := (rfl)
@[simp] theorem State.setInv_ethSt (s : State) (x : InvSt) : (s.setInv x).ethSt = s.ethSt := (rfl)
@[simp] theorem State.setInv_dmaCh (s : State) (x : InvSt) : (s.setInv x).dmaCh = s.dmaCh := (rfl)

/-! ### setPair -/

@[simp] theorem State.setPair_pending (s : State) (x : PairSt) : (s.setPair x).pending = s.pending := (rfl)
@[simp] theorem State.setPair_now (s : State) (x : PairSt) : (s.setPair x).now = s.now := (rfl)
@[simp] theorem State.setPair_freeCtr (s : State) (x : PairSt) : (s.setPair x).freeCtr = s.freeCtr := (rfl)
@[simp] theorem State.setPair_regs (s : State) (x : PairSt) : (s.setPair x).regs = s.regs := (rfl)
@[simp] theorem State.setPair_stage (s : State) (x : PairSt) : (s.setPair x).stage = s.stage := (rfl)
@[simp] theorem State.setPair_hwSet (s : State) (x : PairSt) : (s.setPair x).hwSet = s.hwSet := (rfl)
@[simp] theorem State.setPair_pages (s : State) (x : PairSt) : (s.setPair x).pages = s.pages := (rfl)
@[simp] theorem State.setPair_shadows (s : State) (x : PairSt) : (s.setPair x).shadows = s.shadows := (rfl)
@[simp] theorem State.setPair_mem (s : State) (x : PairSt) : (s.setPair x).mem = s.mem := (rfl)
@[simp] theorem State.setPair_ecc (s : State) (x : PairSt) : (s.setPair x).ecc = s.ecc := (rfl)
@[simp] theorem State.setPair_fd (s : State) (x : PairSt) : (s.setPair x).fd = s.fd := (rfl)
@[simp] theorem State.setPair_out (s : State) (x : PairSt) : (s.setPair x).out = s.out := (rfl)
@[simp] theorem State.setPair_rst (s : State) (x : PairSt) : (s.setPair x).rst = s.rst := (rfl)
@[simp] theorem State.setPair_pcie (s : State) (x : PairSt) : (s.setPair x).pcie = s.pcie := (rfl)
@[simp] theorem State.setPair_pair (s : State) (x : PairSt) : (s.setPair x).pair = x := (rfl)
@[simp] theorem State.setPair_sin (s : State) (x : PairSt) : (s.setPair x).sin = s.sin := (rfl)
@[simp] theorem State.setPair_br (s : State) (x : PairSt) : (s.setPair x).br = s.br := (rfl)
@[simp] theorem State.setPair_inv (s : State) (x : PairSt) : (s.setPair x).inv = s.inv := (rfl)
@[simp] theorem State.setPair_lahar (s : State) (x : PairSt) : (s.setPair x).lahar = s.lahar := (rfl)
@[simp] theorem State.setPair_engs (s : State) (x : PairSt) : (s.setPair x).engs = s.engs := (rfl)
@[simp] theorem State.setPair_xl (s : State) (x : PairSt) : (s.setPair x).xl = s.xl := (rfl)
@[simp] theorem State.setPair_perf (s : State) (x : PairSt) : (s.setPair x).perf = s.perf := (rfl)
@[simp] theorem State.setPair_lp (s : State) (x : PairSt) : (s.setPair x).lp = s.lp := (rfl)
@[simp] theorem State.setPair_ax (s : State) (x : PairSt) : (s.setPair x).ax = s.ax := (rfl)
@[simp] theorem State.setPair_gey (s : State) (x : PairSt) : (s.setPair x).gey = s.gey := (rfl)
@[simp] theorem State.setPair_dma (s : State) (x : PairSt) : (s.setPair x).dma = s.dma := (rfl)
@[simp] theorem State.setPair_can (s : State) (x : PairSt) : (s.setPair x).can = s.can := (rfl)
@[simp] theorem State.setPair_eth (s : State) (x : PairSt) : (s.setPair x).eth = s.eth := (rfl)
@[simp] theorem State.setPair_lv (s : State) (x : PairSt) : (s.setPair x).lv = s.lv := (rfl)
@[simp] theorem State.setPair_mdio (s : State) (x : PairSt) : (s.setPair x).mdio = s.mdio := (rfl)
@[simp] theorem State.setPair_twi (s : State) (x : PairSt) : (s.setPair x).twi = s.twi := (rfl)
@[simp] theorem State.setPair_masters (s : State) (x : PairSt) : (s.setPair x).masters = s.masters := (rfl)
@[simp] theorem State.setPair_tau (s : State) (x : PairSt) : (s.setPair x).tau = s.tau := (rfl)
@[simp] theorem State.setPair_tauDev (s : State) (x : PairSt) : (s.setPair x).tauDev = s.tauDev := (rfl)
@[simp] theorem State.setPair_target (s : State) (x : PairSt) : (s.setPair x).target = s.target := (rfl)
@[simp] theorem State.setPair_cycling (s : State) (x : PairSt) : (s.setPair x).cycling = s.cycling := (rfl)
@[simp] theorem State.setPair_firstCycle (s : State) (x : PairSt) : (s.setPair x).firstCycle = s.firstCycle := (rfl)
@[simp] theorem State.setPair_rd (s : State) (x : PairSt) : (s.setPair x).rd = s.rd := (rfl)
@[simp] theorem State.setPair_byte (s : State) (x : PairSt) : (s.setPair x).byte = s.byte := (rfl)
@[simp] theorem State.setPair_page (s : State) (x : PairSt) : (s.setPair x).page = s.page := (rfl)
@[simp] theorem State.setPair_rdStage (s : State) (x : PairSt) : (s.setPair x).rdStage = s.rdStage := (rfl)
@[simp] theorem State.setPair_eccAt (s : State) (x : PairSt) : (s.setPair x).eccAt = s.eccAt := (rfl)
@[simp] theorem State.setPair_branch (s : State) (x : PairSt) : (s.setPair x).branch = s.branch := (rfl)
@[simp] theorem State.setPair_eng (s : State) (x : PairSt) : (s.setPair x).eng = s.eng := (rfl)
@[simp] theorem State.setPair_fdCh (s : State) (x : PairSt) : (s.setPair x).fdCh = s.fdCh := (rfl)
@[simp] theorem State.setPair_axSt (s : State) (x : PairSt) : (s.setPair x).axSt = s.axSt := (rfl)
@[simp] theorem State.setPair_canSt (s : State) (x : PairSt) : (s.setPair x).canSt = s.canSt := (rfl)
@[simp] theorem State.setPair_ethSt (s : State) (x : PairSt) : (s.setPair x).ethSt = s.ethSt := (rfl)
@[simp] theorem State.setPair_dmaCh (s : State) (x : PairSt) : (s.setPair x).dmaCh = s.dmaCh := (rfl)

/-! ### setSin -/

@[simp] theorem State.setSin_pending (s : State) (x : SinSt) : (s.setSin x).pending = s.pending := (rfl)
@[simp] theorem State.setSin_now (s : State) (x : SinSt) : (s.setSin x).now = s.now := (rfl)
@[simp] theorem State.setSin_freeCtr (s : State) (x : SinSt) : (s.setSin x).freeCtr = s.freeCtr := (rfl)
@[simp] theorem State.setSin_regs (s : State) (x : SinSt) : (s.setSin x).regs = s.regs := (rfl)
@[simp] theorem State.setSin_stage (s : State) (x : SinSt) : (s.setSin x).stage = s.stage := (rfl)
@[simp] theorem State.setSin_hwSet (s : State) (x : SinSt) : (s.setSin x).hwSet = s.hwSet := (rfl)
@[simp] theorem State.setSin_pages (s : State) (x : SinSt) : (s.setSin x).pages = s.pages := (rfl)
@[simp] theorem State.setSin_shadows (s : State) (x : SinSt) : (s.setSin x).shadows = s.shadows := (rfl)
@[simp] theorem State.setSin_mem (s : State) (x : SinSt) : (s.setSin x).mem = s.mem := (rfl)
@[simp] theorem State.setSin_ecc (s : State) (x : SinSt) : (s.setSin x).ecc = s.ecc := (rfl)
@[simp] theorem State.setSin_fd (s : State) (x : SinSt) : (s.setSin x).fd = s.fd := (rfl)
@[simp] theorem State.setSin_out (s : State) (x : SinSt) : (s.setSin x).out = s.out := (rfl)
@[simp] theorem State.setSin_rst (s : State) (x : SinSt) : (s.setSin x).rst = s.rst := (rfl)
@[simp] theorem State.setSin_pcie (s : State) (x : SinSt) : (s.setSin x).pcie = s.pcie := (rfl)
@[simp] theorem State.setSin_pair (s : State) (x : SinSt) : (s.setSin x).pair = s.pair := (rfl)
@[simp] theorem State.setSin_sin (s : State) (x : SinSt) : (s.setSin x).sin = x := (rfl)
@[simp] theorem State.setSin_br (s : State) (x : SinSt) : (s.setSin x).br = s.br := (rfl)
@[simp] theorem State.setSin_inv (s : State) (x : SinSt) : (s.setSin x).inv = s.inv := (rfl)
@[simp] theorem State.setSin_lahar (s : State) (x : SinSt) : (s.setSin x).lahar = s.lahar := (rfl)
@[simp] theorem State.setSin_engs (s : State) (x : SinSt) : (s.setSin x).engs = s.engs := (rfl)
@[simp] theorem State.setSin_xl (s : State) (x : SinSt) : (s.setSin x).xl = s.xl := (rfl)
@[simp] theorem State.setSin_perf (s : State) (x : SinSt) : (s.setSin x).perf = s.perf := (rfl)
@[simp] theorem State.setSin_lp (s : State) (x : SinSt) : (s.setSin x).lp = s.lp := (rfl)
@[simp] theorem State.setSin_ax (s : State) (x : SinSt) : (s.setSin x).ax = s.ax := (rfl)
@[simp] theorem State.setSin_gey (s : State) (x : SinSt) : (s.setSin x).gey = s.gey := (rfl)
@[simp] theorem State.setSin_dma (s : State) (x : SinSt) : (s.setSin x).dma = s.dma := (rfl)
@[simp] theorem State.setSin_can (s : State) (x : SinSt) : (s.setSin x).can = s.can := (rfl)
@[simp] theorem State.setSin_eth (s : State) (x : SinSt) : (s.setSin x).eth = s.eth := (rfl)
@[simp] theorem State.setSin_lv (s : State) (x : SinSt) : (s.setSin x).lv = s.lv := (rfl)
@[simp] theorem State.setSin_mdio (s : State) (x : SinSt) : (s.setSin x).mdio = s.mdio := (rfl)
@[simp] theorem State.setSin_twi (s : State) (x : SinSt) : (s.setSin x).twi = s.twi := (rfl)
@[simp] theorem State.setSin_masters (s : State) (x : SinSt) : (s.setSin x).masters = s.masters := (rfl)
@[simp] theorem State.setSin_tau (s : State) (x : SinSt) : (s.setSin x).tau = s.tau := (rfl)
@[simp] theorem State.setSin_tauDev (s : State) (x : SinSt) : (s.setSin x).tauDev = s.tauDev := (rfl)
@[simp] theorem State.setSin_target (s : State) (x : SinSt) : (s.setSin x).target = s.target := (rfl)
@[simp] theorem State.setSin_cycling (s : State) (x : SinSt) : (s.setSin x).cycling = s.cycling := (rfl)
@[simp] theorem State.setSin_firstCycle (s : State) (x : SinSt) : (s.setSin x).firstCycle = s.firstCycle := (rfl)
@[simp] theorem State.setSin_rd (s : State) (x : SinSt) : (s.setSin x).rd = s.rd := (rfl)
@[simp] theorem State.setSin_byte (s : State) (x : SinSt) : (s.setSin x).byte = s.byte := (rfl)
@[simp] theorem State.setSin_page (s : State) (x : SinSt) : (s.setSin x).page = s.page := (rfl)
@[simp] theorem State.setSin_rdStage (s : State) (x : SinSt) : (s.setSin x).rdStage = s.rdStage := (rfl)
@[simp] theorem State.setSin_eccAt (s : State) (x : SinSt) : (s.setSin x).eccAt = s.eccAt := (rfl)
@[simp] theorem State.setSin_branch (s : State) (x : SinSt) : (s.setSin x).branch = s.branch := (rfl)
@[simp] theorem State.setSin_eng (s : State) (x : SinSt) : (s.setSin x).eng = s.eng := (rfl)
@[simp] theorem State.setSin_fdCh (s : State) (x : SinSt) : (s.setSin x).fdCh = s.fdCh := (rfl)
@[simp] theorem State.setSin_axSt (s : State) (x : SinSt) : (s.setSin x).axSt = s.axSt := (rfl)
@[simp] theorem State.setSin_canSt (s : State) (x : SinSt) : (s.setSin x).canSt = s.canSt := (rfl)
@[simp] theorem State.setSin_ethSt (s : State) (x : SinSt) : (s.setSin x).ethSt = s.ethSt := (rfl)
@[simp] theorem State.setSin_dmaCh (s : State) (x : SinSt) : (s.setSin x).dmaCh = s.dmaCh := (rfl)

/-! ### setGey -/

@[simp] theorem State.setGey_pending (s : State) (x : GeySt) : (s.setGey x).pending = s.pending := (rfl)
@[simp] theorem State.setGey_now (s : State) (x : GeySt) : (s.setGey x).now = s.now := (rfl)
@[simp] theorem State.setGey_freeCtr (s : State) (x : GeySt) : (s.setGey x).freeCtr = s.freeCtr := (rfl)
@[simp] theorem State.setGey_regs (s : State) (x : GeySt) : (s.setGey x).regs = s.regs := (rfl)
@[simp] theorem State.setGey_stage (s : State) (x : GeySt) : (s.setGey x).stage = s.stage := (rfl)
@[simp] theorem State.setGey_hwSet (s : State) (x : GeySt) : (s.setGey x).hwSet = s.hwSet := (rfl)
@[simp] theorem State.setGey_pages (s : State) (x : GeySt) : (s.setGey x).pages = s.pages := (rfl)
@[simp] theorem State.setGey_shadows (s : State) (x : GeySt) : (s.setGey x).shadows = s.shadows := (rfl)
@[simp] theorem State.setGey_mem (s : State) (x : GeySt) : (s.setGey x).mem = s.mem := (rfl)
@[simp] theorem State.setGey_ecc (s : State) (x : GeySt) : (s.setGey x).ecc = s.ecc := (rfl)
@[simp] theorem State.setGey_fd (s : State) (x : GeySt) : (s.setGey x).fd = s.fd := (rfl)
@[simp] theorem State.setGey_out (s : State) (x : GeySt) : (s.setGey x).out = s.out := (rfl)
@[simp] theorem State.setGey_rst (s : State) (x : GeySt) : (s.setGey x).rst = s.rst := (rfl)
@[simp] theorem State.setGey_pcie (s : State) (x : GeySt) : (s.setGey x).pcie = s.pcie := (rfl)
@[simp] theorem State.setGey_pair (s : State) (x : GeySt) : (s.setGey x).pair = s.pair := (rfl)
@[simp] theorem State.setGey_sin (s : State) (x : GeySt) : (s.setGey x).sin = s.sin := (rfl)
@[simp] theorem State.setGey_br (s : State) (x : GeySt) : (s.setGey x).br = s.br := (rfl)
@[simp] theorem State.setGey_inv (s : State) (x : GeySt) : (s.setGey x).inv = s.inv := (rfl)
@[simp] theorem State.setGey_lahar (s : State) (x : GeySt) : (s.setGey x).lahar = s.lahar := (rfl)
@[simp] theorem State.setGey_engs (s : State) (x : GeySt) : (s.setGey x).engs = s.engs := (rfl)
@[simp] theorem State.setGey_xl (s : State) (x : GeySt) : (s.setGey x).xl = s.xl := (rfl)
@[simp] theorem State.setGey_perf (s : State) (x : GeySt) : (s.setGey x).perf = s.perf := (rfl)
@[simp] theorem State.setGey_lp (s : State) (x : GeySt) : (s.setGey x).lp = s.lp := (rfl)
@[simp] theorem State.setGey_ax (s : State) (x : GeySt) : (s.setGey x).ax = s.ax := (rfl)
@[simp] theorem State.setGey_gey (s : State) (x : GeySt) : (s.setGey x).gey = x := (rfl)
@[simp] theorem State.setGey_dma (s : State) (x : GeySt) : (s.setGey x).dma = s.dma := (rfl)
@[simp] theorem State.setGey_can (s : State) (x : GeySt) : (s.setGey x).can = s.can := (rfl)
@[simp] theorem State.setGey_eth (s : State) (x : GeySt) : (s.setGey x).eth = s.eth := (rfl)
@[simp] theorem State.setGey_lv (s : State) (x : GeySt) : (s.setGey x).lv = s.lv := (rfl)
@[simp] theorem State.setGey_mdio (s : State) (x : GeySt) : (s.setGey x).mdio = s.mdio := (rfl)
@[simp] theorem State.setGey_twi (s : State) (x : GeySt) : (s.setGey x).twi = s.twi := (rfl)
@[simp] theorem State.setGey_masters (s : State) (x : GeySt) : (s.setGey x).masters = s.masters := (rfl)
@[simp] theorem State.setGey_tau (s : State) (x : GeySt) : (s.setGey x).tau = s.tau := (rfl)
@[simp] theorem State.setGey_tauDev (s : State) (x : GeySt) : (s.setGey x).tauDev = s.tauDev := (rfl)
@[simp] theorem State.setGey_target (s : State) (x : GeySt) : (s.setGey x).target = s.target := (rfl)
@[simp] theorem State.setGey_cycling (s : State) (x : GeySt) : (s.setGey x).cycling = s.cycling := (rfl)
@[simp] theorem State.setGey_firstCycle (s : State) (x : GeySt) : (s.setGey x).firstCycle = s.firstCycle := (rfl)
@[simp] theorem State.setGey_rd (s : State) (x : GeySt) : (s.setGey x).rd = s.rd := (rfl)
@[simp] theorem State.setGey_byte (s : State) (x : GeySt) : (s.setGey x).byte = s.byte := (rfl)
@[simp] theorem State.setGey_page (s : State) (x : GeySt) : (s.setGey x).page = s.page := (rfl)
@[simp] theorem State.setGey_rdStage (s : State) (x : GeySt) : (s.setGey x).rdStage = s.rdStage := (rfl)
@[simp] theorem State.setGey_eccAt (s : State) (x : GeySt) : (s.setGey x).eccAt = s.eccAt := (rfl)
@[simp] theorem State.setGey_branch (s : State) (x : GeySt) : (s.setGey x).branch = s.branch := (rfl)
@[simp] theorem State.setGey_eng (s : State) (x : GeySt) : (s.setGey x).eng = s.eng := (rfl)
@[simp] theorem State.setGey_fdCh (s : State) (x : GeySt) : (s.setGey x).fdCh = s.fdCh := (rfl)
@[simp] theorem State.setGey_axSt (s : State) (x : GeySt) : (s.setGey x).axSt = s.axSt := (rfl)
@[simp] theorem State.setGey_canSt (s : State) (x : GeySt) : (s.setGey x).canSt = s.canSt := (rfl)
@[simp] theorem State.setGey_ethSt (s : State) (x : GeySt) : (s.setGey x).ethSt = s.ethSt := (rfl)
@[simp] theorem State.setGey_dmaCh (s : State) (x : GeySt) : (s.setGey x).dmaCh = s.dmaCh := (rfl)

/-! ### setAx -/

@[simp] theorem State.setAx_pending (s : State) (a : Nat) (x : AxSt) : (s.setAx a x).pending = s.pending := (rfl)
@[simp] theorem State.setAx_now (s : State) (a : Nat) (x : AxSt) : (s.setAx a x).now = s.now := (rfl)
@[simp] theorem State.setAx_freeCtr (s : State) (a : Nat) (x : AxSt) : (s.setAx a x).freeCtr = s.freeCtr := (rfl)
@[simp] theorem State.setAx_regs (s : State) (a : Nat) (x : AxSt) : (s.setAx a x).regs = s.regs := (rfl)
@[simp] theorem State.setAx_stage (s : State) (a : Nat) (x : AxSt) : (s.setAx a x).stage = s.stage := (rfl)
@[simp] theorem State.setAx_hwSet (s : State) (a : Nat) (x : AxSt) : (s.setAx a x).hwSet = s.hwSet := (rfl)
@[simp] theorem State.setAx_pages (s : State) (a : Nat) (x : AxSt) : (s.setAx a x).pages = s.pages := (rfl)
@[simp] theorem State.setAx_shadows (s : State) (a : Nat) (x : AxSt) : (s.setAx a x).shadows = s.shadows := (rfl)
@[simp] theorem State.setAx_mem (s : State) (a : Nat) (x : AxSt) : (s.setAx a x).mem = s.mem := (rfl)
@[simp] theorem State.setAx_ecc (s : State) (a : Nat) (x : AxSt) : (s.setAx a x).ecc = s.ecc := (rfl)
@[simp] theorem State.setAx_fd (s : State) (a : Nat) (x : AxSt) : (s.setAx a x).fd = s.fd := (rfl)
@[simp] theorem State.setAx_out (s : State) (a : Nat) (x : AxSt) : (s.setAx a x).out = s.out := (rfl)
@[simp] theorem State.setAx_rst (s : State) (a : Nat) (x : AxSt) : (s.setAx a x).rst = s.rst := (rfl)
@[simp] theorem State.setAx_pcie (s : State) (a : Nat) (x : AxSt) : (s.setAx a x).pcie = s.pcie := (rfl)
@[simp] theorem State.setAx_pair (s : State) (a : Nat) (x : AxSt) : (s.setAx a x).pair = s.pair := (rfl)
@[simp] theorem State.setAx_sin (s : State) (a : Nat) (x : AxSt) : (s.setAx a x).sin = s.sin := (rfl)
@[simp] theorem State.setAx_br (s : State) (a : Nat) (x : AxSt) : (s.setAx a x).br = s.br := (rfl)
@[simp] theorem State.setAx_inv (s : State) (a : Nat) (x : AxSt) : (s.setAx a x).inv = s.inv := (rfl)
@[simp] theorem State.setAx_lahar (s : State) (a : Nat) (x : AxSt) : (s.setAx a x).lahar = s.lahar := (rfl)
@[simp] theorem State.setAx_engs (s : State) (a : Nat) (x : AxSt) : (s.setAx a x).engs = s.engs := (rfl)
@[simp] theorem State.setAx_xl (s : State) (a : Nat) (x : AxSt) : (s.setAx a x).xl = s.xl := (rfl)
@[simp] theorem State.setAx_perf (s : State) (a : Nat) (x : AxSt) : (s.setAx a x).perf = s.perf := (rfl)
@[simp] theorem State.setAx_lp (s : State) (a : Nat) (x : AxSt) : (s.setAx a x).lp = s.lp := (rfl)
@[simp] theorem State.setAx_ax (s : State) (a : Nat) (x : AxSt) : (s.setAx a x).ax = Tab.set s.ax a x {} := (rfl)
@[simp] theorem State.setAx_gey (s : State) (a : Nat) (x : AxSt) : (s.setAx a x).gey = s.gey := (rfl)
@[simp] theorem State.setAx_dma (s : State) (a : Nat) (x : AxSt) : (s.setAx a x).dma = s.dma := (rfl)
@[simp] theorem State.setAx_can (s : State) (a : Nat) (x : AxSt) : (s.setAx a x).can = s.can := (rfl)
@[simp] theorem State.setAx_eth (s : State) (a : Nat) (x : AxSt) : (s.setAx a x).eth = s.eth := (rfl)
@[simp] theorem State.setAx_lv (s : State) (a : Nat) (x : AxSt) : (s.setAx a x).lv = s.lv := (rfl)
@[simp] theorem State.setAx_mdio (s : State) (a : Nat) (x : AxSt) : (s.setAx a x).mdio = s.mdio := (rfl)
@[simp] theorem State.setAx_twi (s : State) (a : Nat) (x : AxSt) : (s.setAx a x).twi = s.twi := (rfl)
@[simp] theorem State.setAx_masters (s : State) (a : Nat) (x : AxSt) : (s.setAx a x).masters = s.masters := (rfl)
@[simp] theorem State.setAx_tau (s : State) (a : Nat) (x : AxSt) : (s.setAx a x).tau = s.tau := (rfl)
@[simp] theorem State.setAx_tauDev (s : State) (a : Nat) (x : AxSt) : (s.setAx a x).tauDev = s.tauDev := (rfl)
@[simp] theorem State.setAx_target (s : State) (a : Nat) (x : AxSt) : (s.setAx a x).target = s.target := (rfl)
@[simp] theorem State.setAx_cycling (s : State) (a : Nat) (x : AxSt) : (s.setAx a x).cycling = s.cycling := (rfl)
@[simp] theorem State.setAx_firstCycle (s : State) (a : Nat) (x : AxSt) : (s.setAx a x).firstCycle = s.firstCycle := (rfl)
@[simp] theorem State.setAx_rd (s : State) (a : Nat) (x : AxSt) : (s.setAx a x).rd = s.rd := (rfl)
@[simp] theorem State.setAx_byte (s : State) (a : Nat) (x : AxSt) : (s.setAx a x).byte = s.byte := (rfl)
@[simp] theorem State.setAx_page (s : State) (a : Nat) (x : AxSt) : (s.setAx a x).page = s.page := (rfl)
@[simp] theorem State.setAx_rdStage (s : State) (a : Nat) (x : AxSt) : (s.setAx a x).rdStage = s.rdStage := (rfl)
@[simp] theorem State.setAx_eccAt (s : State) (a : Nat) (x : AxSt) : (s.setAx a x).eccAt = s.eccAt := (rfl)
@[simp] theorem State.setAx_branch (s : State) (a : Nat) (x : AxSt) : (s.setAx a x).branch = s.branch := (rfl)
@[simp] theorem State.setAx_eng (s : State) (a : Nat) (x : AxSt) : (s.setAx a x).eng = s.eng := (rfl)
@[simp] theorem State.setAx_fdCh (s : State) (a : Nat) (x : AxSt) : (s.setAx a x).fdCh = s.fdCh := (rfl)
@[simp] theorem State.setAx_canSt (s : State) (a : Nat) (x : AxSt) : (s.setAx a x).canSt = s.canSt := (rfl)
@[simp] theorem State.setAx_ethSt (s : State) (a : Nat) (x : AxSt) : (s.setAx a x).ethSt = s.ethSt := (rfl)
@[simp] theorem State.setAx_dmaCh (s : State) (a : Nat) (x : AxSt) : (s.setAx a x).dmaCh = s.dmaCh := (rfl)

/-! ### setCan -/

@[simp] theorem State.setCan_pending (s : State) (n : Nat) (x : CanSt) : (s.setCan n x).pending = s.pending := (rfl)
@[simp] theorem State.setCan_now (s : State) (n : Nat) (x : CanSt) : (s.setCan n x).now = s.now := (rfl)
@[simp] theorem State.setCan_freeCtr (s : State) (n : Nat) (x : CanSt) : (s.setCan n x).freeCtr = s.freeCtr := (rfl)
@[simp] theorem State.setCan_regs (s : State) (n : Nat) (x : CanSt) : (s.setCan n x).regs = s.regs := (rfl)
@[simp] theorem State.setCan_stage (s : State) (n : Nat) (x : CanSt) : (s.setCan n x).stage = s.stage := (rfl)
@[simp] theorem State.setCan_hwSet (s : State) (n : Nat) (x : CanSt) : (s.setCan n x).hwSet = s.hwSet := (rfl)
@[simp] theorem State.setCan_pages (s : State) (n : Nat) (x : CanSt) : (s.setCan n x).pages = s.pages := (rfl)
@[simp] theorem State.setCan_shadows (s : State) (n : Nat) (x : CanSt) : (s.setCan n x).shadows = s.shadows := (rfl)
@[simp] theorem State.setCan_mem (s : State) (n : Nat) (x : CanSt) : (s.setCan n x).mem = s.mem := (rfl)
@[simp] theorem State.setCan_ecc (s : State) (n : Nat) (x : CanSt) : (s.setCan n x).ecc = s.ecc := (rfl)
@[simp] theorem State.setCan_fd (s : State) (n : Nat) (x : CanSt) : (s.setCan n x).fd = s.fd := (rfl)
@[simp] theorem State.setCan_out (s : State) (n : Nat) (x : CanSt) : (s.setCan n x).out = s.out := (rfl)
@[simp] theorem State.setCan_rst (s : State) (n : Nat) (x : CanSt) : (s.setCan n x).rst = s.rst := (rfl)
@[simp] theorem State.setCan_pcie (s : State) (n : Nat) (x : CanSt) : (s.setCan n x).pcie = s.pcie := (rfl)
@[simp] theorem State.setCan_pair (s : State) (n : Nat) (x : CanSt) : (s.setCan n x).pair = s.pair := (rfl)
@[simp] theorem State.setCan_sin (s : State) (n : Nat) (x : CanSt) : (s.setCan n x).sin = s.sin := (rfl)
@[simp] theorem State.setCan_br (s : State) (n : Nat) (x : CanSt) : (s.setCan n x).br = s.br := (rfl)
@[simp] theorem State.setCan_inv (s : State) (n : Nat) (x : CanSt) : (s.setCan n x).inv = s.inv := (rfl)
@[simp] theorem State.setCan_lahar (s : State) (n : Nat) (x : CanSt) : (s.setCan n x).lahar = s.lahar := (rfl)
@[simp] theorem State.setCan_engs (s : State) (n : Nat) (x : CanSt) : (s.setCan n x).engs = s.engs := (rfl)
@[simp] theorem State.setCan_xl (s : State) (n : Nat) (x : CanSt) : (s.setCan n x).xl = s.xl := (rfl)
@[simp] theorem State.setCan_perf (s : State) (n : Nat) (x : CanSt) : (s.setCan n x).perf = s.perf := (rfl)
@[simp] theorem State.setCan_lp (s : State) (n : Nat) (x : CanSt) : (s.setCan n x).lp = s.lp := (rfl)
@[simp] theorem State.setCan_ax (s : State) (n : Nat) (x : CanSt) : (s.setCan n x).ax = s.ax := (rfl)
@[simp] theorem State.setCan_gey (s : State) (n : Nat) (x : CanSt) : (s.setCan n x).gey = s.gey := (rfl)
@[simp] theorem State.setCan_dma (s : State) (n : Nat) (x : CanSt) : (s.setCan n x).dma = s.dma := (rfl)
@[simp] theorem State.setCan_can (s : State) (n : Nat) (x : CanSt) : (s.setCan n x).can = Tab.set s.can n x {} := (rfl)
@[simp] theorem State.setCan_eth (s : State) (n : Nat) (x : CanSt) : (s.setCan n x).eth = s.eth := (rfl)
@[simp] theorem State.setCan_lv (s : State) (n : Nat) (x : CanSt) : (s.setCan n x).lv = s.lv := (rfl)
@[simp] theorem State.setCan_mdio (s : State) (n : Nat) (x : CanSt) : (s.setCan n x).mdio = s.mdio := (rfl)
@[simp] theorem State.setCan_twi (s : State) (n : Nat) (x : CanSt) : (s.setCan n x).twi = s.twi := (rfl)
@[simp] theorem State.setCan_masters (s : State) (n : Nat) (x : CanSt) : (s.setCan n x).masters = s.masters := (rfl)
@[simp] theorem State.setCan_tau (s : State) (n : Nat) (x : CanSt) : (s.setCan n x).tau = s.tau := (rfl)
@[simp] theorem State.setCan_tauDev (s : State) (n : Nat) (x : CanSt) : (s.setCan n x).tauDev = s.tauDev := (rfl)
@[simp] theorem State.setCan_target (s : State) (n : Nat) (x : CanSt) : (s.setCan n x).target = s.target := (rfl)
@[simp] theorem State.setCan_cycling (s : State) (n : Nat) (x : CanSt) : (s.setCan n x).cycling = s.cycling := (rfl)
@[simp] theorem State.setCan_firstCycle (s : State) (n : Nat) (x : CanSt) : (s.setCan n x).firstCycle = s.firstCycle := (rfl)
@[simp] theorem State.setCan_rd (s : State) (n : Nat) (x : CanSt) : (s.setCan n x).rd = s.rd := (rfl)
@[simp] theorem State.setCan_byte (s : State) (n : Nat) (x : CanSt) : (s.setCan n x).byte = s.byte := (rfl)
@[simp] theorem State.setCan_page (s : State) (n : Nat) (x : CanSt) : (s.setCan n x).page = s.page := (rfl)
@[simp] theorem State.setCan_rdStage (s : State) (n : Nat) (x : CanSt) : (s.setCan n x).rdStage = s.rdStage := (rfl)
@[simp] theorem State.setCan_eccAt (s : State) (n : Nat) (x : CanSt) : (s.setCan n x).eccAt = s.eccAt := (rfl)
@[simp] theorem State.setCan_branch (s : State) (n : Nat) (x : CanSt) : (s.setCan n x).branch = s.branch := (rfl)
@[simp] theorem State.setCan_eng (s : State) (n : Nat) (x : CanSt) : (s.setCan n x).eng = s.eng := (rfl)
@[simp] theorem State.setCan_fdCh (s : State) (n : Nat) (x : CanSt) : (s.setCan n x).fdCh = s.fdCh := (rfl)
@[simp] theorem State.setCan_axSt (s : State) (n : Nat) (x : CanSt) : (s.setCan n x).axSt = s.axSt := (rfl)
@[simp] theorem State.setCan_ethSt (s : State) (n : Nat) (x : CanSt) : (s.setCan n x).ethSt = s.ethSt := (rfl)
@[simp] theorem State.setCan_dmaCh (s : State) (n : Nat) (x : CanSt) : (s.setCan n x).dmaCh = s.dmaCh := (rfl)

/-! ### setEth -/

@[simp] theorem State.setEth_pending (s : State) (n : Nat) (x : EthSt) : (s.setEth n x).pending = s.pending := (rfl)
@[simp] theorem State.setEth_now (s : State) (n : Nat) (x : EthSt) : (s.setEth n x).now = s.now := (rfl)
@[simp] theorem State.setEth_freeCtr (s : State) (n : Nat) (x : EthSt) : (s.setEth n x).freeCtr = s.freeCtr := (rfl)
@[simp] theorem State.setEth_regs (s : State) (n : Nat) (x : EthSt) : (s.setEth n x).regs = s.regs := (rfl)
@[simp] theorem State.setEth_stage (s : State) (n : Nat) (x : EthSt) : (s.setEth n x).stage = s.stage := (rfl)
@[simp] theorem State.setEth_hwSet (s : State) (n : Nat) (x : EthSt) : (s.setEth n x).hwSet = s.hwSet := (rfl)
@[simp] theorem State.setEth_pages (s : State) (n : Nat) (x : EthSt) : (s.setEth n x).pages = s.pages := (rfl)
@[simp] theorem State.setEth_shadows (s : State) (n : Nat) (x : EthSt) : (s.setEth n x).shadows = s.shadows := (rfl)
@[simp] theorem State.setEth_mem (s : State) (n : Nat) (x : EthSt) : (s.setEth n x).mem = s.mem := (rfl)
@[simp] theorem State.setEth_ecc (s : State) (n : Nat) (x : EthSt) : (s.setEth n x).ecc = s.ecc := (rfl)
@[simp] theorem State.setEth_fd (s : State) (n : Nat) (x : EthSt) : (s.setEth n x).fd = s.fd := (rfl)
@[simp] theorem State.setEth_out (s : State) (n : Nat) (x : EthSt) : (s.setEth n x).out = s.out := (rfl)
@[simp] theorem State.setEth_rst (s : State) (n : Nat) (x : EthSt) : (s.setEth n x).rst = s.rst := (rfl)
@[simp] theorem State.setEth_pcie (s : State) (n : Nat) (x : EthSt) : (s.setEth n x).pcie = s.pcie := (rfl)
@[simp] theorem State.setEth_pair (s : State) (n : Nat) (x : EthSt) : (s.setEth n x).pair = s.pair := (rfl)
@[simp] theorem State.setEth_sin (s : State) (n : Nat) (x : EthSt) : (s.setEth n x).sin = s.sin := (rfl)
@[simp] theorem State.setEth_br (s : State) (n : Nat) (x : EthSt) : (s.setEth n x).br = s.br := (rfl)
@[simp] theorem State.setEth_inv (s : State) (n : Nat) (x : EthSt) : (s.setEth n x).inv = s.inv := (rfl)
@[simp] theorem State.setEth_lahar (s : State) (n : Nat) (x : EthSt) : (s.setEth n x).lahar = s.lahar := (rfl)
@[simp] theorem State.setEth_engs (s : State) (n : Nat) (x : EthSt) : (s.setEth n x).engs = s.engs := (rfl)
@[simp] theorem State.setEth_xl (s : State) (n : Nat) (x : EthSt) : (s.setEth n x).xl = s.xl := (rfl)
@[simp] theorem State.setEth_perf (s : State) (n : Nat) (x : EthSt) : (s.setEth n x).perf = s.perf := (rfl)
@[simp] theorem State.setEth_lp (s : State) (n : Nat) (x : EthSt) : (s.setEth n x).lp = s.lp := (rfl)
@[simp] theorem State.setEth_ax (s : State) (n : Nat) (x : EthSt) : (s.setEth n x).ax = s.ax := (rfl)
@[simp] theorem State.setEth_gey (s : State) (n : Nat) (x : EthSt) : (s.setEth n x).gey = s.gey := (rfl)
@[simp] theorem State.setEth_dma (s : State) (n : Nat) (x : EthSt) : (s.setEth n x).dma = s.dma := (rfl)
@[simp] theorem State.setEth_can (s : State) (n : Nat) (x : EthSt) : (s.setEth n x).can = s.can := (rfl)
@[simp] theorem State.setEth_eth (s : State) (n : Nat) (x : EthSt) : (s.setEth n x).eth = Tab.set s.eth n x {} := (rfl)
@[simp] theorem State.setEth_lv (s : State) (n : Nat) (x : EthSt) : (s.setEth n x).lv = s.lv := (rfl)
@[simp] theorem State.setEth_mdio (s : State) (n : Nat) (x : EthSt) : (s.setEth n x).mdio = s.mdio := (rfl)
@[simp] theorem State.setEth_twi (s : State) (n : Nat) (x : EthSt) : (s.setEth n x).twi = s.twi := (rfl)
@[simp] theorem State.setEth_masters (s : State) (n : Nat) (x : EthSt) : (s.setEth n x).masters = s.masters := (rfl)
@[simp] theorem State.setEth_tau (s : State) (n : Nat) (x : EthSt) : (s.setEth n x).tau = s.tau := (rfl)
@[simp] theorem State.setEth_tauDev (s : State) (n : Nat) (x : EthSt) : (s.setEth n x).tauDev = s.tauDev := (rfl)
@[simp] theorem State.setEth_target (s : State) (n : Nat) (x : EthSt) : (s.setEth n x).target = s.target := (rfl)
@[simp] theorem State.setEth_cycling (s : State) (n : Nat) (x : EthSt) : (s.setEth n x).cycling = s.cycling := (rfl)
@[simp] theorem State.setEth_firstCycle (s : State) (n : Nat) (x : EthSt) : (s.setEth n x).firstCycle = s.firstCycle := (rfl)
@[simp] theorem State.setEth_rd (s : State) (n : Nat) (x : EthSt) : (s.setEth n x).rd = s.rd := (rfl)
@[simp] theorem State.setEth_byte (s : State) (n : Nat) (x : EthSt) : (s.setEth n x).byte = s.byte := (rfl)
@[simp] theorem State.setEth_page (s : State) (n : Nat) (x : EthSt) : (s.setEth n x).page = s.page := (rfl)
@[simp] theorem State.setEth_rdStage (s : State) (n : Nat) (x : EthSt) : (s.setEth n x).rdStage = s.rdStage := (rfl)
@[simp] theorem State.setEth_eccAt (s : State) (n : Nat) (x : EthSt) : (s.setEth n x).eccAt = s.eccAt := (rfl)
@[simp] theorem State.setEth_branch (s : State) (n : Nat) (x : EthSt) : (s.setEth n x).branch = s.branch := (rfl)
@[simp] theorem State.setEth_eng (s : State) (n : Nat) (x : EthSt) : (s.setEth n x).eng = s.eng := (rfl)
@[simp] theorem State.setEth_fdCh (s : State) (n : Nat) (x : EthSt) : (s.setEth n x).fdCh = s.fdCh := (rfl)
@[simp] theorem State.setEth_axSt (s : State) (n : Nat) (x : EthSt) : (s.setEth n x).axSt = s.axSt := (rfl)
@[simp] theorem State.setEth_canSt (s : State) (n : Nat) (x : EthSt) : (s.setEth n x).canSt = s.canSt := (rfl)
@[simp] theorem State.setEth_dmaCh (s : State) (n : Nat) (x : EthSt) : (s.setEth n x).dmaCh = s.dmaCh := (rfl)

/-! ### setBranch -/

@[simp] theorem State.setBranch_pending (s : State) (b : Nat) (x : BranchSt) : (s.setBranch b x).pending = s.pending := (rfl)
@[simp] theorem State.setBranch_now (s : State) (b : Nat) (x : BranchSt) : (s.setBranch b x).now = s.now := (rfl)
@[simp] theorem State.setBranch_freeCtr (s : State) (b : Nat) (x : BranchSt) : (s.setBranch b x).freeCtr = s.freeCtr := (rfl)
@[simp] theorem State.setBranch_regs (s : State) (b : Nat) (x : BranchSt) : (s.setBranch b x).regs = s.regs := (rfl)
@[simp] theorem State.setBranch_stage (s : State) (b : Nat) (x : BranchSt) : (s.setBranch b x).stage = s.stage := (rfl)
@[simp] theorem State.setBranch_hwSet (s : State) (b : Nat) (x : BranchSt) : (s.setBranch b x).hwSet = s.hwSet := (rfl)
@[simp] theorem State.setBranch_pages (s : State) (b : Nat) (x : BranchSt) : (s.setBranch b x).pages = s.pages := (rfl)
@[simp] theorem State.setBranch_shadows (s : State) (b : Nat) (x : BranchSt) : (s.setBranch b x).shadows = s.shadows := (rfl)
@[simp] theorem State.setBranch_mem (s : State) (b : Nat) (x : BranchSt) : (s.setBranch b x).mem = s.mem := (rfl)
@[simp] theorem State.setBranch_ecc (s : State) (b : Nat) (x : BranchSt) : (s.setBranch b x).ecc = s.ecc := (rfl)
@[simp] theorem State.setBranch_fd (s : State) (b : Nat) (x : BranchSt) : (s.setBranch b x).fd = s.fd := (rfl)
@[simp] theorem State.setBranch_out (s : State) (b : Nat) (x : BranchSt) : (s.setBranch b x).out = s.out := (rfl)
@[simp] theorem State.setBranch_rst (s : State) (b : Nat) (x : BranchSt) : (s.setBranch b x).rst = s.rst := (rfl)
@[simp] theorem State.setBranch_pcie (s : State) (b : Nat) (x : BranchSt) : (s.setBranch b x).pcie = s.pcie := (rfl)
@[simp] theorem State.setBranch_pair (s : State) (b : Nat) (x : BranchSt) : (s.setBranch b x).pair = s.pair := (rfl)
@[simp] theorem State.setBranch_sin (s : State) (b : Nat) (x : BranchSt) : (s.setBranch b x).sin = s.sin := (rfl)
@[simp] theorem State.setBranch_br (s : State) (b : Nat) (x : BranchSt) : (s.setBranch b x).br = Tab.set s.br b x {} := (rfl)
@[simp] theorem State.setBranch_inv (s : State) (b : Nat) (x : BranchSt) : (s.setBranch b x).inv = s.inv := (rfl)
@[simp] theorem State.setBranch_lahar (s : State) (b : Nat) (x : BranchSt) : (s.setBranch b x).lahar = s.lahar := (rfl)
@[simp] theorem State.setBranch_engs (s : State) (b : Nat) (x : BranchSt) : (s.setBranch b x).engs = s.engs := (rfl)
@[simp] theorem State.setBranch_xl (s : State) (b : Nat) (x : BranchSt) : (s.setBranch b x).xl = s.xl := (rfl)
@[simp] theorem State.setBranch_perf (s : State) (b : Nat) (x : BranchSt) : (s.setBranch b x).perf = s.perf := (rfl)
@[simp] theorem State.setBranch_lp (s : State) (b : Nat) (x : BranchSt) : (s.setBranch b x).lp = s.lp := (rfl)
@[simp] theorem State.setBranch_ax (s : State) (b : Nat) (x : BranchSt) : (s.setBranch b x).ax = s.ax := (rfl)
@[simp] theorem State.setBranch_gey (s : State) (b : Nat) (x : BranchSt) : (s.setBranch b x).gey = s.gey := (rfl)
@[simp] theorem State.setBranch_dma (s : State) (b : Nat) (x : BranchSt) : (s.setBranch b x).dma = s.dma := (rfl)
@[simp] theorem State.setBranch_can (s : State) (b : Nat) (x : BranchSt) : (s.setBranch b x).can = s.can := (rfl)
@[simp] theorem State.setBranch_eth (s : State) (b : Nat) (x : BranchSt) : (s.setBranch b x).eth = s.eth := (rfl)
@[simp] theorem State.setBranch_lv (s : State) (b : Nat) (x : BranchSt) : (s.setBranch b x).lv = s.lv := (rfl)
@[simp] theorem State.setBranch_mdio (s : State) (b : Nat) (x : BranchSt) : (s.setBranch b x).mdio = s.mdio := (rfl)
@[simp] theorem State.setBranch_twi (s : State) (b : Nat) (x : BranchSt) : (s.setBranch b x).twi = s.twi := (rfl)
@[simp] theorem State.setBranch_masters (s : State) (b : Nat) (x : BranchSt) : (s.setBranch b x).masters = s.masters := (rfl)
@[simp] theorem State.setBranch_tau (s : State) (b : Nat) (x : BranchSt) : (s.setBranch b x).tau = s.tau := (rfl)
@[simp] theorem State.setBranch_tauDev (s : State) (b : Nat) (x : BranchSt) : (s.setBranch b x).tauDev = s.tauDev := (rfl)
@[simp] theorem State.setBranch_target (s : State) (b : Nat) (x : BranchSt) : (s.setBranch b x).target = s.target := (rfl)
@[simp] theorem State.setBranch_cycling (s : State) (b : Nat) (x : BranchSt) : (s.setBranch b x).cycling = s.cycling := (rfl)
@[simp] theorem State.setBranch_firstCycle (s : State) (b : Nat) (x : BranchSt) : (s.setBranch b x).firstCycle = s.firstCycle := (rfl)
@[simp] theorem State.setBranch_rd (s : State) (b : Nat) (x : BranchSt) : (s.setBranch b x).rd = s.rd := (rfl)
@[simp] theorem State.setBranch_byte (s : State) (b : Nat) (x : BranchSt) : (s.setBranch b x).byte = s.byte := (rfl)
@[simp] theorem State.setBranch_page (s : State) (b : Nat) (x : BranchSt) : (s.setBranch b x).page = s.page := (rfl)
@[simp] theorem State.setBranch_rdStage (s : State) (b : Nat) (x : BranchSt) : (s.setBranch b x).rdStage = s.rdStage := (rfl)
@[simp] theorem State.setBranch_eccAt (s : State) (b : Nat) (x : BranchSt) : (s.setBranch b x).eccAt = s.eccAt := (rfl)
@[simp] theorem State.setBranch_eng (s : State) (b : Nat) (x : BranchSt) : (s.setBranch b x).eng = s.eng := (rfl)
@[simp] theorem State.setBranch_fdCh (s : State) (b : Nat) (x : BranchSt) : (s.setBranch b x).fdCh = s.fdCh := (rfl)
@[simp] theorem State.setBranch_axSt (s : State) (b : Nat) (x : BranchSt) : (s.setBranch b x).axSt = s.axSt := (rfl)
@[simp] theorem State.setBranch_canSt (s : State) (b : Nat) (x : BranchSt) : (s.setBranch b x).canSt = s.canSt := (rfl)
@[simp] theorem State.setBranch_ethSt (s : State) (b : Nat) (x : BranchSt) : (s.setBranch b x).ethSt = s.ethSt := (rfl)
@[simp] theorem State.setBranch_dmaCh (s : State) (b : Nat) (x : BranchSt) : (s.setBranch b x).dmaCh = s.dmaCh := (rfl)

/-! ### setDma -/

@[simp] theorem State.setDma_pending (s : State) (c : Nat) (x : DmaCh) : (s.setDma c x).pending = s.pending := (rfl)
@[simp] theorem State.setDma_now (s : State) (c : Nat) (x : DmaCh) : (s.setDma c x).now = s.now := (rfl)
@[simp] theorem State.setDma_freeCtr (s : State) (c : Nat) (x : DmaCh) : (s.setDma c x).freeCtr = s.freeCtr := (rfl)
@[simp] theorem State.setDma_regs (s : State) (c : Nat) (x : DmaCh) : (s.setDma c x).regs = s.regs := (rfl)
@[simp] theorem State.setDma_stage (s : State) (c : Nat) (x : DmaCh) : (s.setDma c x).stage = s.stage := (rfl)
@[simp] theorem State.setDma_hwSet (s : State) (c : Nat) (x : DmaCh) : (s.setDma c x).hwSet = s.hwSet := (rfl)
@[simp] theorem State.setDma_pages (s : State) (c : Nat) (x : DmaCh) : (s.setDma c x).pages = s.pages := (rfl)
@[simp] theorem State.setDma_shadows (s : State) (c : Nat) (x : DmaCh) : (s.setDma c x).shadows = s.shadows := (rfl)
@[simp] theorem State.setDma_mem (s : State) (c : Nat) (x : DmaCh) : (s.setDma c x).mem = s.mem := (rfl)
@[simp] theorem State.setDma_ecc (s : State) (c : Nat) (x : DmaCh) : (s.setDma c x).ecc = s.ecc := (rfl)
@[simp] theorem State.setDma_fd (s : State) (c : Nat) (x : DmaCh) : (s.setDma c x).fd = s.fd := (rfl)
@[simp] theorem State.setDma_out (s : State) (c : Nat) (x : DmaCh) : (s.setDma c x).out = s.out := (rfl)
@[simp] theorem State.setDma_rst (s : State) (c : Nat) (x : DmaCh) : (s.setDma c x).rst = s.rst := (rfl)
@[simp] theorem State.setDma_pcie (s : State) (c : Nat) (x : DmaCh) : (s.setDma c x).pcie = s.pcie := (rfl)
@[simp] theorem State.setDma_pair (s : State) (c : Nat) (x : DmaCh) : (s.setDma c x).pair = s.pair := (rfl)
@[simp] theorem State.setDma_sin (s : State) (c : Nat) (x : DmaCh) : (s.setDma c x).sin = s.sin := (rfl)
@[simp] theorem State.setDma_br (s : State) (c : Nat) (x : DmaCh) : (s.setDma c x).br = s.br := (rfl)
@[simp] theorem State.setDma_inv (s : State) (c : Nat) (x : DmaCh) : (s.setDma c x).inv = s.inv := (rfl)
@[simp] theorem State.setDma_lahar (s : State) (c : Nat) (x : DmaCh) : (s.setDma c x).lahar = s.lahar := (rfl)
@[simp] theorem State.setDma_engs (s : State) (c : Nat) (x : DmaCh) : (s.setDma c x).engs = s.engs := (rfl)
@[simp] theorem State.setDma_xl (s : State) (c : Nat) (x : DmaCh) : (s.setDma c x).xl = s.xl := (rfl)
@[simp] theorem State.setDma_perf (s : State) (c : Nat) (x : DmaCh) : (s.setDma c x).perf = s.perf := (rfl)
@[simp] theorem State.setDma_lp (s : State) (c : Nat) (x : DmaCh) : (s.setDma c x).lp = s.lp := (rfl)
@[simp] theorem State.setDma_ax (s : State) (c : Nat) (x : DmaCh) : (s.setDma c x).ax = s.ax := (rfl)
@[simp] theorem State.setDma_gey (s : State) (c : Nat) (x : DmaCh) : (s.setDma c x).gey = s.gey := (rfl)
@[simp] theorem State.setDma_dma (s : State) (c : Nat) (x : DmaCh) : (s.setDma c x).dma = Tab.set s.dma c x {} := (rfl)
@[simp] theorem State.setDma_can (s : State) (c : Nat) (x : DmaCh) : (s.setDma c x).can = s.can := (rfl)
@[simp] theorem State.setDma_eth (s : State) (c : Nat) (x : DmaCh) : (s.setDma c x).eth = s.eth := (rfl)
@[simp] theorem State.setDma_lv (s : State) (c : Nat) (x : DmaCh) : (s.setDma c x).lv = s.lv := (rfl)
@[simp] theorem State.setDma_mdio (s : State) (c : Nat) (x : DmaCh) : (s.setDma c x).mdio = s.mdio := (rfl)
@[simp] theorem State.setDma_twi (s : State) (c : Nat) (x : DmaCh) : (s.setDma c x).twi = s.twi := (rfl)
@[simp] theorem State.setDma_masters (s : State) (c : Nat) (x : DmaCh) : (s.setDma c x).masters = s.masters := (rfl)
@[simp] theorem State.setDma_tau (s : State) (c : Nat) (x : DmaCh) : (s.setDma c x).tau = s.tau := (rfl)
@[simp] theorem State.setDma_tauDev (s : State) (c : Nat) (x : DmaCh) : (s.setDma c x).tauDev = s.tauDev := (rfl)
@[simp] theorem State.setDma_target (s : State) (c : Nat) (x : DmaCh) : (s.setDma c x).target = s.target := (rfl)
@[simp] theorem State.setDma_cycling (s : State) (c : Nat) (x : DmaCh) : (s.setDma c x).cycling = s.cycling := (rfl)
@[simp] theorem State.setDma_firstCycle (s : State) (c : Nat) (x : DmaCh) : (s.setDma c x).firstCycle = s.firstCycle := (rfl)
@[simp] theorem State.setDma_rd (s : State) (c : Nat) (x : DmaCh) : (s.setDma c x).rd = s.rd := (rfl)
@[simp] theorem State.setDma_byte (s : State) (c : Nat) (x : DmaCh) : (s.setDma c x).byte = s.byte := (rfl)
@[simp] theorem State.setDma_page (s : State) (c : Nat) (x : DmaCh) : (s.setDma c x).page = s.page := (rfl)
@[simp] theorem State.setDma_rdStage (s : State) (c : Nat) (x : DmaCh) : (s.setDma c x).rdStage = s.rdStage := (rfl)
@[simp] theorem State.setDma_eccAt (s : State) (c : Nat) (x : DmaCh) : (s.setDma c x).eccAt = s.eccAt := (rfl)
@[simp] theorem State.setDma_branch (s : State) (c : Nat) (x : DmaCh) : (s.setDma c x).branch = s.branch := (rfl)
@[simp] theorem State.setDma_eng (s : State) (c : Nat) (x : DmaCh) : (s.setDma c x).eng = s.eng := (rfl)
@[simp] theorem State.setDma_fdCh (s : State) (c : Nat) (x : DmaCh) : (s.setDma c x).fdCh = s.fdCh := (rfl)
@[simp] theorem State.setDma_axSt (s : State) (c : Nat) (x : DmaCh) : (s.setDma c x).axSt = s.axSt := (rfl)
@[simp] theorem State.setDma_canSt (s : State) (c : Nat) (x : DmaCh) : (s.setDma c x).canSt = s.canSt := (rfl)
@[simp] theorem State.setDma_ethSt (s : State) (c : Nat) (x : DmaCh) : (s.setDma c x).ethSt = s.ethSt := (rfl)

/-! ### setLv -/

@[simp] theorem State.setLv_pending (s : State) (x : LvSt) : (s.setLv x).pending = s.pending := (rfl)
@[simp] theorem State.setLv_now (s : State) (x : LvSt) : (s.setLv x).now = s.now := (rfl)
@[simp] theorem State.setLv_freeCtr (s : State) (x : LvSt) : (s.setLv x).freeCtr = s.freeCtr := (rfl)
@[simp] theorem State.setLv_regs (s : State) (x : LvSt) : (s.setLv x).regs = s.regs := (rfl)
@[simp] theorem State.setLv_stage (s : State) (x : LvSt) : (s.setLv x).stage = s.stage := (rfl)
@[simp] theorem State.setLv_hwSet (s : State) (x : LvSt) : (s.setLv x).hwSet = s.hwSet := (rfl)
@[simp] theorem State.setLv_pages (s : State) (x : LvSt) : (s.setLv x).pages = s.pages := (rfl)
@[simp] theorem State.setLv_shadows (s : State) (x : LvSt) : (s.setLv x).shadows = s.shadows := (rfl)
@[simp] theorem State.setLv_mem (s : State) (x : LvSt) : (s.setLv x).mem = s.mem := (rfl)
@[simp] theorem State.setLv_ecc (s : State) (x : LvSt) : (s.setLv x).ecc = s.ecc := (rfl)
@[simp] theorem State.setLv_fd (s : State) (x : LvSt) : (s.setLv x).fd = s.fd := (rfl)
@[simp] theorem State.setLv_out (s : State) (x : LvSt) : (s.setLv x).out = s.out := (rfl)
@[simp] theorem State.setLv_rst (s : State) (x : LvSt) : (s.setLv x).rst = s.rst := (rfl)
@[simp] theorem State.setLv_pcie (s : State) (x : LvSt) : (s.setLv x).pcie = s.pcie := (rfl)
@[simp] theorem State.setLv_pair (s : State) (x : LvSt) : (s.setLv x).pair = s.pair := (rfl)
@[simp] theorem State.setLv_sin (s : State) (x : LvSt) : (s.setLv x).sin = s.sin := (rfl)
@[simp] theorem State.setLv_br (s : State) (x : LvSt) : (s.setLv x).br = s.br := (rfl)
@[simp] theorem State.setLv_inv (s : State) (x : LvSt) : (s.setLv x).inv = s.inv := (rfl)
@[simp] theorem State.setLv_lahar (s : State) (x : LvSt) : (s.setLv x).lahar = s.lahar := (rfl)
@[simp] theorem State.setLv_engs (s : State) (x : LvSt) : (s.setLv x).engs = s.engs := (rfl)
@[simp] theorem State.setLv_xl (s : State) (x : LvSt) : (s.setLv x).xl = s.xl := (rfl)
@[simp] theorem State.setLv_perf (s : State) (x : LvSt) : (s.setLv x).perf = s.perf := (rfl)
@[simp] theorem State.setLv_lp (s : State) (x : LvSt) : (s.setLv x).lp = s.lp := (rfl)
@[simp] theorem State.setLv_ax (s : State) (x : LvSt) : (s.setLv x).ax = s.ax := (rfl)
@[simp] theorem State.setLv_gey (s : State) (x : LvSt) : (s.setLv x).gey = s.gey := (rfl)
@[simp] theorem State.setLv_dma (s : State) (x : LvSt) : (s.setLv x).dma = s.dma := (rfl)
@[simp] theorem State.setLv_can (s : State) (x : LvSt) : (s.setLv x).can = s.can := (rfl)
@[simp] theorem State.setLv_eth (s : State) (x : LvSt) : (s.setLv x).eth = s.eth := (rfl)
@[simp] theorem State.setLv_lv (s : State) (x : LvSt) : (s.setLv x).lv = x := (rfl)
@[simp] theorem State.setLv_mdio (s : State) (x : LvSt) : (s.setLv x).mdio = s.mdio := (rfl)
@[simp] theorem State.setLv_twi (s : State) (x : LvSt) : (s.setLv x).twi = s.twi := (rfl)
@[simp] theorem State.setLv_masters (s : State) (x : LvSt) : (s.setLv x).masters = s.masters := (rfl)
@[simp] theorem State.setLv_tau (s : State) (x : LvSt) : (s.setLv x).tau = s.tau := (rfl)
@[simp] theorem State.setLv_tauDev (s : State) (x : LvSt) : (s.setLv x).tauDev = s.tauDev := (rfl)
@[simp] theorem State.setLv_target (s : State) (x : LvSt) : (s.setLv x).target = s.target := (rfl)
@[simp] theorem State.setLv_cycling (s : State) (x : LvSt) : (s.setLv x).cycling = s.cycling := (rfl)
@[simp] theorem State.setLv_firstCycle (s : State) (x : LvSt) : (s.setLv x).firstCycle = s.firstCycle := (rfl)
@[simp] theorem State.setLv_rd (s : State) (x : LvSt) : (s.setLv x).rd = s.rd := (rfl)
@[simp] theorem State.setLv_byte (s : State) (x : LvSt) : (s.setLv x).byte = s.byte := (rfl)
@[simp] theorem State.setLv_page (s : State) (x : LvSt) : (s.setLv x).page = s.page := (rfl)
@[simp] theorem State.setLv_rdStage (s : State) (x : LvSt) : (s.setLv x).rdStage = s.rdStage := (rfl)
@[simp] theorem State.setLv_eccAt (s : State) (x : LvSt) : (s.setLv x).eccAt = s.eccAt := (rfl)
@[simp] theorem State.setLv_branch (s : State) (x : LvSt) : (s.setLv x).branch = s.branch := (rfl)
@[simp] theorem State.setLv_eng (s : State) (x : LvSt) : (s.setLv x).eng = s.eng := (rfl)
@[simp] theorem State.setLv_fdCh (s : State) (x : LvSt) : (s.setLv x).fdCh = s.fdCh := (rfl)
@[simp] theorem State.setLv_axSt (s : State) (x : LvSt) : (s.setLv x).axSt = s.axSt := (rfl)
@[simp] theorem State.setLv_canSt (s : State) (x : LvSt) : (s.setLv x).canSt = s.canSt := (rfl)
@[simp] theorem State.setLv_ethSt (s : State) (x : LvSt) : (s.setLv x).ethSt = s.ethSt := (rfl)
@[simp] theorem State.setLv_dmaCh (s : State) (x : LvSt) : (s.setLv x).dmaCh = s.dmaCh := (rfl)

/-! ### setFdCh -/

@[simp] theorem State.setFdCh_pending (s : State) (c ch : Nat) (x : FdCh) : (s.setFdCh c ch x).pending = s.pending := (rfl)
@[simp] theorem State.setFdCh_now (s : State) (c ch : Nat) (x : FdCh) : (s.setFdCh c ch x).now = s.now := (rfl)
@[simp] theorem State.setFdCh_freeCtr (s : State) (c ch : Nat) (x : FdCh) : (s.setFdCh c ch x).freeCtr = s.freeCtr := (rfl)
@[simp] theorem State.setFdCh_regs (s : State) (c ch : Nat) (x : FdCh) : (s.setFdCh c ch x).regs = s.regs := (rfl)
@[simp] theorem State.setFdCh_stage (s : State) (c ch : Nat) (x : FdCh) : (s.setFdCh c ch x).stage = s.stage := (rfl)
@[simp] theorem State.setFdCh_hwSet (s : State) (c ch : Nat) (x : FdCh) : (s.setFdCh c ch x).hwSet = s.hwSet := (rfl)
@[simp] theorem State.setFdCh_pages (s : State) (c ch : Nat) (x : FdCh) : (s.setFdCh c ch x).pages = s.pages := (rfl)
@[simp] theorem State.setFdCh_shadows (s : State) (c ch : Nat) (x : FdCh) : (s.setFdCh c ch x).shadows = s.shadows := (rfl)
@[simp] theorem State.setFdCh_mem (s : State) (c ch : Nat) (x : FdCh) : (s.setFdCh c ch x).mem = s.mem := (rfl)
@[simp] theorem State.setFdCh_ecc (s : State) (c ch : Nat) (x : FdCh) : (s.setFdCh c ch x).ecc = s.ecc := (rfl)
@[simp] theorem State.setFdCh_fd (s : State) (c ch : Nat) (x : FdCh) : (s.setFdCh c ch x).fd = Tab.set s.fd (c * 0x1000 + ch) x {} := (rfl)
@[simp] theorem State.setFdCh_out (s : State) (c ch : Nat) (x : FdCh) : (s.setFdCh c ch x).out = s.out := (rfl)
@[simp] theorem State.setFdCh_rst (s : State) (c ch : Nat) (x : FdCh) : (s.setFdCh c ch x).rst = s.rst := (rfl)
@[simp] theorem State.setFdCh_pcie (s : State) (c ch : Nat) (x : FdCh) : (s.setFdCh c ch x).pcie = s.pcie := (rfl)
@[simp] theorem State.setFdCh_pair (s : State) (c ch : Nat) (x : FdCh) : (s.setFdCh c ch x).pair = s.pair := (rfl)
@[simp] theorem State.setFdCh_sin (s : State) (c ch : Nat) (x : FdCh) : (s.setFdCh c ch x).sin = s.sin := (rfl)
@[simp] theorem State.setFdCh_br (s : State) (c ch : Nat) (x : FdCh) : (s.setFdCh c ch x).br = s.br := (rfl)
@[simp] theorem State.setFdCh_inv (s : State) (c ch : Nat) (x : FdCh) : (s.setFdCh c ch x).inv = s.inv := (rfl)
@[simp] theorem State.setFdCh_lahar (s : State) (c ch : Nat) (x : FdCh) : (s.setFdCh c ch x).lahar = s.lahar := (rfl)
@[simp] theorem State.setFdCh_engs (s : State) (c ch : Nat) (x : FdCh) : (s.setFdCh c ch x).engs = s.engs := (rfl)
@[simp] theorem State.setFdCh_xl (s : State) (c ch : Nat) (x : FdCh) : (s.setFdCh c ch x).xl = s.xl := (rfl)
@[simp] theorem State.setFdCh_perf (s : State) (c ch : Nat) (x : FdCh) : (s.setFdCh c ch x).perf = s.perf := (rfl)
@[simp] theorem State.setFdCh_lp (s : State) (c ch : Nat) (x : FdCh) : (s.setFdCh c ch x).lp = s.lp := (rfl)
@[simp] theorem State.setFdCh_ax (s : State) (c ch : Nat) (x : FdCh) : (s.setFdCh c ch x).ax = s.ax := (rfl)
@[simp] theorem State.setFdCh_gey (s : State) (c ch : Nat) (x : FdCh) : (s.setFdCh c ch x).gey = s.gey := (rfl)
@[simp] theorem State.setFdCh_dma (s : State) (c ch : Nat) (x : FdCh) : (s.setFdCh c ch x).dma = s.dma := (rfl)
@[simp] theorem State.setFdCh_can (s : State) (c ch : Nat) (x : FdCh) : (s.setFdCh c ch x).can = s.can := (rfl)
@[simp] theorem State.setFdCh_eth (s : State) (c ch : Nat) (x : FdCh) : (s.setFdCh c ch x).eth = s.eth := (rfl)
@[simp] theorem State.setFdCh_lv (s : State) (c ch : Nat) (x : FdCh) : (s.setFdCh c ch x).lv = s.lv := (rfl)
@[simp] theorem State.setFdCh_mdio (s : State) (c ch : Nat) (x : FdCh) : (s.setFdCh c ch x).mdio = s.mdio := (rfl)
@[simp] theorem State.setFdCh_twi (s : State) (c ch : Nat) (x : FdCh) : (s.setFdCh c ch x).twi = s.twi := (rfl)
@[simp] theorem State.setFdCh_masters (s : State) (c ch : Nat) (x : FdCh) : (s.setFdCh c ch x).masters = s.masters := (rfl)
@[simp] theorem State.setFdCh_tau (s : State) (c ch : Nat) (x : FdCh) : (s.setFdCh c ch x).tau = s.tau := (rfl)
@[simp] theorem State.setFdCh_tauDev (s : State) (c ch : Nat) (x : FdCh) : (s.setFdCh c ch x).tauDev = s.tauDev := (rfl)
@[simp] theorem State.setFdCh_target (s : State) (c ch : Nat) (x : FdCh) : (s.setFdCh c ch x).target = s.target := (rfl)
@[simp] theorem State.setFdCh_cycling (s : State) (c ch : Nat) (x : FdCh) : (s.setFdCh c ch x).cycling = s.cycling := (rfl)
@[simp] theorem State.setFdCh_firstCycle (s : State) (c ch : Nat) (x : FdCh) : (s.setFdCh c ch x).firstCycle = s.firstCycle := (rfl)
@[simp] theorem State.setFdCh_rd (s : State) (c ch : Nat) (x : FdCh) : (s.setFdCh c ch x).rd = s.rd := (rfl)
@[simp] theorem State.setFdCh_byte (s : State) (c ch : Nat) (x : FdCh) : (s.setFdCh c ch x).byte = s.byte := (rfl)
@[simp] theorem State.setFdCh_page (s : State) (c ch : Nat) (x : FdCh) : (s.setFdCh c ch x).page = s.page := (rfl)
@[simp] theorem State.setFdCh_rdStage (s : State) (c ch : Nat) (x : FdCh) : (s.setFdCh c ch x).rdStage = s.rdStage := (rfl)
@[simp] theorem State.setFdCh_eccAt (s : State) (c ch : Nat) (x : FdCh) : (s.setFdCh c ch x).eccAt = s.eccAt := (rfl)
@[simp] theorem State.setFdCh_branch (s : State) (c ch : Nat) (x : FdCh) : (s.setFdCh c ch x).branch = s.branch := (rfl)
@[simp] theorem State.setFdCh_eng (s : State) (c ch : Nat) (x : FdCh) : (s.setFdCh c ch x).eng = s.eng := (rfl)
@[simp] theorem State.setFdCh_axSt (s : State) (c ch : Nat) (x : FdCh) : (s.setFdCh c ch x).axSt = s.axSt := (rfl)
@[simp] theorem State.setFdCh_canSt (s : State) (c ch : Nat) (x : FdCh) : (s.setFdCh c ch x).canSt = s.canSt := (rfl)
@[simp] theorem State.setFdCh_ethSt (s : State) (c ch : Nat) (x : FdCh) : (s.setFdCh c ch x).ethSt = s.ethSt := (rfl)
@[simp] theorem State.setFdCh_dmaCh (s : State) (c ch : Nat) (x : FdCh) : (s.setFdCh c ch x).dmaCh = s.dmaCh := (rfl)

/-! ### setShadow -/

@[simp] theorem State.setShadow_pending (s : State) (m : Master) (a : Nat) (l : List (Nat × W32)) : (s.setShadow m a l).pending = s.pending := (rfl)
@[simp] theorem State.setShadow_now (s : State) (m : Master) (a : Nat) (l : List (Nat × W32)) : (s.setShadow m a l).now = s.now := (rfl)
@[simp] theorem State.setShadow_freeCtr (s : State) (m : Master) (a : Nat) (l : List (Nat × W32)) : (s.setShadow m a l).freeCtr = s.freeCtr := (rfl)
@[simp] theorem State.setShadow_regs (s : State) (m : Master) (a : Nat) (l : List (Nat × W32)) : (s.setShadow m a l).regs = s.regs := (rfl)
@[simp] theorem State.setShadow_stage (s : State) (m : Master) (a : Nat) (l : List (Nat × W32)) : (s.setShadow m a l).stage = s.stage := (rfl)
@[simp] theorem State.setShadow_hwSet (s : State) (m : Master) (a : Nat) (l : List (Nat × W32)) : (s.setShadow m a l).hwSet = s.hwSet := (rfl)
@[simp] theorem State.setShadow_pages (s : State) (m : Master) (a : Nat) (l : List (Nat × W32)) : (s.setShadow m a l).pages = s.pages := (rfl)
@[simp] theorem State.setShadow_shadows (s : State) (m : Master) (a : Nat) (l : List (Nat × W32)) : (s.setShadow m a l).shadows = Tab.set s.shadows (shadowKey m a) l [] := (rfl)
@[simp] theorem State.setShadow_mem (s : State) (m : Master) (a : Nat) (l : List (Nat × W32)) : (s.setShadow m a l).mem = s.mem := (rfl)
@[simp] theorem State.setShadow_ecc (s : State) (m : Master) (a : Nat) (l : List (Nat × W32)) : (s.setShadow m a l).ecc = s.ecc := (rfl)
@[simp] theorem State.setShadow_fd (s : State) (m : Master) (a : Nat) (l : List (Nat × W32)) : (s.setShadow m a l).fd = s.fd := (rfl)
@[simp] theorem State.setShadow_out (s : State) (m : Master) (a : Nat) (l : List (Nat × W32)) : (s.setShadow m a l).out = s.out := (rfl)
@[simp] theorem State.setShadow_rst (s : State) (m : Master) (a : Nat) (l : List (Nat × W32)) : (s.setShadow m a l).rst = s.rst := (rfl)
@[simp] theorem State.setShadow_pcie (s : State) (m : Master) (a : Nat) (l : List (Nat × W32)) : (s.setShadow m a l).pcie = s.pcie := (rfl)
@[simp] theorem State.setShadow_pair (s : State) (m : Master) (a : Nat) (l : List (Nat × W32)) : (s.setShadow m a l).pair = s.pair := (rfl)
@[simp] theorem State.setShadow_sin (s : State) (m : Master) (a : Nat) (l : List (Nat × W32)) : (s.setShadow m a l).sin = s.sin := (rfl)
@[simp] theorem State.setShadow_br (s : State) (m : Master) (a : Nat) (l : List (Nat × W32)) : (s.setShadow m a l).br = s.br := (rfl)
@[simp] theorem State.setShadow_inv (s : State) (m : Master) (a : Nat) (l : List (Nat × W32)) : (s.setShadow m a l).inv = s.inv := (rfl)
@[simp] theorem State.setShadow_lahar (s : State) (m : Master) (a : Nat) (l : List (Nat × W32)) : (s.setShadow m a l).lahar = s.lahar := (rfl)
@[simp] theorem State.setShadow_engs (s : State) (m : Master) (a : Nat) (l : List (Nat × W32)) : (s.setShadow m a l).engs = s.engs := (rfl)
@[simp] theorem State.setShadow_xl (s : State) (m : Master) (a : Nat) (l : List (Nat × W32)) : (s.setShadow m a l).xl = s.xl := (rfl)
@[simp] theorem State.setShadow_perf (s : State) (m : Master) (a : Nat) (l : List (Nat × W32)) : (s.setShadow m a l).perf = s.perf := (rfl)
@[simp] theorem State.setShadow_lp (s : State) (m : Master) (a : Nat) (l : List (Nat × W32)) : (s.setShadow m a l).lp = s.lp := (rfl)
@[simp] theorem State.setShadow_ax (s : State) (m : Master) (a : Nat) (l : List (Nat × W32)) : (s.setShadow m a l).ax = s.ax := (rfl)
@[simp] theorem State.setShadow_gey (s : State) (m : Master) (a : Nat) (l : List (Nat × W32)) : (s.setShadow m a l).gey = s.gey := (rfl)
@[simp] theorem State.setShadow_dma (s : State) (m : Master) (a : Nat) (l : List (Nat × W32)) : (s.setShadow m a l).dma = s.dma := (rfl)
@[simp] theorem State.setShadow_can (s : State) (m : Master) (a : Nat) (l : List (Nat × W32)) : (s.setShadow m a l).can = s.can := (rfl)
@[simp] theorem State.setShadow_eth (s : State) (m : Master) (a : Nat) (l : List (Nat × W32)) : (s.setShadow m a l).eth = s.eth := (rfl)
@[simp] theorem State.setShadow_lv (s : State) (m : Master) (a : Nat) (l : List (Nat × W32)) : (s.setShadow m a l).lv = s.lv := (rfl)
@[simp] theorem State.setShadow_mdio (s : State) (m : Master) (a : Nat) (l : List (Nat × W32)) : (s.setShadow m a l).mdio = s.mdio := (rfl)
@[simp] theorem State.setShadow_twi (s : State) (m : Master) (a : Nat) (l : List (Nat × W32)) : (s.setShadow m a l).twi = s.twi := (rfl)
@[simp] theorem State.setShadow_masters (s : State) (m : Master) (a : Nat) (l : List (Nat × W32)) : (s.setShadow m a l).masters = s.masters := (rfl)
@[simp] theorem State.setShadow_tau (s : State) (m : Master) (a : Nat) (l : List (Nat × W32)) : (s.setShadow m a l).tau = s.tau := (rfl)
@[simp] theorem State.setShadow_tauDev (s : State) (m : Master) (a : Nat) (l : List (Nat × W32)) : (s.setShadow m a l).tauDev = s.tauDev := (rfl)
@[simp] theorem State.setShadow_target (s : State) (m : Master) (a : Nat) (l : List (Nat × W32)) : (s.setShadow m a l).target = s.target := (rfl)
@[simp] theorem State.setShadow_cycling (s : State) (m : Master) (a : Nat) (l : List (Nat × W32)) : (s.setShadow m a l).cycling = s.cycling := (rfl)
@[simp] theorem State.setShadow_firstCycle (s : State) (m : Master) (a : Nat) (l : List (Nat × W32)) : (s.setShadow m a l).firstCycle = s.firstCycle := (rfl)
@[simp] theorem State.setShadow_rd (s : State) (m : Master) (a : Nat) (l : List (Nat × W32)) : (s.setShadow m a l).rd = s.rd := (rfl)
@[simp] theorem State.setShadow_byte (s : State) (m : Master) (a : Nat) (l : List (Nat × W32)) : (s.setShadow m a l).byte = s.byte := (rfl)
@[simp] theorem State.setShadow_page (s : State) (m : Master) (a : Nat) (l : List (Nat × W32)) : (s.setShadow m a l).page = s.page := (rfl)
@[simp] theorem State.setShadow_rdStage (s : State) (m : Master) (a : Nat) (l : List (Nat × W32)) : (s.setShadow m a l).rdStage = s.rdStage := (rfl)
@[simp] theorem State.setShadow_eccAt (s : State) (m : Master) (a : Nat) (l : List (Nat × W32)) : (s.setShadow m a l).eccAt = s.eccAt := (rfl)
@[simp] theorem State.setShadow_branch (s : State) (m : Master) (a : Nat) (l : List (Nat × W32)) : (s.setShadow m a l).branch = s.branch := (rfl)
@[simp] theorem State.setShadow_eng (s : State) (m : Master) (a : Nat) (l : List (Nat × W32)) : (s.setShadow m a l).eng = s.eng := (rfl)
@[simp] theorem State.setShadow_fdCh (s : State) (m : Master) (a : Nat) (l : List (Nat × W32)) : (s.setShadow m a l).fdCh = s.fdCh := (rfl)
@[simp] theorem State.setShadow_axSt (s : State) (m : Master) (a : Nat) (l : List (Nat × W32)) : (s.setShadow m a l).axSt = s.axSt := (rfl)
@[simp] theorem State.setShadow_canSt (s : State) (m : Master) (a : Nat) (l : List (Nat × W32)) : (s.setShadow m a l).canSt = s.canSt := (rfl)
@[simp] theorem State.setShadow_ethSt (s : State) (m : Master) (a : Nat) (l : List (Nat × W32)) : (s.setShadow m a l).ethSt = s.ethSt := (rfl)
@[simp] theorem State.setShadow_dmaCh (s : State) (m : Master) (a : Nat) (l : List (Nat × W32)) : (s.setShadow m a l).dmaCh = s.dmaCh := (rfl)

/-! ### Reads after writes -/

@[simp] theorem State.rd_wr (s : State) (a b : Nat) (v : W32) : (s.wr a v).rd b = if b = a then v else s.rd b :=
  Tab.get_set s.regs a b v (resetOf a) (resetOf b) fun h => by rw [h]

@[simp] theorem State.rd_hwSetBits (s : State) (a b : Nat) (v : W32) : (s.hwSetBits a v).rd b = if b = a then s.rd a ||| v else s.rd b :=
  Tab.get_set s.regs a b (s.rd a ||| v) (resetOf a) (resetOf b) fun h => by rw [h]

@[simp] theorem State.rdStage_wrStage (s : State) (a b : Nat) (v : W32) : (s.wrStage a v).rdStage b = if b = a then v else s.rdStage b :=
  Tab.get_set s.stage a b v (resetOf a) (resetOf b) fun h => by rw [h]

@[simp] theorem State.page_setPage (s : State) (p q : Nat) (x : PageSt) : (s.setPage p x).page q = if q = p then x else s.page q :=
  Tab.get_set_same s.pages p q x {}

@[simp] theorem State.byte_setByte (s : State) (a b : Nat) (v : Byte) : (s.setByte a v).byte b = if b = a then v else s.byte b :=
  Tab.get_set_same s.mem a b v 0

@[simp] theorem State.eng_setEng (s : State) (e f : Nat) (x : Eng) : (s.setEng e x).eng f = if f = e then x else s.eng f :=
  Tab.get_set_same s.engs e f x {}

@[simp] theorem State.branch_setBranch (s : State) (b c : Nat) (x : BranchSt) : (s.setBranch b x).branch c = if c = b then x else s.branch c :=
  Tab.get_set_same s.br b c x {}

@[simp] theorem State.axSt_setAx (s : State) (a b : Nat) (x : AxSt) : (s.setAx a x).axSt b = if b = a then x else s.axSt b :=
  Tab.get_set_same s.ax a b x {}

@[simp] theorem State.canSt_setCan (s : State) (a b : Nat) (x : CanSt) : (s.setCan a x).canSt b = if b = a then x else s.canSt b :=
  Tab.get_set_same s.can a b x {}

@[simp] theorem State.ethSt_setEth (s : State) (a b : Nat) (x : EthSt) : (s.setEth a x).ethSt b = if b = a then x else s.ethSt b :=
  Tab.get_set_same s.eth a b x {}

@[simp] theorem State.dmaCh_setDma (s : State) (a b : Nat) (x : DmaCh) : (s.setDma a x).dmaCh b = if b = a then x else s.dmaCh b :=
  Tab.get_set_same s.dma a b x {}

end Sys2Proof.Machine
end

