-- ==== Sys2Proof/Laws/Ops.lean ====
section
/-! SUPPORT. What the shared operations do: the gate of a register write, interrupts, failed accesses. -/

namespace Sys2Proof.Machine

/-! ### rest -/

@[simp] theorem State.rest_tick (s : State) (t : Time) : (s.tick t).rest = s.rest := (rfl)
@[simp] theorem State.rest_emit (s : State) (e : Emit) : (s.emit e).rest = s.rest := (rfl)
@[simp] theorem State.rest_useFree (s : State) : s.useFree.rest = s.rest := (rfl)
@[simp] theorem State.rest_wr (s : State) (a : Nat) (v : W32) : (s.wr a v).rest = s.rest := (rfl)
@[simp] theorem State.rest_hwSetBits (s : State) (a : Nat) (v : W32) : (s.hwSetBits a v).rest = s.rest := (rfl)
@[simp] theorem State.rest_setPage (s : State) (p : Nat) (x : PageSt) : (s.setPage p x).rest = s.rest := (rfl)
@[simp] theorem State.rest_setPba (s : State) (v : Nat) (x : Bool) : (s.setPba v x).rest = s.rest := (rfl)
@[simp] theorem State.rest_setShadow (s : State) (m : Master) (a : Nat) (l : List (Nat × W32)) : (s.setShadow m a l).rest = s.rest := (rfl)

/-! ### What equal rests give -/

theorem State.pending_of_rest {s u : State} (h : u.rest = s.rest) : u.pending = s.pending := by have := congrArg (fun x : State => x.pending) h; exact this
theorem State.stage_of_rest {s u : State} (h : u.rest = s.rest) : u.stage = s.stage := by have := congrArg (fun x : State => x.stage) h; exact this
theorem State.mem_of_rest {s u : State} (h : u.rest = s.rest) : u.mem = s.mem := by have := congrArg (fun x : State => x.mem) h; exact this
theorem State.ecc_of_rest {s u : State} (h : u.rest = s.rest) : u.ecc = s.ecc := by have := congrArg (fun x : State => x.ecc) h; exact this
theorem State.fd_of_rest {s u : State} (h : u.rest = s.rest) : u.fd = s.fd := by have := congrArg (fun x : State => x.fd) h; exact this
theorem State.rst_of_rest {s u : State} (h : u.rest = s.rest) : u.rst = s.rst := by have := congrArg (fun x : State => x.rst) h; exact this
theorem State.pair_of_rest {s u : State} (h : u.rest = s.rest) : u.pair = s.pair := by have := congrArg (fun x : State => x.pair) h; exact this
theorem State.sin_of_rest {s u : State} (h : u.rest = s.rest) : u.sin = s.sin := by have := congrArg (fun x : State => x.sin) h; exact this
theorem State.br_of_rest {s u : State} (h : u.rest = s.rest) : u.br = s.br := by have := congrArg (fun x : State => x.br) h; exact this
theorem State.inv_of_rest {s u : State} (h : u.rest = s.rest) : u.inv = s.inv := by have := congrArg (fun x : State => x.inv) h; exact this
theorem State.lahar_of_rest {s u : State} (h : u.rest = s.rest) : u.lahar = s.lahar := by have := congrArg (fun x : State => x.lahar) h; exact this
theorem State.engs_of_rest {s u : State} (h : u.rest = s.rest) : u.engs = s.engs := by have := congrArg (fun x : State => x.engs) h; exact this
theorem State.xl_of_rest {s u : State} (h : u.rest = s.rest) : u.xl = s.xl := by have := congrArg (fun x : State => x.xl) h; exact this
theorem State.perf_of_rest {s u : State} (h : u.rest = s.rest) : u.perf = s.perf := by have := congrArg (fun x : State => x.perf) h; exact this
theorem State.lp_of_rest {s u : State} (h : u.rest = s.rest) : u.lp = s.lp := by have := congrArg (fun x : State => x.lp) h; exact this
theorem State.ax_of_rest {s u : State} (h : u.rest = s.rest) : u.ax = s.ax := by have := congrArg (fun x : State => x.ax) h; exact this
theorem State.gey_of_rest {s u : State} (h : u.rest = s.rest) : u.gey = s.gey := by have := congrArg (fun x : State => x.gey) h; exact this
theorem State.dma_of_rest {s u : State} (h : u.rest = s.rest) : u.dma = s.dma := by have := congrArg (fun x : State => x.dma) h; exact this
theorem State.can_of_rest {s u : State} (h : u.rest = s.rest) : u.can = s.can := by have := congrArg (fun x : State => x.can) h; exact this
theorem State.eth_of_rest {s u : State} (h : u.rest = s.rest) : u.eth = s.eth := by have := congrArg (fun x : State => x.eth) h; exact this
theorem State.lv_of_rest {s u : State} (h : u.rest = s.rest) : u.lv = s.lv := by have := congrArg (fun x : State => x.lv) h; exact this
theorem State.mdio_of_rest {s u : State} (h : u.rest = s.rest) : u.mdio = s.mdio := by have := congrArg (fun x : State => x.mdio) h; exact this
theorem State.twi_of_rest {s u : State} (h : u.rest = s.rest) : u.twi = s.twi := by have := congrArg (fun x : State => x.twi) h; exact this
theorem State.masters_of_rest {s u : State} (h : u.rest = s.rest) : u.masters = s.masters := by have := congrArg (fun x : State => x.masters) h; exact this
theorem State.tau_of_rest {s u : State} (h : u.rest = s.rest) : u.tau = s.tau := by have := congrArg (fun x : State => x.tau) h; exact this
theorem State.tauDev_of_rest {s u : State} (h : u.rest = s.rest) : u.tauDev = s.tauDev := by have := congrArg (fun x : State => x.tauDev) h; exact this
theorem State.target_of_rest {s u : State} (h : u.rest = s.rest) : u.target = s.target := by have := congrArg (fun x : State => x.target) h; exact this
theorem State.cycling_of_rest {s u : State} (h : u.rest = s.rest) : u.cycling = s.cycling := by have := congrArg (fun x : State => x.cycling) h; exact this
theorem State.firstCycle_of_rest {s u : State} (h : u.rest = s.rest) : u.firstCycle = s.firstCycle := by have := congrArg (fun x : State => x.firstCycle) h; exact this
theorem State.byte_of_rest {s u : State} (h : u.rest = s.rest) (a : Nat) : u.byte a = s.byte a := by have := congrArg (fun x : State => x.byte a) h; exact this
theorem State.rdStage_of_rest {s u : State} (h : u.rest = s.rest) (a : Nat) : u.rdStage a = s.rdStage a := by have := congrArg (fun x : State => x.rdStage a) h; exact this

/-- A frame from its parts, where the memory is unchanged. -/
theorem Frame.of_rest {s u : State} {may : List Nat} (hr : ∀ a, a ∉ may → u.rd a = s.rd a) (h : u.rest = s.rest) : Frame s u may s.rest :=
  ⟨hr, fun a => State.byte_of_rest h a, h⟩

theorem State.rd_of_regs {s u : State} (h : u.regs = s.regs) (a : Nat) : u.rd a = s.rd a := by unfold State.rd; rw [h]

/-! ### Derived register operations -/

theorem State.setF_eq (s : State) (a hi lo x : Nat) : s.setF a hi lo x = s.wr a (setFld (s.rd a) hi lo x) := (rfl)
theorem State.setB_eq (s : State) (a i : Nat) (v : Bool) : s.setB a i v = s.wr a (setFld (s.rd a) i i (b2n v)) := (rfl)
theorem State.inc_eq (s : State) (a hi lo n : Nat) : s.inc a hi lo n = s.wr a (setFld (s.rd a) hi lo (min (s.f a hi lo + n) (2 ^ (hi + 1 - lo) - 1))) := (rfl)
theorem State.incMod_eq (s : State) (a hi lo n : Nat) : s.incMod a hi lo n = s.wr a (setFld (s.rd a) hi lo (s.f a hi lo + n)) := (rfl)
theorem State.w1c_eq (s : State) (a : Nat) (v : W32) : s.w1c a v = s.wr a (s.rd a &&& ~~~ s.w1cBits a v) := (rfl)
theorem State.wr48_eq (s : State) (a : Nat) (v : W48) :
    s.wr48 a v = (s.wr a (BitVec.ofNat 32 v.toNat)).wr (a + 4) (BitVec.ofNat 32 (v.toNat / 2 ^ 32)) := rfl

/-! ### Interrupts -/

/-- An update of vectors changes the arming registers of the router and nothing else but pending message bits and what leaves the device. -/
structure OnlyVec (s u : State) : Prop where
  rd : ∀ a, a ≠ R.router_VEC_ARM 0 → a ≠ R.router_VEC_ARM 1 → u.rd a = s.rd a
  rest : u.rest = s.rest
  now : u.now = s.now
  pages : u.pages = s.pages
  freeCtr : u.freeCtr = s.freeCtr
  shadows : u.shadows = s.shadows
  hwSet : u.hwSet = s.hwSet

theorem OnlyVec.refl (s : State) : OnlyVec s s := ⟨fun _ _ _ => rfl, rfl, rfl, rfl, rfl, rfl, rfl⟩

theorem OnlyVec.trans {s u w : State} (h : OnlyVec s u) (g : OnlyVec u w) : OnlyVec s w :=
  ⟨fun a h0 h1 => (g.rd a h0 h1).trans (h.rd a h0 h1), g.rest.trans h.rest, g.now.trans h.now, g.pages.trans h.pages, g.freeCtr.trans h.freeCtr,
   g.shadows.trans h.shadows, g.hwSet.trans h.hwSet⟩

theorem OnlyVec.emit (s : State) (e : Emit) : OnlyVec s (s.emit e) := ⟨fun _ _ _ => rfl, rfl, rfl, rfl, rfl, rfl, rfl⟩
theorem OnlyVec.setPba (s : State) (v : Nat) (x : Bool) : OnlyVec s (s.setPba v x) := ⟨fun _ _ _ => rfl, rfl, rfl, rfl, rfl, rfl, rfl⟩

theorem OnlyVec.setB (s : State) (v i : Nat) (x : Bool) (hv : v < 2) : OnlyVec s (s.setB (R.router_VEC_ARM v) i x) := by
  refine ⟨fun a h0 h1 => ?_, rfl, rfl, rfl, rfl, rfl, rfl⟩
  rw [State.setB_eq, State.rd_wr, if_neg]
  intro h
  have : v = 0 ∨ v = 1 := by omega
  rcases this with rfl | rfl
  · exact h0 h
  · exact h1 h

theorem OnlyVec.vecUpdate (s : State) (v : Nat) (hv : v < 64) : OnlyVec s (s.vecUpdate v) := by
  have h2 : v / 32 < 2 := by omega
  unfold State.vecUpdate
  dsimp only
  split
  · split
    · split
      · exact (OnlyVec.setB s _ _ _ h2).trans (OnlyVec.emit _ _)
      · split
        · exact ((OnlyVec.setB s _ _ _ h2).trans (OnlyVec.setPba _ _ _)).trans (OnlyVec.emit _ _)
        · exact OnlyVec.setPba _ _ _
    · exact OnlyVec.refl _
  · exact (OnlyVec.setB s _ _ _ h2).trans (OnlyVec.setPba _ _ _)

theorem OnlyVec.foldl {β : Type} (f : State → β → State) (hf : ∀ s x, OnlyVec s (f s x)) (l : List β) (s : State) : OnlyVec s (l.foldl f s) := by
  induction l generalizing s with
  | nil => exact OnlyVec.refl s
  | cons x r ih => exact (hf s x).trans (ih (f s x))

theorem fld_lt {n : Nat} (w : BitVec n) (hi lo : Nat) : fld w hi lo < 2 ^ (hi + 1 - lo) := Nat.mod_lt _ (Nat.two_pow_pos _)

theorem OnlyVec.pageIrq (s : State) (p : Nat) : OnlyVec s (s.pageIrq p) := by
  unfold State.pageIrq
  have h1 : OnlyVec s (if s.routeByte (R.router_ROUTE 0) p ≥ 128 then s.vecUpdate (s.routeByte (R.router_ROUTE 0) p % 64) else s) := by
    split
    · exact OnlyVec.vecUpdate s _ (Nat.mod_lt _ (by decide))
    · exact OnlyVec.refl s
  simp only
  split
  · refine h1.trans (OnlyVec.foldl _ (fun s c => ?_) _ _)
    split
    · exact OnlyVec.vecUpdate s _ (fld_lt _ 13 8)
    · exact OnlyVec.refl s
  · exact h1

theorem OnlyVec.vecUpdates (s : State) (vs : List Nat) (h : ∀ v ∈ vs, v < 64) : OnlyVec s (s.vecUpdates vs) := by
  induction vs generalizing s with
  | nil => exact OnlyVec.refl s
  | cons v r ih =>
    exact (OnlyVec.vecUpdate s v (h v List.mem_cons_self)).trans (ih _ fun x hx => h x (List.mem_cons_of_mem _ hx))

theorem OnlyVec.vecAll (s : State) : OnlyVec s s.vecAll :=
  OnlyVec.vecUpdates s _ fun v hv => by simpa using hv

/-- Raising causes: what State.irq may change. -/
theorem State.irq_rd (s : State) (p bits a : Nat) (h : a ∉ irqRegs p) : (s.irq p bits).rd a = s.rd a := by
  simp only [irqRegs, List.mem_cons, List.not_mem_nil, or_false, not_or] at h
  unfold State.irq
  rw [(OnlyVec.pageIrq _ p).rd a h.2.1 h.2.2, State.rd_hwSetBits, if_neg h.1]

theorem State.irq_stat (s : State) (p bits : Nat) :
    (s.irq p bits).rd (R.IRQ_STAT p) = s.rd (R.IRQ_STAT p) ||| BitVec.ofNat 32 bits := by
  unfold State.irq
  rw [(OnlyVec.pageIrq _ p).rd _ (by simp only [R.IRQ_STAT, R.router_VEC_ARM]; omega) (by simp only [R.IRQ_STAT, R.router_VEC_ARM]; omega),
    State.rd_hwSetBits, if_pos rfl]

@[simp] theorem State.irq_rest (s : State) (p bits : Nat) : (s.irq p bits).rest = s.rest := (OnlyVec.pageIrq _ p).rest
@[simp] theorem State.irq_now (s : State) (p bits : Nat) : (s.irq p bits).now = s.now := (OnlyVec.pageIrq _ p).now
@[simp] theorem State.irq_pages (s : State) (p bits : Nat) : (s.irq p bits).pages = s.pages := (OnlyVec.pageIrq _ p).pages
@[simp] theorem State.irq_page (s : State) (p bits q : Nat) : (s.irq p bits).page q = s.page q := by
  unfold State.page; rw [State.irq_pages]

theorem State.irqB_rd (s : State) (p i a : Nat) (h : a ∉ irqRegs p) : (s.irqB p i).rd a = s.rd a := State.irq_rd s p _ a h
@[simp] theorem State.irqB_rest (s : State) (p i : Nat) : (s.irqB p i).rest = s.rest := State.irq_rest s p _
@[simp] theorem State.irqB_now (s : State) (p i : Nat) : (s.irqB p i).now = s.now := State.irq_now s p _
@[simp] theorem State.irqB_pages (s : State) (p i : Nat) : (s.irqB p i).pages = s.pages := State.irq_pages s p _
@[simp] theorem State.irqB_page (s : State) (p i q : Nat) : (s.irqB p i).page q = s.page q := State.irq_page s p _ q

/-! ### The gate -/

theorem State.takes_page (s : State) (m : Master) (a : Nat) (h : s.takes m a = true) : ∃ k n, pageKind (a / 0x1000) = some (k, n) := by
  unfold State.takes at h
  cases hk : pageKind (a / 0x1000) with
  | none => simp [hk] at h
  | some x => exact ⟨x.1, x.2, rfl⟩

/-- What the gate does to a write that is performed. -/
def State.passed (s : State) (m : Master) (a : Nat) (v : W32) (k : PageKind) : State :=
  let s := if a % 0x1000 = 0x28 then s else s.breakKey (a / 0x1000)
  if s.pairMirrors m && !notMirrored k then s.emit (.mirrored a 4 (v.setWidth 64)) else s

theorem State.gate_of_takes (s : State) (t : Time) (m : Master) (a : Nat) (v : W32) (h : s.takes m a = true) :
    ∃ k n, pageKind (a / 0x1000) = some (k, n) ∧ (s.tick t).gate m a v = ((s.tick t).passed m a v k, true) := by
  unfold State.takes at h
  cases hk : pageKind (a / 0x1000) with
  | none => simp [hk] at h
  | some x =>
    obtain ⟨k, n⟩ := x
    refine ⟨k, n, rfl, ?_⟩
    simp only [hk, Bool.and_eq_true, Bool.not_eq_true', Bool.or_eq_true, decide_eq_true_eq] at h
    obtain ⟨_, ⟨⟨⟨h1, h2⟩, h3⟩, h4⟩, h5⟩ := h
    have e1 : ((s.tick t).rst.safeBoot && (!diagnosticPage k || decide (k = .sinCore))) = false := h1
    have e2 : (s.tick t).pageInReset k n = false := h2
    have e3 : ((s.tick t).pairDiscards m && !notMirrored k) = false := h3
    have e5 : ∀ u : State, u.regs = s.regs → u.padHeld a = false := by
      intro u hu
      rw [← h5]; unfold State.padHeld State.f State.rd; rw [hu]
    unfold State.gate
    simp only [hk, e1, e2, e3, Bool.false_eq_true, if_false]
    by_cases ho : a % 0x1000 = 0x28
    · simp only [ho, if_true, State.passed]
      rw [e5 (s.tick t) rfl]
      simp
    · simp only [ho, if_false, State.passed]
      have e4 : (((s.tick t).breakKey (a / 0x1000)).locked k (a / 0x1000) && decide (a % 0x1000 ≠ 0x28) && decide (a % 0x1000 ≠ 0x10)) = false := by
        have : ((s.tick t).breakKey (a / 0x1000)).locked k (a / 0x1000) = s.locked k (a / 0x1000) := by
          unfold State.locked State.breakKey; simp
        rw [this]
        rcases h4 with (h4 | h4) | h4
        · simp [h4]
        · exact absurd h4 ho
        · simp [h4]
      rw [e5 ((s.tick t).breakKey (a / 0x1000)) rfl]
      rw [if_neg (by rw [e4]; simp), if_neg (by simp)]

/-- A performed register write has its effect in the state it enters. -/
theorem State.gated_of_takes (s : State) (t : Time) (m : Master) (a : Nat) (v : W32) (f : State → State) (h : s.takes m a = true) :
    s.gated t m a v f = f (s.entered t m a v) := by
  obtain ⟨k, n, _, hg⟩ := State.gate_of_takes s t m a v h
  have hb : (s.tick t).barOpen m = true := by
    unfold State.takes at h
    simp only [Bool.and_eq_true] at h
    exact h.1
  unfold State.gated State.entered
  simp [hb, hg]

/-- What a performed write changes before its own effect: the time, a key sequence of its page, and a write carried to the standby. -/
structure OnlyGate (s u : State) (t : Time) (p : Nat) : Prop where
  regs : u.regs = s.regs
  rest : u.rest = s.rest
  now : u.now = if s.now ≤ t then t else s.now
  page : ∀ q, u.page q = s.page q ∨ (q = p ∧ u.page q = { s.page q with key1 := none })
  freeCtr : u.freeCtr = s.freeCtr
  hwSet : u.hwSet = s.hwSet
  shadows : u.shadows = s.shadows

theorem State.onlyGate (s : State) (t : Time) (m : Master) (a : Nat) (v : W32) (h : s.takes m a = true) :
    OnlyGate s (s.entered t m a v) t (a / 0x1000) := by
  obtain ⟨k, n, _, hg⟩ := State.gate_of_takes s t m a v h
  unfold State.entered
  rw [hg]
  unfold State.passed
  dsimp only
  have key : ∀ u : State, (u = s.tick t ∨ u = (s.tick t).breakKey (a / 0x1000)) → OnlyGate s u t (a / 0x1000) := by
    rintro u (rfl | rfl)
    · exact ⟨rfl, rfl, rfl, fun q => Or.inl rfl, rfl, rfl, rfl⟩
    · refine ⟨rfl, rfl, rfl, fun q => ?_, rfl, rfl, rfl⟩
      unfold State.breakKey
      rw [State.page_setPage]
      by_cases hq : q = a / 0x1000
      · subst hq; simp
      · simp [hq]
  have mir : ∀ u : State, OnlyGate s u t (a / 0x1000) →
      OnlyGate s (if u.pairMirrors m && !notMirrored k then u.emit (.mirrored a 4 (v.setWidth 64)) else u) t (a / 0x1000) := by
    intro u h
    split
    · exact ⟨h.regs, h.rest, h.now, h.page, h.freeCtr, h.hwSet, h.shadows⟩
    · exact h
  by_cases ho : a % 0x1000 = 0x28
  · simp only [ho, if_true]; exact mir _ (key _ (Or.inl rfl))
  · simp only [ho, if_false]; exact mir _ (key _ (Or.inr rfl))

theorem State.entered_rd (s : State) (t : Time) (m : Master) (a : Nat) (v : W32) (h : s.takes m a = true) (b : Nat) :
    (s.entered t m a v).rd b = s.rd b := by
  unfold State.rd; rw [(State.onlyGate s t m a v h).regs]

end Sys2Proof.Machine
end

