-- ==== Sys2Proof/Laws/Access.lean ====
section
/-! SUPPORT. What a failed access (R40, R531) and the two events of a fault disposition channel (R466) change, and that nothing else does. -/

namespace Sys2Proof.Machine

/-! ### Failed accesses -/

/-- The registers a failed access records itself in. -/
def failRegs : List Nat := [R.chip_ERR_ADDR, R.chip_ERR_INFO, R.pcie_PCIE_ERR]

theorem State.recordFail_rd (s : State) (m : Master) (x : Nat) (w : Bool) (k : FailKind) (a : Nat) (h : a ∉ failRegs) : (s.recordFail m x w k).rd a = s.rd a := by
  simp only [failRegs, List.mem_cons, List.not_mem_nil, or_false, not_or] at h
  unfold State.recordFail
  split
  · rw [State.inc_eq, State.rd_wr, if_neg h.2.1]
  · rw [State.rd_wr, if_neg h.2.1, State.rd_hwSetBits, if_neg h.2.1, State.rd_wr, if_neg h.1]
@[simp] theorem State.recordFail_rest (s : State) (m : Master) (x : Nat) (w : Bool) (k : FailKind) : (s.recordFail m x w k).rest = s.rest := by
  unfold State.recordFail
  split <;> simp [State.inc_eq]
@[simp] theorem State.recordFail_now (s : State) (m : Master) (x : Nat) (w : Bool) (k : FailKind) : (s.recordFail m x w k).now = s.now := by
  unfold State.recordFail
  split <;> rfl
@[simp] theorem State.recordFail_page (s : State) (m : Master) (x : Nat) (w : Bool) (k : FailKind) (p : Nat) : (s.recordFail m x w k).page p = s.page p := by
  unfold State.recordFail
  split <;> rfl
/-- The first failure is recorded whole. -/
theorem State.recordFail_first (s : State) (m : Master) (x : Nat) (w : Bool) (k : FailKind) (h : s.b R.chip_ERR_INFO 0 = false) :
    (s.recordFail m x w k).rd R.chip_ERR_INFO = BitVec.ofNat 32 (1 + b2n w * 2 + k.code * 4 + masterCode m * 16 + 256) ∧
    (s.recordFail m x w k).rd R.chip_ERR_ADDR = BitVec.ofNat 32 (x % 2 ^ 25) := by
  unfold State.recordFail
  rw [if_neg (by simp [h])]
  refine ⟨by rw [State.rd_wr, if_pos rfl], ?_⟩
  rw [State.rd_wr, if_neg (by decide), State.rd_hwSetBits, if_neg (by decide), State.rd_wr, if_pos rfl]

@[simp] theorem State.failResponse_rd (s : State) (m : Master) (x : Nat) (w : Bool) (a : Nat) : (s.failResponse m x w).rd a = s.rd a := by
  unfold State.failResponse
  split <;> (try split) <;> rfl
@[simp] theorem State.failResponse_rest (s : State) (m : Master) (x : Nat) (w : Bool) : (s.failResponse m x w).rest = s.rest := by
  unfold State.failResponse
  split <;> (try split) <;> rfl

theorem State.failAccess_frame (s : State) (m : Master) (x : Nat) (w : Bool) (k : FailKind) : Frame s (s.failAccess m x w k) failRegs s.rest := by
  refine Frame.of_rest (fun a h => ?_) ?_
  · unfold State.failAccess
    dsimp only
    split
    · rw [State.inc_eq, State.rd_wr, if_neg (fun e => h (by simp [failRegs, e])), State.failResponse_rd, State.recordFail_rd _ _ _ _ _ _ h]
    · rw [State.failResponse_rd, State.recordFail_rd _ _ _ _ _ _ h]
  · unfold State.failAccess
    dsimp only
    split <;> simp [State.inc_eq]

/-! ### Fault disposition channels -/

/-- The registers a channel of class c may change. -/
def fdRegs (c ch : Nat) : List Nat :=
  match fdPage c ch with
  | some p => R.STATUS p :: irqRegs p
  | none => []

theorem State.fdStore_rd (s : State) (c ch : Nat) (x : FdCh) (a : Nat) (h : a ∉ fdRegs c ch) : (s.fdStore c ch x).rd a = s.rd a := by
  unfold State.fdStore
  dsimp only
  split
  · rfl
  · unfold fdRegs at h
    split
    · rename_i p hp
      rw [hp] at h
      rw [State.irqB_rd _ _ _ _ (fun e => h (List.mem_cons_of_mem _ e))]; rfl
    · rfl
theorem State.fdStore_rest (s : State) (c ch : Nat) (x : FdCh) : (s.fdStore c ch x).rest = (s.setFdCh c ch x).rest := by
  unfold State.fdStore
  dsimp only
  split
  · rfl
  · split
    · rw [State.irqB_rest]
    · rfl
theorem State.fdGood_rd (s : State) (c ch a : Nat) (h : a ∉ fdRegs c ch) : (s.fdGood c ch).rd a = s.rd a := by
  unfold State.fdGood
  dsimp only
  split
  · rfl
  · split <;> exact State.fdStore_rd _ _ _ _ _ h
theorem State.fdGood_rest (s : State) (c ch : Nat) : ∃ t, (s.fdGood c ch).rest = { s.rest with fd := t } := by
  unfold State.fdGood
  dsimp only
  split
  · exact ⟨s.fd, rfl⟩
  · split <;> exact ⟨_, by rw [State.fdStore_rest]; rfl⟩
theorem State.fdFault_rd (s : State) (c ch a : Nat) (h : a ∉ fdRegs c ch) : (s.fdFault c ch).1.rd a = s.rd a := by
  unfold State.fdFault
  dsimp only
  split
  · rfl
  · dsimp only
    split
    · split
      · rename_i p hp
        rw [State.setB_eq, State.rd_wr, if_neg (fun e => h (by unfold fdRegs; rw [hp]; exact e ▸ List.mem_cons_self))]
        exact State.fdStore_rd _ _ _ _ _ h
      · exact State.fdStore_rd _ _ _ _ _ h
    · exact State.fdStore_rd _ _ _ _ _ h
theorem State.fdFault_rest (s : State) (c ch : Nat) : ∃ t, (s.fdFault c ch).1.rest = { s.rest with fd := t } := by
  unfold State.fdFault
  dsimp only
  split
  · exact ⟨s.fd, rfl⟩
  · dsimp only
    split
    · split
      · exact ⟨_, by rw [State.setB_eq, State.rest_wr, State.fdStore_rest]; rfl⟩
      · exact ⟨_, by rw [State.fdStore_rest]; rfl⟩
    · exact ⟨_, by rw [State.fdStore_rest]; rfl⟩

end Sys2Proof.Machine
end

