-- ==== Sys2Proof/Laws/Commit.lean ====
section
/-! SUPPORT. What COMMIT_STAT's updates and a rejected commit do (R50, R56, R66), and what a performed write leaves of its page. -/

namespace Sys2Proof.Machine

theorem commit_page (p : Nat) : R.COMMIT p / 0x1000 = p := by simp only [R.COMMIT]; omega
theorem commitStat_page_of (p : Nat) : R.COMMIT_STAT p / 0x1000 = p := by simp only [R.COMMIT_STAT]; omega

theorem commitStat_not_irq (p : Nat) : R.COMMIT_STAT p ∉ irqRegs p := by
  simp only [irqRegs, List.mem_cons, List.not_mem_nil, or_false, R.COMMIT_STAT, R.IRQ_STAT, R.router_VEC_ARM]; omega

/-! ### COMMIT_STAT -/

theorem State.commitStat_rd (s : State) (p st r f a : Nat) :
    (s.commitStat p st r f).rd a =
      if a = R.COMMIT_STAT p then BitVec.ofNat 32 (st + r * 256 + f * 65536 + s.f (R.COMMIT_STAT p) 31 28 * 2 ^ 28) else s.rd a := by
  simp [State.commitStat]
@[simp] theorem State.commitStat_rest (s : State) (p st r f : Nat) : (s.commitStat p st r f).rest = s.rest := by simp [State.commitStat]
@[simp] theorem State.commitStat_page (s : State) (p st r f q : Nat) : (s.commitStat p st r f).page q = s.page q := by simp [State.commitStat]
@[simp] theorem State.commitStat_now (s : State) (p st r f : Nat) : (s.commitStat p st r f).now = s.now := by simp [State.commitStat]

/-! ### A rejected commit -/

theorem State.rejectCommit_rd (s : State) (p r f a : Nat) (h : a ∉ irqRegs p) (h2 : a ≠ R.COMMIT_STAT p) : (s.rejectCommit p r f).rd a = s.rd a := by
  unfold State.rejectCommit State.relock
  rw [State.setPage_rd, State.irqB_rd _ _ _ _ h, State.commitStat_rd, if_neg h2]
theorem State.rejectCommit_stat (s : State) (p r f : Nat) :
    (s.rejectCommit p r f).rd (R.COMMIT_STAT p) = BitVec.ofNat 32 (4 + r * 256 + f * 65536 + s.f (R.COMMIT_STAT p) 31 28 * 2 ^ 28) := by
  unfold State.rejectCommit State.relock
  rw [State.setPage_rd, State.irqB_rd _ _ _ _ (commitStat_not_irq p), State.commitStat_rd, if_pos rfl]
@[simp] theorem State.rejectCommit_rest (s : State) (p r f : Nat) : (s.rejectCommit p r f).rest = s.rest := by
  unfold State.rejectCommit State.relock; simp
theorem State.rejectCommit_page (s : State) (p r f q : Nat) :
    (s.rejectCommit p r f).page q = if q = p then { s.page p with unlocked := false } else s.page q := by
  unfold State.rejectCommit State.relock; simp
theorem State.rejectCommit_irq (s : State) (p r f : Nat) : (s.rejectCommit p r f).b (R.IRQ_STAT p) 1 = true := by
  unfold State.rejectCommit State.relock State.b bit
  rw [State.setPage_rd]; unfold State.irqB
  rw [State.irq_stat]; simp

/-! ### The pages of a performed write -/

theorem OnlyGate.page_ne {s u : State} {t : Time} {p : Nat} (h : OnlyGate s u t p) (q : Nat) (hq : q ≠ p) : u.page q = s.page q := by
  rcases h.page q with h' | ⟨h', _⟩
  · exact h'
  · exact absurd h' hq
theorem OnlyGate.page_kept {s u : State} {t : Time} {p : Nat} (h : OnlyGate s u t p) :
    (u.page p).check = (s.page p).check ∧ (u.page p).pend = (s.page p).pend ∧ (u.page p).armed = (s.page p).armed ∧
    (u.page p).unlocked = (s.page p).unlocked ∧ (u.page p).latch = (s.page p).latch ∧ (u.page p).checkLatch = (s.page p).checkLatch ∧
    (u.page p).armLatch = (s.page p).armLatch := by
  rcases h.page p with h | ⟨_, h⟩ <;> simp [h]

end Sys2Proof.Machine
end

