-- ==== Sys2Proof/Laws/Issue.lean ====
section
/-! SUPPORT. What counting an engine's events changes (R586, R589), and what issuing an instruction does with its meaning's answer (R112, R129). -/

namespace Sys2Proof.Machine

/-! ### Events of an engine -/

/-- Counting changes registers of the performance pages, the wrap notes and the slot account of engine e, and nothing else. -/
structure OnlyCounts (s u : State) (e : Nat) : Prop where
  quiet : QuietRegs s u []
  rest : u.rest = { s.rest with engs := u.engs, perf := u.perf }
  servs : (u.eng e).servs = (s.eng e).servs
  mode : (u.eng e).mode = (s.eng e).mode
  written : (u.eng e).written = (s.eng e).written
  kept : EngsKept s u e
  now : u.now = s.now
  freeCtr : u.freeCtr = s.freeCtr

theorem OnlyCounts.refl (s : State) (e : Nat) : OnlyCounts s s e := ⟨fun _ _ _ => rfl, rfl, rfl, rfl, rfl, fun _ _ => rfl, rfl, rfl⟩

theorem OnlyCounts.trans {s u w : State} {e : Nat} (h : OnlyCounts s u e) (g : OnlyCounts u w e) : OnlyCounts s w e :=
  ⟨fun a h1 h2 => (g.quiet a h1 h2).trans (h.quiet a h1 h2), by rw [g.rest, h.rest], g.servs.trans h.servs, g.mode.trans h.mode, g.written.trans h.written,
   fun d hd => (g.kept d hd).trans (h.kept d hd), g.now.trans h.now, g.freeCtr.trans h.freeCtr⟩

theorem OnlyCounts.foldl {β : Type} {e : Nat} (f : State → β → State) (hf : ∀ s x, OnlyCounts s (f s x) e) (l : List β) (s : State) : OnlyCounts s (l.foldl f s) e := by
  induction l generalizing s with
  | nil => exact OnlyCounts.refl s e
  | cons x r ih => exact (hf s x).trans (ih (f s x))

theorem State.wr48_counts (s : State) (e a : Nat) (v : W48) (h1 : 0xF8000 ≤ a) (h2 : a + 4 < 0x100000) : OnlyCounts s (s.wr48 a v) e := by
  refine ⟨fun b _ hb => ?_, rfl, rfl, rfl, rfl, fun _ _ => rfl, rfl, rfl⟩
  unfold State.wr48
  rw [State.rd_wr, if_neg (by omega), State.rd_wr, if_neg (by omega)]

theorem State.perf_counts (s : State) (e : Nat) (x : PerfSt) : OnlyCounts s { s with perf := x } e :=
  ⟨fun _ _ _ => rfl, rfl, rfl, rfl, rfl, fun _ _ => rfl, rfl, rfl⟩

theorem State.pcntAdd_counts (s : State) (e i n : Nat) (he : e < 32) (hi : i < 9) : OnlyCounts s (s.pcntAdd e i n) e := by
  have hw := State.wr48_counts s e (R.perfCell_PCNT_LO (e / 4) (e % 4) i)
    (BitVec.ofNat 48 ((s.rd48 (R.perfCell_PCNT_LO (e / 4) (e % 4) i)).toNat + n)) (by unfold R.perfCell_PCNT_LO; omega) (by unfold R.perfCell_PCNT_LO; omega)
  unfold State.pcntAdd
  dsimp only
  split
  · exact hw
  · exact hw.trans (State.perf_counts _ e _)

theorem State.perfEv_counts (s : State) (e code n : Nat) (off : Option Nat) (he : e < 32) : OnlyCounts s (s.perfEv e code n off) e := by
  unfold State.perfEv
  split
  · exact OnlyCounts.refl s e
  · have key (l : List Nat) (hl : ∀ i ∈ l, i < 9) (u : State) : OnlyCounts u (l.foldl (fun s i => if s.pcounts e i code off then s.pcntAdd e i n else s) u) e := by
      induction l generalizing u with
      | nil => exact OnlyCounts.refl u e
      | cons i r ih =>
        refine OnlyCounts.trans ?_ (ih (fun j hj => hl j (List.mem_cons_of_mem _ hj)) _)
        dsimp only
        split
        · exact State.pcntAdd_counts u e i n he (hl i List.mem_cons_self)
        · exact OnlyCounts.refl u e
    exact key _ (fun i hi => by have := List.mem_range.1 hi; omega) s

theorem State.setEng_slot (s : State) (e a k p : Nat) : OnlyCounts s (s.setEng e { s.eng e with slotAt := a, slotClass := k, ad := p }) e := by
  have hg (d : Nat) : (s.setEng e { s.eng e with slotAt := a, slotClass := k, ad := p }).eng d =
      if d = e then { s.eng e with slotAt := a, slotClass := k, ad := p } else s.eng d := by
    unfold State.eng State.setEng
    exact Tab.get_set _ _ _ _ _ _ fun _ => rfl
  refine ⟨fun _ _ _ => rfl, rfl, ?_, ?_, ?_, fun d hd => ?_, rfl, rfl⟩
  · rw [hg, if_pos rfl]
  · rw [hg, if_pos rfl]
  · rw [hg, if_pos rfl]
  · rw [hg, if_neg hd]

theorem State.slots_counts (s : State) (e k : Nat) (he : e < 32) : OnlyCounts s (s.slots e k) e := by
  unfold State.slots
  dsimp only
  exact ((OnlyCounts.foldl _ (fun u x => State.perfEv_counts u e _ _ _ he) _ _).trans (OnlyCounts.foldl _ (fun u x => State.perfEv_counts u e _ _ _ he) _ _)).trans
    (State.setEng_slot _ e _ _ _)

theorem State.slotIssue_counts (s : State) (e : Nat) (r : Bool) (k p : Nat) (he : e < 32) : OnlyCounts s (s.slotIssue e r k p) e := by
  unfold State.slotIssue
  dsimp only
  exact (((State.slots_counts s e k he).trans (State.perfEv_counts _ e _ _ _ he)).trans (State.perfEv_counts _ e _ _ _ he)).trans (State.setEng_slot _ e _ _ _)

/-! ### Issue -/

/-- The operation after its instruction has issued: the next address, and whether it has ended. -/
def issued (r : BRow) (dflt : Nat) (v : Serv) : Serv :=
  let b := if r = .ctl 4 then v.bank else v.bank.next dflt
  { v with bank := b, ended := b.fin = some 0 }

/-- The address that follows when no branch is taken. -/
def followOf (s : State) (v : Serv) : Nat :=
  match (v.bank.advance.loopEnd s.freeCtr v.bank.pc).2 with
  | some x => x
  | none => (v.bank.pc + 1) % 8192

/-- An instruction whose meaning answers a state and an operation: they stand, with the issue slot counted and the operation at its next address. -/
theorem State.issue_ok {s s' : State} {t : Time} {e : Nat} {r : BRow} {v v' : Serv} {w : W48} {f : State → Nat → Serv → W48 → IRes}
    (h : s.Issues e r v w) (hf : f (s.tick t) (s.topDepth e) { v with bank := s.readBank v } w = .ok s' v') :
    ∃ k, s.issue t e r f = ((if v.bank.advance.hist.any (·.broken) then s'.useFree else s').slotIssue e true k v.bank.pc).setTop e (issued r (followOf s v) v') := by
  obtain ⟨h1, h2, h3, h4, h5, h6, h7, h8, h9⟩ := h
  have g1 : (s.tick t).top e = some v := h1
  have g2 : (s.tick t).canIssue e v = true := h2
  have g3 : (s.tick t).word48 (engInstrAddr e v.bank.pc) = w := h3.symm
  have g8 : (s.tick t).eccAt (engInstrAddr e v.bank.pc) = .good := h8
  have g6 : ((wordD w).any fun d => v.pendingD.contains d) = false := by
    rw [List.any_eq_false]
    intro d hd hc
    exact h6 d hd (by simpa using hc)
  have g7 : (decide (r = .mem 4) && decide ((s.tick t).pendingLoads e ≥ 4)) = false := by
    by_cases hr : r = .mem 4
    · have h7' : (s.tick t).pendingLoads e < 4 := h7 hr
      simp [hr]; omega
    · simp [hr]
  refine ⟨if (issued r (followOf s v) v').ended then 3 else if (decide (r = .ctl 4) && decide ((issued r (followOf s v) v').bank.pc ≠ (v.bank.pc + 1) % 8192)) then 1
    else if !v'.pendingD.isEmpty then 2 else 5, ?_⟩
  unfold State.issue
  dsimp only
  rw [g1]
  dsimp only
  rw [g3, g2, h4, h5, g6, g8]
  have g9 : issueBad v.bank.advance (s.tick t).freeCtr w = false := h9
  rw [if_neg (by simp)]
  rw [if_neg (by rw [g7]; simp), if_neg (by simp), g9, if_neg (by simp), if_neg (by simp)]
  have hf' : f (s.tick t) ((s.tick t).topDepth e) { v with bank := (v.bank.advance.loopEnd (s.tick t).freeCtr v.bank.pc).1 } w = .ok s' v' := hf
  rw [hf']
  rfl

end Sys2Proof.Machine
end

