-- ==== Sys2Proof/Laws/Mem.lean ====
section
/-! SUPPORT. The operations over memory and registers keep the canonical form; a read after a write gives what was written and every other byte is as before. -/

namespace Sys2Proof.Machine

/-! ## Reads after writes -/

theorem State.setByte_byte (s : State) (a b : Nat) (v : Byte) : (s.setByte a v).byte b = if b = a then v else s.byte b := by
  unfold State.byte State.setByte
  exact Tab.get_set _ _ _ _ _ _ fun _ => rfl

theorem State.setBytes_byte_out (s : State) (a b : Nat) (l : List Byte) (h : b < a ∨ a + l.length ≤ b) : (s.setBytes a l).byte b = s.byte b := by
  induction l generalizing s a with
  | nil => rfl
  | cons x r ih =>
    simp only [List.length_cons] at h
    unfold State.setBytes
    rw [ih _ _ (by omega), State.setByte_byte, if_neg (by omega)]

theorem State.setBytes_bytes (s : State) (a : Nat) (l : List Byte) : (s.setBytes a l).bytes a l.length = l := by
  induction l generalizing s a with
  | nil => rfl
  | cons x r ih =>
    simp only [State.setBytes, List.length_cons, State.bytes]
    rw [ih, State.setBytes_byte_out _ _ _ _ (.inl (Nat.lt_succ_self a)), State.setByte_byte, if_pos rfl]

theorem State.bytes_congr (s u : State) (a n : Nat) (h : ∀ b, a ≤ b → b < a + n → u.byte b = s.byte b) : u.bytes a n = s.bytes a n := by
  induction n generalizing a with
  | zero => rfl
  | succ n ih =>
    unfold State.bytes
    rw [h a (Nat.le_refl a) (by omega), ih (a + 1) fun b h1 h2 => h b (by omega) (by omega)]

@[simp] theorem natLe_length (n x : Nat) : (natLe n x).length = n := by
  induction n generalizing x with
  | zero => rfl
  | succ n ih => simp [natLe, ih]

theorem leNat_natLe (n x : Nat) : leNat (natLe n x) = x % 256 ^ n := by
  induction n generalizing x with
  | zero => simp [leNat, natLe, Nat.mod_one]
  | succ n ih =>
    simp only [natLe, leNat, ih, BitVec.toNat_ofNat]
    rw [show (256 : Nat) ^ (n + 1) = 256 * 256 ^ n from Nat.pow_succ' .., Nat.mod_mul]

@[simp] theorem State.setEcc_bytes (s : State) (a b n : Nat) (e : Ecc) : (s.setEcc a e).bytes b n = s.bytes b n := State.bytes_congr _ _ _ _ fun _ _ _ => rfl

/-- A 64-bit location reads back as it was written, modulo 2^64. -/
theorem State.wr64_le (s : State) (a v : Nat) : (s.wr64 a v).le (loc64 a) 8 = v % 2 ^ 64 := by
  unfold State.le State.wr64
  rw [State.setEcc_bytes]
  have h := State.setBytes_bytes s (loc64 a) (natLe 8 v)
  rw [natLe_length] at h
  rw [h]
  exact (leNat_natLe 8 v).trans (congrArg (v % ·) (by decide))

theorem State.wr64_byte_out (s : State) (a v b : Nat) (h : b < loc64 a ∨ loc64 a + 8 ≤ b) : (s.wr64 a v).byte b = s.byte b := by
  unfold State.wr64
  rw [State.setEcc_byte, State.setBytes_byte_out _ _ _ _ (by simpa using h)]

/-- A 48-bit word reads back as it was stored. -/
theorem State.setWord48_word48 (s : State) (a : Nat) (v : W48) : (s.setWord48 a v).word48 a = v := by
  unfold State.word48 State.setWord48
  rw [State.wr64_le]
  apply BitVec.eq_of_getLsbD_eq
  intro i hi
  rw [BitVec.getLsbD_ofNat, decide_eq_true hi, Bool.true_and, Nat.testBit_mod_two_pow]
  have : i < 64 := by omega
  rw [decide_eq_true this, Bool.true_and]
  show (v.signExtend 64).getLsbD i = _
  rw [BitVec.getLsbD_signExtend]
  simp [this, hi]

/-! ## The canonical form of memory -/

theorem State.setByte_wf (s : State) (a : Nat) (v : Byte) (h : Memory.wf s.mem = true) : Memory.wf (s.setByte a v).mem = true :=
  Tab.wf_set (fun _ => (0 : Byte)) s.mem a v h

theorem State.setBytes_wf (s : State) (a : Nat) (l : List Byte) (h : Memory.wf s.mem = true) : Memory.wf (s.setBytes a l).mem = true := by
  induction l generalizing s a with
  | nil => exact h
  | cons x r ih => exact ih _ _ (State.setByte_wf s a x h)

theorem State.wr64_wf (s : State) (a v : Nat) (h : Memory.wf s.mem = true) : Memory.wf (s.wr64 a v).mem = true := State.setBytes_wf s _ _ h

theorem State.setWord48_wf (s : State) (a : Nat) (v : W48) (h : Memory.wf s.mem = true) : Memory.wf (s.setWord48 a v).mem = true := State.wr64_wf s a _ h

theorem State.storeBytes_wf (s : State) (a : Nat) (l : List Byte) (h : Memory.wf s.mem = true) : Memory.wf (s.storeBytes a l).mem = true := by
  unfold State.storeBytes
  dsimp only
  have key (n : Nat) (u : State) : ((List.range n).foldl (fun s i => s.setEcc (a + 8 * i) .good) u).mem = u.mem := by
    rw [← List.foldl_hom State.mem (g₁ := fun s i => s.setEcc (a + 8 * i) .good) (g₂ := fun m _ => m) (fun _ _ => rfl)]
    induction List.range n with
    | nil => rfl
    | cons _ _ ih => exact ih
  rw [key]
  exact State.setBytes_wf s a l h

theorem State.putWords_wf (s : State) (a n : Nat) (l : List Byte) (h : Memory.wf s.mem = true) : Memory.wf (s.putWords a n l).mem = true := by
  induction n generalizing s a l with
  | zero => exact h
  | succ n ih =>
    unfold State.putWords
    exact ih _ _ _ (State.wr64_wf s a _ h)

theorem Memory.wf_clear (m : List Host.Cell) (lo hi : Nat) (h : Memory.wf m = true) : Memory.wf (Tab.clear m lo hi) = true := Tab.wf_clear _ m lo hi h

theorem Memory.wf_sets {β : Type} (m : List Host.Cell) (l : List β) (k : β → Nat) (v : β → Byte) (h : Memory.wf m = true) :
    Memory.wf (l.foldl (fun (m : Tab Byte) x => Tab.set m (k x) (v x) 0) m) = true := by
  induction l generalizing m with
  | nil => exact h
  | cons x r ih => exact ih _ (Tab.wf_set (fun _ => (0 : Byte)) m (k x) (v x) h)

/-! ## The canonical form of a state -/

theorem State.Canonical.congr {s u : State} (h : s.Canonical) (hm : u.mem = s.mem) (hr : u.regs = s.regs) (hs : u.stage = s.stage) : u.Canonical := by
  unfold State.Canonical; rw [hm, hr, hs]; exact h

theorem State.Canonical.wr {s : State} (h : s.Canonical) (a : Nat) (v : W32) : (s.wr a v).Canonical := ⟨h.1, Tab.wf_set resetOf s.regs a v h.2.1, h.2.2⟩
theorem State.Canonical.wrStage {s : State} (h : s.Canonical) (a : Nat) (v : W32) : (s.wrStage a v).Canonical := ⟨h.1, h.2.1, Tab.wf_set resetOf s.stage a v h.2.2⟩
theorem State.Canonical.setByte {s : State} (h : s.Canonical) (a : Nat) (v : Byte) : (s.setByte a v).Canonical := ⟨State.setByte_wf s a v h.1, h.2⟩
theorem State.Canonical.setF {s : State} (h : s.Canonical) (a hi lo x : Nat) : (s.setF a hi lo x).Canonical := h.wr _ _
theorem State.Canonical.setB {s : State} (h : s.Canonical) (a i : Nat) (v : Bool) : (s.setB a i v).Canonical := h.wr _ _
theorem State.Canonical.inc {s : State} (h : s.Canonical) (a hi lo n : Nat) : (s.inc a hi lo n).Canonical := h.wr _ _
theorem State.Canonical.incMod {s : State} (h : s.Canonical) (a hi lo n : Nat) : (s.incMod a hi lo n).Canonical := h.wr _ _
theorem State.Canonical.wr48 {s : State} (h : s.Canonical) (a : Nat) (v : W48) : (s.wr48 a v).Canonical := (h.wr _ _).wr _ _
theorem State.Canonical.w1c {s : State} (h : s.Canonical) (a : Nat) (v : W32) : (s.w1c a v).Canonical := h.wr _ _
theorem State.Canonical.hwSetBits {s : State} (h : s.Canonical) (a : Nat) (v : W32) : (s.hwSetBits a v).Canonical := (h.wr a _).congr rfl rfl rfl
theorem State.Canonical.setBytes {s : State} (h : s.Canonical) (a : Nat) (l : List Byte) : (s.setBytes a l).Canonical := by
  induction l generalizing s a with
  | nil => exact h
  | cons x r ih => exact ih (h.setByte a x) _
theorem State.Canonical.wr64 {s : State} (h : s.Canonical) (a v : Nat) : (s.wr64 a v).Canonical := (h.setBytes _ _).congr rfl rfl rfl
theorem State.Canonical.setWord48 {s : State} (h : s.Canonical) (a : Nat) (v : W48) : (s.setWord48 a v).Canonical := h.wr64 _ _

/-- An operation applied over a list keeps the form when each application does. -/
theorem State.Canonical.foldl {β : Type} {s : State} (h : s.Canonical) (f : State → β → State) (hf : ∀ u x, u.Canonical → (f u x).Canonical) (l : List β) :
    (l.foldl f s).Canonical := by
  induction l generalizing s with
  | nil => exact h
  | cons x r ih => exact ih (hf _ _ h)

theorem State.Canonical.vecUpdate {s : State} (h : s.Canonical) (v : Nat) : (s.vecUpdate v).Canonical := by
  unfold State.vecUpdate
  dsimp only
  split
  · split
    · split
      · exact (h.setB _ _ _).congr rfl rfl rfl
      · split
        · exact (h.setB _ _ _).congr rfl rfl rfl
        · exact h.congr rfl rfl rfl
    · exact h
  · exact (h.setB _ _ _).congr rfl rfl rfl

theorem State.Canonical.pageIrq {s : State} (h : s.Canonical) (p : Nat) : (s.pageIrq p).Canonical := by
  unfold State.pageIrq
  dsimp only
  have h1 : (if s.routeByte (R.router_ROUTE 0) p ≥ 128 then s.vecUpdate (s.routeByte (R.router_ROUTE 0) p % 64) else s).Canonical := by
    split
    · exact h.vecUpdate _
    · exact h
  split
  · refine h1.foldl _ (fun u x hu => ?_) _
    split
    · exact hu.vecUpdate _
    · exact hu
  · exact h1

theorem State.Canonical.irq {s : State} (h : s.Canonical) (p bits : Nat) : (s.irq p bits).Canonical := (h.hwSetBits _ _).pageIrq p
theorem State.Canonical.irqB {s : State} (h : s.Canonical) (p i : Nat) : (s.irqB p i).Canonical := h.irq p _
theorem State.Canonical.irqIf {s : State} (h : s.Canonical) (c : Bool) (p i : Nat) : (s.irqIf c p i).Canonical := by
  unfold State.irqIf
  split
  · exact h.irqB p i
  · exact h

end Sys2Proof.Machine
end

