-- ==== Sys2Proof/WellFormed.lean ====
section
/-! DEFINITION. Which commands are well formed: those whose data operands have the sizes the spec gives them. Addresses, accesses and register values
are not restricted here: what the device does with a bad one is the command's effect (R40, R531). -/

namespace Sys2Proof

/-- The size of an access in bytes (Table 2.1). -/
def AccSize.bytes : AccSize → Nat
  | .b1 => 1
  | .b2 => 2
  | .b4 => 4
  | .b8 => 8

/-- A value no wider than its access. -/
def fitsAccess (size : AccSize) (val : W64) : Bool := val.toNat < 2 ^ (8 * size.bytes)

/-- ECC errors lie at 64-bit locations (R17). -/
def EccHit.wf (h : EccHit) : Bool := h.addr.toNat % 8 = 0

/-- A frame ends after it began. -/
def SlotFrame.wf (f : SlotFrame) : Bool := f.sfd ≤ f.efd

/-- A fragment ends after it began and carries 1 to 256 bytes, and all but the last carry 256 (R322). -/
def Fragment.wf (f : Fragment) : Bool :=
  f.sfd ≤ f.efd && 1 ≤ f.data.length && f.data.length ≤ 256 && (f.last || f.data.length = 256)

/-- Four line-position sources, eight QE channels and four delay lists (R431). -/
def AgreementRec.wf (r : AgreementRec) : Bool := r.lps.length = 4 && r.qes.length = 8 && r.ticks.length = 4

/-- Data bytes by DLC for FD frames (Table 17.2). -/
def dlcBytes (dlc : Nat) : Nat :=
  if dlc ≤ 8 then dlc else if dlc ≤ 12 then 8 + (dlc - 8) * 4 else if dlc = 13 then 32 else if dlc = 14 then 48 else 64

/-- A standard identifier has 11 bits; an FD frame is no remote frame; the data has the length of DLC. -/
def CanFrame.wf (f : CanFrame) : Bool :=
  (f.ide || f.id.toNat < 2 ^ 11) && !(f.fdf && f.rtr) &&
  f.data.length = (if f.rtr then 0 else if f.fdf then dlcBytes f.dlc.toNat else min f.dlc.toNat 8)

/-- The header of 14 bytes is there, and the length counts the FCS. -/
def EthFrame.wf (f : EthFrame) : Bool := 14 ≤ f.bytes.length && f.len = f.bytes.length + 4

/-- A write carries its bytes, and a read none. -/
def carries (write : Bool) (len : Nat) (data : List Byte) : Bool := data.length = (if write then len else 0)

/-- Device 0 of a cascade's enumeration is the root itself, so at most 63 others are found (R453). -/
def foundMax : Nat := 63

/-- Whether a command's operands have the sizes the spec gives them. -/
def Instr.wf : Instr → Bool
  | .registerWrite _ _ _ size val => fitsAccess size val
  | .mirroredWrite _ _ size val _ => fitsAccess size val
  | .scrubPass _ hits => hits.all EccHit.wf
  | .slotFrameReceive _ _ f => f.wf
  | .uplinkFragmentReceive _ _ f => f.wf
  | .request _ _ r => r.sfd ≤ r.efd
  | .agreementRecord _ r => r.wf
  | .staleMaskExchange _ masks => masks.length = 8
  | .rootElection _ _ found => found.length ≤ foundMax
  | .bar2Request _ r => carries r.write r.len r.data
  | .hostMemoryRequest _ _ _ write len data => carries write len data
  | .fuseLoadDone _ copy0 copy1 => copy0.length = 256 && copy1.length = 256
  | .dmaElementStart _ desc => desc.length = 32
  | .canFrameReceive _ _ f => f.wf
  | .ethFrameReceive _ _ f => f.wf
  | .loReadShadow .. | .ecycW0Read .. | .irqSet .. | .commitGo .. | .commitArm .. | .commitDiscard .. | .commitConflict .. | .commitCheckEnd ..
  | .commitTakeEffect .. | .commitImmediate .. | .gcommitGo .. | .lockKey1 .. | .lockKey2 .. | .lockOtherValue .. | .unlockTimeout ..
  | .errInfoClear .. | .trapStatClear .. | .eccStatClear .. | .fltInfoClear .. | .cycleStart .. | .axisMirrorWrite .. | .commandWindowWrite ..
  | .transmitPointerReach .. | .fieldRelease .. | .slotEndTruncate .. | .windowCloseMissing .. | .dqPush .. | .uqPop ..
  | .downlinkDynamicSegment .. | .timeEventFire .. | .angleEventFire .. | .operationDispatch .. | .preemptAccept .. | .spillDone ..
  | .spillReadbackDone .. | .farLoadReturn .. | .operationEnd .. | .operationComplete .. | .delayListTick .. | .refire .. | .doorbell ..
  | .flowEnWrite .. | .load .. | .loadEnd .. | .activate .. | .loadCtlClear .. | .graphSwitch .. | .laharClrCnt .. | .cellClrCnt ..
  | .routeRewrite .. | .copyDone .. | .mpy .. | .mac .. | .msu .. | .macx .. | .msux .. | .adda .. | .parallelMove .. | .add .. | .sub ..
  | .adds .. | .subs .. | .neg .. | .abs .. | .min .. | .max .. | .and .. | .or .. | .xor .. | .not .. | .asl .. | .asr .. | .lsl .. | .lsr ..
  | .cmp .. | .tst .. | .mov .. | .movh .. | .cmov .. | .ld .. | .st .. | .ldp .. | .stp .. | .fld .. | .fst .. | .nop .. | .br .. | .brr ..
  | .jl .. | .loop .. | .done .. | .movs .. | .movr .. | .movi .. | .rnd .. | .mova .. | .clr .. | .exp .. | .norm .. | .bfsc .. | .rds ..
  | .post .. | .sos .. | .sosCascade .. | .pi .. | .rampTimeout .. | .piDq .. | .clarke .. | .park .. | .ipark .. | .svm .. | .pvt .. | .gear ..
  | .standstillRequest .. | .homeTimeout .. | .axisIn .. | .axisOut .. | .pcmdStart .. | .pcmdStop .. | .pcmdFlush .. | .homeGo .. | .wake ..
  | .pcmdClear .. | .ringPut .. | .qeTransition .. | .illegalTransition .. | .index .. | .armIdx .. | .lpSourceLost .. | .lpBroadcastReceive ..
  | .comparePush .. | .compareFlush .. | .compareForce .. | .compareReach .. | .pulseEnd .. | .foreignSync .. | .startAttemptEnd ..
  | .withdrawnSilence .. | .backoffEnd .. | .admissionRunOpen .. | .admitGo .. | .admissionNoResponse .. | .mreply .. | .joinTimeout ..
  | .nodeSuspect .. | .nodeSuspectClear .. | .nodeExclude .. | .ntcmdRelease .. | .reintegrate .. | .craterClrCnt .. | .branchClrCnt ..
  | .nodeTableClrCnt .. | .resampleInterval .. | .blockClose .. | .recordWriteDone .. | .ringRdWrite .. | .fillComplete .. | .captureDone ..
  | .autoTimeout .. | .tcmdArm .. | .tcmdAck .. | .tcmdStop .. | .tcmdForce .. | .geyserClrCnt .. | .ptpSync .. | .ptpFollowUp ..
  | .ptpDelayResp .. | .delayReqSend .. | .cascadeTimeMessage .. | .ppsInEdge .. | .timeStep .. | .masterLost .. | .secondBoundary ..
  | .ppsOutFall .. | .stepAccept .. | .latch .. | .secSet .. | .nowNsLoRead .. | .pcmdClaim .. | .pcmdRelease .. | .pcmdResync .. | .echoOn ..
  | .echoOff .. | .peerClaimChange .. | .intlkChange .. | .claimRaise .. | .releasePoint .. | .agreementTimeout .. | .mirrorTimeout ..
  | .forwardedSlotData .. | .digestExchange .. | .echoAutoStart .. | .echoForwardedFrame .. | .resyncRoundEnd .. | .cascadeReadTimeout ..
  | .cascadeInterrupt .. | .remotePendClear .. | .selfTestDispatch .. | .selfTestTimeout .. | .nodeSafetyTimeout .. | .cmdMiss .. | .cycleMiss ..
  | .axcmdStop .. | .axcmdAck .. | .ss1tExpire .. | .ss1rTmax .. | .stoFeedbackSample .. | .offPulseTestEnd .. | .sinSample .. | .sinDiscrepancy ..
  | .channelDisagree .. | .clockCrossCheck .. | .supplyExcursion .. | .selftestEnd .. | .scmdAck .. | .scmdDsto .. | .paramAck .. | .por ..
  | .nrstIn .. | .perst .. | .hotReset .. | .trst .. | .rstReq .. | .rstHold .. | .wdogWarn .. | .wdogExpire .. | .wdogKick .. | .resetRelease ..
  | .pllLock .. | .exitStepDone .. | .flashImageCheck .. | .bootWriteRecord .. | .bootWaitRecord .. | .bootWaitEnd .. | .bootEndRecord ..
  | .configWrite .. | .vecArm .. | .msixMaskChange .. | .tailWrite .. | .dmaHostCompletion .. | .dmaElementLanded .. | .chCmdResume ..
  | .chCmdStop .. | .chCmdSkip .. | .chCmdReset .. | .tlbInv .. | .invalidationDone .. | .tableWalkDone .. | .txreq .. | .txcan ..
  | .canTxSuccess .. | .canFailedAttempt .. | .recover .. | .canRecovered .. | .rxfullFree .. | .canDisable .. | .rxRdWrite .. | .txWrWrite ..
  | .ethFrameSent .. | .mbxRxFree .. | .mbxTx .. | .mdioCmd .. | .mdioDone .. | .ethLinkChange .. | .gpioSet .. | .gpioClr .. | .padWrite ..
  | .twiCmd .. | .twiDone .. | .twiTimeout .. | .bwWindowEnd .. | .freeze .. | .counterOverflow .. | .clrPeak .. | .hiRead ..
  | .grantWindowClose .. | .taleirReceiverLockLoss .. | .luavanPortLockChange .. | .pxLinkChange .. | .pcieLinkChange ..
  | .cascadeReadCompletion .. | .pcieCompletionTimeout .. | .canReceiveError .. | .sinterSelfTest .. | .clockWindowTimeout ..
  | .partnerSafetyDemand .. => true

end Sys2Proof
end

