-- ==== Sys2Proof/Tests/Slice0.lean ====
section
/-! SUPPORT. The model's own tests: a witness for each statement that has hypotheses, clause by clause; ill-formed commands; the spec's worked examples. -/

namespace Sys2Proof.Tests
open Sys2Proof.Machine
set_option Elab.async false
/-- Registers set. -/
def poke (s : State) (l : List (Nat × W32)) : State := { s with regs := l.reverse ++ s.regs }
/-- Bytes set, lowest address first; a byte 0 is what memory reads as unwritten. -/
def fill (s : State) (a : Nat) (l : List Byte) : State := { s with mem := ((l.zipIdx.filter (·.1 ≠ 0)).map fun x => (a + x.2, x.1)) ++ s.mem }
/-- A device out of reset, its fuses read, with every engine in service, the host's BARs open and every lockable page unlocked. -/
def live : State :=
  let s : State := {
    rst := { exitStep := 9, loading := false, fuseOk := true, pllLock := true }, pcie := { up := true, memEn := true, busMaster := true }, now := 1200000, freeCtr := 1
    pages := ([0x10, 0x11, 0x30, 0x31, 0x32, 0x33, 0x34, 0x35, 0x38, 0x39, 0x3A, 0x3B, 0x3C, 0x3D, 0x3E, 0x3F, 0x90] ++ (List.range 8).map (0xA0 + ·) ++
      (List.range 8).map (0xB0 + ·)).map fun p => (p, { unlocked := true }) }
  poke s ((List.range 8).map fun c => (R.cell_ENG_IN_SERVICE c, 15))

/-- A program operation at address 0. -/
def prog : OpRec := { program := true, prio := 3, cell := 0, ctx := 1, flow := none, nIn := 1, nOut := 2, code := 0, param := 0 }
/-- A graph of two operations: operation 0 feeds operation 1, and so does doorbell 9. -/
def graphFor (r : OpRec) : Graph := {
  imageId := 7, ops := [r, prog]
  arcs := [{ dstOp := 1, dstPort := 0, src := 0, srcPort := 0, kind := 0, keep := false, init := false, viaDl := false, dl := 0, delay := 0 },
    { dstOp := 1, dstPort := 1, src := 9, srcPort := 0, kind := 5, keep := false, init := false, viaDl := false, dl := 0, delay := 0 }]
  flows := [], ctxs := [{ id := 1, priv := 1, root := 0x01000000 }], cells := [], dls := [] }
/-- The graph runs with operation 0 as r, and the engines hold what is given. -/
def serving (r : OpRec) (g : Tab Eng) : State :=
  poke { live with
    engs := g
    lahar := { graphs := [(0, some (graphFor r))], ops := [(0, { phase := 2, toks := [{ word := 0, at' := { cyc := 0, tcyc := 0, lpp := [] } }] }), (1, { phase := 1 })] } }
    [(R.lahar_GRAPH_STAT, 1)]
/-- Operation 0 in service, fresh. -/
def sv : Serv := { key := 0, prio := 3 }
/-- Operation 1. -/
def rdy : Ready := { key := 1, prio := 5, cyc := 0, again := false }

/-- Page tables that map the first 2 MiB of context 1 onto device shared memory at 0x01200000. -/
def mapped (s : State) : State :=
  fill (fill (fill s 0x01000000 (natLe 8 0x01001001)) 0x01001000 (natLe 8 0x01002001)) 0x01002000 (natLe 8 0x0120001F)

/-- In pair mode, without a claim. -/
def pairLive : State := poke live [(R.pair_PCFG, 1)]
/-- In pair mode, with the claim. -/
def claimed : State := { pairLive with pair := { claim := true, sync := 2, pxUp := true } }
/-- The standby of a pair in LOCKSTEP. -/
def standby : State := { pairLive with pair := { claim := false, sync := 2, pxUp := true } }
/-- A graph image: one operation, which feeds itself. -/
def image : List Byte :=
  let h (crc : Nat) : List Byte := natLe 4 0x3152484C ++ natLe 2 1 ++ natLe 2 9 ++ natLe 4 312 ++ natLe 2 1 ++ natLe 2 0 ++ natLe 4 1 ++ natLe 2 1 ++ natLe 2 0 ++
    natLe 4 0x80 ++ natLe 4 0xA0 ++ natLe 4 0xA8 ++ natLe 4 0xA8 ++ natLe 4 0xB8 ++ natLe 4 crc ++ List.replicate 80 0
  let r : List Byte := natLe 4 0x8000010D ++ natLe 4 0x11 ++ natLe 24 0 ++ natLe 8 0x1000000000 ++ natLe 8 0x101 ++ natLe 8 0x01000000 ++
    (List.range 8).flatMap fun k => natLe 4 0x10100 ++ natLe 4 0 ++ natLe 4 0xF8000 ++ natLe 4 ((k + 1) % 8 * 0x1000)
  h (crc32 (h 0 ++ r)).toNat ++ r

/-- Operation 0 in service with values in D1 to D5, A0, P0, P1 and LC0. -/
def svr : Serv := { key := 0, prio := 3, bank := { regs := [(1, 5), (2, 7), (3, 0x800000000001), (4, 0x2000), (5, 0x1008), (32, 0x1234567), (40, 0x4001), (41, 0x4002)], pc := 8 } }
/-- Engine 0 about to issue w, with resident data and frames. -/
def running (w : W48) (v : Serv := svr) : State :=
  ((serving prog [(0, { servs := [v], written := [0x101, 0x102, 0x103] })]).wr (R.cell_LMAP 0) 0x10101).setWord48 (engInstrAddr 0 8) w
/-- The same with a TLB entry that maps the page at 0x2000 onto device shared memory. -/
def farRunning (w : W48) (v : Serv := svr) : State := (running w v).setTlb 0 [{ bank := 0, ctx := 1, big := false, vpn := 2, pte := 0x0100001F }]

/-- 64-bit words from an address on. -/
def words (s : State) (a : Nat) (l : List Nat) : State := fill s a (l.flatMap (natLe 8))
/-- Kernel operation n with its block at 0x2000. -/
def kop (n : Nat) : OpRec := { prog with program := false, code := n, param := 0x2000 }
/-- The axis library's operation with its block at 0x2000. -/
def aop : OpRec := { prog with code := 0x1C00, param := 0x2000 }
/-- Operation 0 fresh on engine 0 with the given token, in a context whose first 2 MiB are device shared memory, with words at virtual addresses. -/
def kern (r : OpRec) (l : List (Nat × List Nat)) (tok : W48 := 2) : State :=
  let s := (l.foldl (fun s x => words s (0x01000000 + x.1) x.2) (serving r [(0, { servs := [sv] })])).setTlb 0
    [{ bank := 0, ctx := 1, big := true, vpn := 0, pte := 0x0100001F }]
  { s with lahar := { s.lahar with ops := [(0, { phase := 2, toks := [{ word := tok, at' := { cyc := 5, tcyc := 0, lpp := [] } }] })] } }

/-- Branch 2 in state st with two slots of one record in a cycle of 125 us, in cycle 9, 100 us after its start; node 0 in slot 0 and node 1 in slot 1 in state n. -/
def branchAs (st : Nat) (x : BranchSt) (n : Nat := 4) (l : List (Nat × W32) := []) : State :=
  poke { live with br := [(2, x)] } ([(R.crater_CYCLE, 3), (R.branch_BRCFG 2, 1), (R.branch_SLOTCFG 2, 0x190202), (R.branch_FIRST 2, 10000), (R.branch_FIELDCFG 2, 4),
    (R.branch_REL 2 0, 600), (R.branch_REL 2 1, 900), (R.branch_DYNCFG 2, 0x600), (R.branch_NIT 2, 2000), (R.branch_BRBUF 2, 0x1000), (R.branch_MSGBUF 2, 0x10000),
    (R.branch_SLOT_CFG 2 0, 1), (R.branch_SLOT_CFG 2 1, 1), (R.chip_CYCLE_LO, 9), (R.nodeTable_BSTATE 2, BitVec.ofNat 32 st),
    (R.nodeTable_NODE_STATE 2 0, BitVec.ofNat 32 n), (R.nodeTable_NODE_STATE 2 1, BitVec.ofNat 32 (16 + n)), (R.nodeTable_EXP_CTL 2 0, 0x01000000),
    (R.nodeTable_EXP_CTL 2 1, 0x01010000), (R.nodeTable_NODE_DELAY 2 0, 400), (R.nodeTable_NODE_DELAY 2 1, 800)] ++ l)
/-- A slot frame of slot 1 at its nominal time. -/
def slotFrame (fin : FrameEnd) (w0 : W48 := 0x000000090021) : SlotFrame := { sfd := 12 * 10228, efd := 12 * 10356, fin := fin, len := 32, words := [w0, 5, 6, 7, 8, 9, 10], sub := 0 }

/-- No home region that is being copied holds an address. -/
def stillB (s : State) (a : Nat) : Bool :=
  match cellOf a with
  | some (c, _) => (s.movedTo c).isNone
  | none => true
theorem touch_of {s : State} {a : Nat} (h : stillB s a = true) : s.copyTouch a = s := by
  unfold stillB at h
  unfold State.copyTouch
  revert h
  cases cellOf a with
  | none => exact fun _ => rfl
  | some x =>
    obtain ⟨c, off⟩ := x
    intro h
    have e : s.movedTo c = none := Option.isNone_iff_eq_none.1 h
    simp [e]
/-- State.Sees as a check. -/
def seesB (s : State) (e key : Nat) (va : W48) (w : W64) : Bool :=
  va.toNat % 8 = 0 && match s.tlbLook (e / 4) (s.opCtx key).1 (s.opCtx key).2.1 va false (s.opCtx key).2.2 with
  | .ok p => p = { host := false, addr := p.addr } && (s.farFail p).isNone && decide (0x01000000 ≤ p.addr) && stillB s p.addr && (match (s.busRead .engine p.addr 8).2 with
      | .ok n => decide (n = w.toNat)
      | .error _ => false)
  | _ => false
theorem sees_of {s : State} {e key : Nat} {va : W48} {w : W64} (h : seesB s e key va w = true) : s.Sees e key va w := by
  unfold seesB at h
  split at h
  · rename_i p hp
    simp only [Bool.and_eq_true, decide_eq_true_eq, Option.isNone_iff_eq_none] at h
    obtain ⟨h1, ⟨⟨⟨h2, h3⟩, h4⟩, h6⟩, h5⟩ := h
    refine ⟨h1, p.addr, h2 ▸ hp, h2 ▸ h3, h4, touch_of h6, ?_⟩
    split at h5
    · rename_i n hn; rw [hn, of_decide_eq_true h5]
    · simp at h5
  · simp at h
theorem sees_all {s : State} {e key : Nat} {l : List (W48 × W64)} (h : (l.all fun y => seesB s e key y.1 y.2) = true) : ∀ y ∈ l, s.Sees e key y.1 y.2 :=
  fun y hy => sees_of (List.all_eq_true.1 h y hy)
/-- The place that a write of an operation at an address goes to. -/
def placeOf (s : State) (e key : Nat) (va : W48) : Phys :=
  match s.tlbLook (e / 4) (s.opCtx key).1 (s.opCtx key).2.1 va true (s.opCtx key).2.2 with
  | .ok p => p
  | _ => { host := true, addr := va.toNat }
/-- State.Writable as a check. -/
def writB (s : State) (e key : Nat) : List W48 → List Nat → Bool
  | [], _ => true
  | va :: r, seen =>
    va.toNat % 8 = 0 && match s.tlbLook (e / 4) (s.opCtx key).1 (s.opCtx key).2.1 va true (s.opCtx key).2.2 with
    | .ok p => (s.farFail p).isNone && !seen.contains p.addr && writB s e key r (p.addr :: seen)
    | _ => false
theorem writB_sound {s : State} {e key : Nat} {l : List W48} {seen : List Nat} (h : writB s e key l seen = true) :
    (∀ va ∈ l, va.toNat % 8 = 0 ∧ s.tlbLook (e / 4) (s.opCtx key).1 (s.opCtx key).2.1 va true (s.opCtx key).2.2 = .ok (placeOf s e key va) ∧
      s.farFail (placeOf s e key va) = none) ∧ (l.map (placeOf s e key)).Nodup ∧ ∀ va ∈ l, (placeOf s e key va).addr ∉ seen := by
  induction l generalizing seen with
  | nil => simp
  | cons va r ih =>
    simp only [writB, Bool.and_eq_true, decide_eq_true_eq] at h
    obtain ⟨h1, h2⟩ := h
    split at h2
    · rename_i p hp
      simp only [Bool.and_eq_true, Option.isNone_iff_eq_none, Bool.not_eq_true', List.contains_eq_mem, decide_eq_false_iff_not] at h2
      obtain ⟨⟨h3, h4⟩, h5⟩ := h2
      obtain ⟨i1, i2, i3⟩ := ih h5
      have hpl : placeOf s e key va = p := by unfold placeOf; rw [hp]
      refine ⟨?_, ?_, ?_⟩
      · intro x hx
        rcases List.mem_cons.1 hx with rfl | hx
        · rw [hpl]; exact ⟨h1, hp, h3⟩
        · exact i1 x hx
      · rw [List.map_cons, List.nodup_cons]
        refine ⟨fun hm => ?_, i2⟩
        obtain ⟨y, hy, he⟩ := List.mem_map.1 hm
        exact i3 y hy (by rw [he, hpl]; exact List.mem_cons_self ..)
      · intro x hx
        rcases List.mem_cons.1 hx with rfl | hx
        · rw [hpl]; exact h4
        · exact fun hm => i3 x hx (List.mem_cons_of_mem _ hm)
    · simp at h2
theorem writable_of {s : State} {e key : Nat} {l : List W48} (h : writB s e key l [] = true) : s.Writable e key l :=
  ⟨placeOf s e key, (writB_sound h).1, (writB_sound h).2.1⟩
theorem points_of {x : KEnv} {rel : Bool} {w : W64} {a : W48}
    (h : fld w 62 48 = 0 ∧ if bit w 63 then rel = true ∧ x.slot = true ∧ a = w.setWidth 48 + BitVec.ofNat 48 (x.w0.toNat % 2 ^ 20) else a = w.setWidth 48 ∧ a ≠ 0) :
    x.Points rel w a := h
theorem get_mem {α : Type} (t : Tab α) (k : Nat) (d : α) : Tab.get t k d = d ∨ ∃ e ∈ t, e.2 = Tab.get t k d := by
  induction t with
  | nil => exact .inl rfl
  | cons e r ih =>
    obtain ⟨j, v⟩ := e
    simp only [Tab.get_cons]
    by_cases h : j = k
    · simp [h]
    · simp only [h, if_false]
      rcases ih with ih | ⟨x, hx, hv⟩
      · exact .inl ih
      · exact .inr ⟨x, List.mem_cons_of_mem _ hx, hv⟩
theorem starts_of {s : State} {e : Nat} {v : Serv} {is : OpRec → Bool} (h : s.top e = some v ∧ s.fresh e v = true ∧ is (s.opRec v.key) = true ∧ v.cbuf = [])
    (hd : (s.engs.all fun x => x.2.servs.all fun y => !y.draining) = true) : s.KernelStarts e v is := by
  refine ⟨h.1, h.2.1, h.2.2.1, h.2.2.2, fun d x hx => ?_⟩
  rcases get_mem s.engs d {} with hg | ⟨y, hy, hv⟩
  · have : (s.eng d).servs = [] := by show (Tab.get s.engs d {}).servs = []; rw [hg]
    simp [this] at hx
  · have hx' : x ∈ y.2.servs := by rw [hv]; exact hx
    simpa using List.all_eq_true.1 (List.all_eq_true.1 hd y hy) x hx'
/-- State.Reads as a check of a value that is read. -/
def readsB {α : Type} (s : State) (k : K α) (P : α → Bool) : Bool :=
  match k.run s with
  | (some a, s1) => decide (s1.rest = { s.rest with perf := s1.perf }) && decide (s1.regs = s.regs) && P a
  | _ => false
theorem reads_of {α : Type} {s : State} {k : K α} (P : α → Bool) (h : readsB s k P = true) : ∃ a, s.Reads k a ∧ P a = true := by
  unfold readsB at h
  split at h
  · rename_i a s1 hr
    simp only [Bool.and_eq_true, decide_eq_true_eq] at h
    exact ⟨a, ⟨s1, hr, h.1.1, fun x _ _ => by simp [State.rd, h.1.2]⟩, h.2⟩
  · simp at h
theorem buses_of {s : State} {l : List (Nat × W64)} (h : (l.all fun y => (s.farFail { host := false, addr := y.1 }).isNone && stillB s y.1 && match (s.busRead .engine y.1 8).2 with
    | .ok n => decide (n = y.2.toNat)
    | .error _ => false) = true) :
    ∀ y ∈ l, s.farFail { host := false, addr := y.1 } = none ∧ s.copyTouch y.1 = s ∧ (s.busRead .engine y.1 8).2 = .ok y.2.toNat := by
  intro y hy
  have := List.all_eq_true.1 h y hy
  simp only [Bool.and_eq_true, Option.isNone_iff_eq_none] at this
  refine ⟨this.1.1, touch_of this.1.2, ?_⟩
  have h2 := this.2
  split at h2
  · rename_i n hn; rw [hn, of_decide_eq_true h2]
  · simp at h2
theorem tab_get_all {α : Type} {p : α → Bool} {t : Tab (Option α)} (h : t.all (fun x => x.2.all p) = true) {k : Nat} {y : α}
    (e : Tab.get t k none = some y) : p y = true := by
  induction t with
  | nil => simp at e
  | cons x r ih =>
    simp only [List.all_cons, Bool.and_eq_true] at h
    rw [Tab.get_cons] at e
    split at e
    · simpa [e] using h.1
    · exact ih h.2 e
theorem moved_ok {s : State} (h : s.lahar.copies.all (fun x => x.2.all fun y => decide (y.bad = [])) = true) {n : Nat} :
    ∀ h y, s.movedTo h = some y → y.target = n → y.bad = [] := fun _ _ e _ => of_decide_eq_true (tab_get_all h e)
theorem tlb_low {s : State} {u bank ctx : Nat} {va : W48} {w usr : Bool} {p : Phys} {x : TlbEnt} (h : s.tlb u = [x])
    (hp : pteFrame x.pte + 0x200000 ≤ 0x01800000) (hl : s.tlbLook u bank ctx va w usr = .ok p) : p.addr < 0x01800000 := by
  unfold State.tlbLook at hl
  rw [h] at hl
  simp only [List.find?_cons, List.find?_nil] at hl
  split at hl
  · rename_i y hy
    have hy' : y = x := by
      split at hy
      · exact (Option.some.inj hy).symm
      · simp at hy
    subst hy'
    unfold leafCheck at hl
    dsimp only at hl
    split at hl
    · simp at hl
    · split at hl
      · simp at hl
      · split at hl
        · simp at hl
        · obtain rfl := XRes.ok.inj hl
          dsimp only
          split <;> omega
  · simp at hl
theorem phys_id {s : State} (h : ((List.range 8).all fun c => s.movedTo c = none && !s.cellRetired c) = true) (x : Nat) : s.phys x = some x := by
  unfold State.phys cellOf
  split
  · rfl
  · rename_i c off hc
    split at hc
    · rename_i hr
      obtain ⟨rfl, rfl⟩ := Prod.mk.inj (Option.some.inj hc)
      have := List.all_eq_true.1 h ((x - 0x01800000) / 0x100000) (List.mem_range.2 (by omega))
      simp only [Bool.and_eq_true, decide_eq_true_eq, Bool.not_eq_true'] at this
      simp [this.1, this.2]
    · simp at hc

/-- A good fuse copy, read at exit. -/
def copyW : List W32 :=
  let l : List W32 := [0x00014655, 77, 5, 0x40, 1] ++ List.replicate 250 0
  l ++ [crc32 (l.flatMap fun w => natLe 4 w.toNat)]
/-- A boot image of three records: one write of 8 bytes at 0x01001000, a wait, and the end. -/
def bootImage : List Byte :=
  let h (c : Nat) : List Byte := natLe 4 0x31544F42 ++ natLe 2 1 ++ natLe 2 3 ++ natLe 4 64 ++ natLe 4 c ++ List.replicate 16 0
  let r : List Byte := natLe 8 (2 ^ 56 + 8 * 2 ^ 32 + 0x01001000) ++ natLe 8 0x1122334455667788 ++ natLe 8 (2 * 2 ^ 56 + 5) ++ natLe 8 (3 * 2 ^ 56)
  let z : List Byte := natLe 4 0x31544F42 ++ natLe 2 1 ++ natLe 2 3 ++ natLe 4 64 ++ natLe 4 0 ++ List.replicate 16 0
  h (crc32 (z ++ r)).toNat ++ r

/-- An Ethernet frame with 50 bytes after destination d and type y. -/
def ethFrame (d y : Nat) (good : Bool := true) : EthFrame :=
  { bytes := natBe 6 d ++ natBe 6 0x020000000099 ++ natBe 2 y ++ List.replicate 46 0x10, fcsGood := good, len := 64, stamp := 77 }


/-- A state for clause 1 of ProfileKernels. -/
def profState1 : State := poke (words (words (words (words (words (kern (kop 9) [(0x2000, [16384, 12288, 0, 2048, 2304, 196608, 4096, 327680, 0, 83886080, 0, 0, 0, 0, 0, 0, 0, 1, 1, 0, 0, 0, 100, 0, 0, 0, 0, 0, 0, 1, 1, 0, 0, 0, 100, 0])]) 0x01004000 [0]) 0x01004160 [0]) 0x010040C0 [327680]) 0x01004170 [0, 0]) 0x01002120 (({ p := 0x500000000, v := 0x3000, m1 := 3, cseq := 4 } : Prof).save 0 |>.map fun w => w.2.toNat)) [(R.perfCommon_PCTL, 1)]
/-- What clause 1 of ProfileKernels asks of the values read. -/
def profAsks1 (y : ProfIn × Prof) : Bool := let s : State := profState1; let e : Fin 32 := 0; let v : Serv := sv; let x := s.kenv e v; decide (y.1.enable = false) && writB s e v.key (x.profPlaces y.1) []
theorem profStarts1 : profState1.KernelStarts 0 sv (isKernel (if false then 10 else 9)) := starts_of (by decide +kernel) (by decide +kernel)
theorem profReads1 : readsB (profState1.tick 0) (do let i ← profInputs false (profState1.kenv 0 sv); let p ← profState (profState1.kenv 0 sv) i; pure (i, p)) profAsks1 = true := by decide +kernel
theorem profile1 : (∃ (s : State) (t : Time) (e : Fin 32) (v : Serv) (gear : Bool) (x : _), x = s.kenv e v ∧ s.KernelStarts e v (isKernel (if gear then 10 else 9)) ∧ ∃ y : ProfIn × Prof, (s.tick t).Reads (do let i ← profInputs gear x; let p ← profState x i; pure (i, p)) y ∧ (y.1.enable = false) ∧ s.Writable e v.key (x.profPlaces y.1)) :=
  ⟨profState1, 0, 0, sv, false, _, rfl, profStarts1, (reads_of profAsks1 profReads1).imp fun _ h => ⟨h.1, of_decide_eq_true (Bool.and_eq_true_iff.1 h.2).1, writable_of (Bool.and_eq_true_iff.1 h.2).2⟩⟩
/-- A state for clause 2 of ProfileKernels. -/
def profState2 : State := poke (words (words (words (words (words (kern (kop 9) [(0x2000, [16384, 12288, 0, 2048, 2304, 196608, 4096, 327680, 0, 83886080, 0, 0, 0, 2, 1024, 28672, 0, 1, 1, 0, 0, 0, 100, 0, 0, 2, 1024, 28672, 0, 1, 1, 0, 0, 0, 100, 0])]) 0x01004000 [1]) 0x01004160 [0]) 0x010040C0 [327680]) 0x01004170 [0, 0]) 0x01002120 (({ p := 0x500000000, v := 0x3000, m1 := 3, cseq := 4 } : Prof).save 0 |>.map fun w => w.2.toNat)) [(R.perfCommon_PCTL, 1)]
/-- What clause 2 of ProfileKernels asks of the values read. -/
def profAsks2 (y : ProfIn × Prof) : Bool := let s : State := profState2; let e : Fin 32 := 0; let v : Serv := sv; let x := s.kenv e v; decide (y.1.enable = true ∧ (y.1.mode = 0 ∨ y.1.mode = 2) ∧ y.2.m1 = y.1.mode + 1 ∧ y.1.newCmd y.2 = 0 ∧ (y.2.jstop && y.2.mode = y.1.mode && y.2.jog = y.1.jogVel) = false ∧ y.2.still = false ∧ bit y.1.pmode 8 = false ∧ y.1.still = false) && writB s e v.key (x.profPlaces y.1) []
theorem profStarts2 : profState2.KernelStarts 0 sv (isKernel (if false then 10 else 9)) := starts_of (by decide +kernel) (by decide +kernel)
theorem profReads2 : readsB (profState2.tick 0) (do let i ← profInputs false (profState2.kenv 0 sv); let p ← profState (profState2.kenv 0 sv) i; pure (i, p)) profAsks2 = true := by decide +kernel
theorem profile2 : (∃ (s : State) (t : Time) (e : Fin 32) (v : Serv) (gear : Bool) (x : _), x = s.kenv e v ∧ s.KernelStarts e v (isKernel (if gear then 10 else 9)) ∧ ∃ y : ProfIn × Prof, (s.tick t).Reads (do let i ← profInputs gear x; let p ← profState x i; pure (i, p)) y ∧ (y.1.enable = true ∧ (y.1.mode = 0 ∨ y.1.mode = 2) ∧ y.2.m1 = y.1.mode + 1 ∧ y.1.newCmd y.2 = 0 ∧ (y.2.jstop && y.2.mode = y.1.mode && y.2.jog = y.1.jogVel) = false ∧ y.2.still = false ∧ bit y.1.pmode 8 = false ∧ y.1.still = false) ∧ s.Writable e v.key (x.profPlaces y.1)) :=
  ⟨profState2, 0, 0, sv, false, _, rfl, profStarts2, (reads_of profAsks2 profReads2).imp fun _ h => ⟨h.1, of_decide_eq_true (Bool.and_eq_true_iff.1 h.2).1, writable_of (Bool.and_eq_true_iff.1 h.2).2⟩⟩
/-- A state for clause 3 of ProfileKernels. -/
def profState3 : State := poke (words (words (words (words (words (kern (kop 9) [(0x2000, [16384, 12288, 0, 2048, 2304, 196608, 4096, 327680, 0, 83886080, 0, 0, 0, 196864, 1024, 0, 0, 1, 1, 0, 0, 0, 100, 0, 0, 196864, 1024, 0, 0, 1, 1, 0, 0, 0, 100, 0])]) 0x01004000 [1]) 0x01004160 [0]) 0x010040C0 [327680]) 0x01004170 [0, 0]) 0x01002120 (({ p := 0x500000000, m1 := 1, cseq := 4, dwell := 2 } : Prof).save 0 |>.map fun w => w.2.toNat)) [(R.perfCommon_PCTL, 1)]
/-- What clause 3 of ProfileKernels asks of the values read. -/
def profAsks3 (y : ProfIn × Prof) : Bool := let s : State := profState3; let e : Fin 32 := 0; let v : Serv := sv; let x := s.kenv e v; decide (y.1.enable = true ∧ y.1.mode = 0 ∧ y.2.m1 = 1 ∧ y.1.newCmd y.2 = 0 ∧ y.2.v = 0 ∧ y.2.run = false ∧ y.2.home = 0 ∧ y.2.still = false ∧ fitsS 64 y.2.p = true ∧ bit y.1.pmode 8 = true ∧ y.1.still = false ∧ mag (y.1.fb - w48 (rndDiv y.2.p 65536)).toInt ≤ y.1.win * 65536 ∧ fld y.1.pmode 31 16 ≤ min (y.2.dwell + 1) 65535) && writB s e v.key (x.profPlaces y.1) []
theorem profStarts3 : profState3.KernelStarts 0 sv (isKernel (if false then 10 else 9)) := starts_of (by decide +kernel) (by decide +kernel)
theorem profReads3 : readsB (profState3.tick 0) (do let i ← profInputs false (profState3.kenv 0 sv); let p ← profState (profState3.kenv 0 sv) i; pure (i, p)) profAsks3 = true := by decide +kernel
theorem profile3 : (∃ (s : State) (t : Time) (e : Fin 32) (v : Serv) (gear : Bool) (x : _), x = s.kenv e v ∧ s.KernelStarts e v (isKernel (if gear then 10 else 9)) ∧ ∃ y : ProfIn × Prof, (s.tick t).Reads (do let i ← profInputs gear x; let p ← profState x i; pure (i, p)) y ∧ (y.1.enable = true ∧ y.1.mode = 0 ∧ y.2.m1 = 1 ∧ y.1.newCmd y.2 = 0 ∧ y.2.v = 0 ∧ y.2.run = false ∧ y.2.home = 0 ∧ y.2.still = false ∧ fitsS 64 y.2.p = true ∧ bit y.1.pmode 8 = true ∧ y.1.still = false ∧ mag (y.1.fb - w48 (rndDiv y.2.p 65536)).toInt ≤ y.1.win * 65536 ∧ fld y.1.pmode 31 16 ≤ min (y.2.dwell + 1) 65535) ∧ s.Writable e v.key (x.profPlaces y.1)) :=
  ⟨profState3, 0, 0, sv, false, _, rfl, profStarts3, (reads_of profAsks3 profReads3).imp fun _ h => ⟨h.1, of_decide_eq_true (Bool.and_eq_true_iff.1 h.2).1, writable_of (Bool.and_eq_true_iff.1 h.2).2⟩⟩
/-- A state for clause 4 of ProfileKernels. -/
def profState4 : State := poke (words (words (words (words (words (kern (kop 10) [(0x2000, [16384, 12288, 0, 2048, 2304, 4295163904, 4096, 327680, 0, 83886080, 0, 0, 0, 3, 1024, 0, 0, 1, 1, 0, 0, 0, 100, 0, 0, 3, 1024, 0, 0, 1, 1, 0, 0, 0, 100, 0])]) 0x01004000 [1]) 0x01004160 [0]) 0x010040C0 [327680]) 0x01004170 [0, 0]) 0x01002120 (({ p := 0x500000000, v := 0x3000, m1 := 4, cseq := 4, home := 2, homeAt := 5 } : Prof).save 0 |>.map fun w => w.2.toNat)) [(R.perfCommon_PCTL, 1)]
/-- What clause 4 of ProfileKernels asks of the values read. -/
def profAsks4 (y : ProfIn × Prof) : Bool := let s : State := profState4; let e : Fin 32 := 0; let v : Serv := sv; let x := s.kenv e v; decide (y.1.enable = true ∧ y.1.mode = 3 ∧ y.1.method = 0 ∧ y.2.m1 = 4 ∧ y.1.newCmd y.2 = 0 ∧ y.2.home = 2 ∧ bit y.1.echo 16 = false ∧ fld y.1.hcfg 47 32 ≠ 0 ∧ fld y.1.hcfg 47 32 * 64 ≤ (BitVec.ofNat 48 y.1.cyc - BitVec.ofNat 48 y.2.homeAt).toNat) && writB s e v.key (x.profPlaces y.1) []
theorem profStarts4 : profState4.KernelStarts 0 sv (isKernel 10) := starts_of (by decide +kernel) (by decide +kernel)
theorem profReads4 : readsB (profState4.tick 0) (do let i ← profInputs true (profState4.kenv 0 sv); let p ← profState (profState4.kenv 0 sv) i; pure (i, p)) profAsks4 = true := by decide +kernel
theorem profile4 : (∃ (s : State) (t : Time) (e : Fin 32) (v : Serv) (x : _), x = s.kenv e v ∧ s.KernelStarts e v (isKernel 10) ∧ ∃ y : ProfIn × Prof, (s.tick t).Reads (do let i ← profInputs true x; let p ← profState x i; pure (i, p)) y ∧ (y.1.enable = true ∧ y.1.mode = 3 ∧ y.1.method = 0 ∧ y.2.m1 = 4 ∧ y.1.newCmd y.2 = 0 ∧ y.2.home = 2 ∧ bit y.1.echo 16 = false ∧ fld y.1.hcfg 47 32 ≠ 0 ∧ fld y.1.hcfg 47 32 * 64 ≤ (BitVec.ofNat 48 y.1.cyc - BitVec.ofNat 48 y.2.homeAt).toNat) ∧ s.Writable e v.key (x.profPlaces y.1)) :=
  ⟨profState4, 0, 0, sv, _, rfl, profStarts4, (reads_of profAsks4 profReads4).imp fun _ h => ⟨h.1, of_decide_eq_true (Bool.and_eq_true_iff.1 h.2).1, writable_of (Bool.and_eq_true_iff.1 h.2).2⟩⟩

/-- Inputs that meet the hypotheses of StepRunsTheFrontCommand, clause by clause. -/
theorem witness_StepRunsTheFrontCommand :
    (∃ (s : State) (c : _) (r : _), s.pending = c :: r) ∧
    (∃ (s : State), s.pending = []) :=
  ⟨⟨({ live with pending := [.latch 0 .host] }), (.latch 0 .host), ([]), by decide +kernel⟩,
    ⟨live, by decide +kernel⟩⟩

/-- Inputs that meet the hypotheses of ResetState, clause by clause. -/
theorem witness_ResetState :
    (∃ (c : _), c < 8) :=
  ⟨3, by decide +kernel⟩

/-- Inputs that meet the hypotheses of GateOfRegisterWrites, clause by clause. -/
theorem witness_GateOfRegisterWrites :
    (∃ (s : State) (m : _) (a : _), s.takes m a = true) ∧
    (∃ (s : State) (m : _) (a : _), s.takes m a = false) ∧
    (∃ (s : State) (m : _) (a : _) (k : _) (n : _), s.barOpen m = true ∧ pageKind (a / 0x1000) = some (k, n) ∧ s.rst.safeBoot = false ∧ s.pageInReset k n = false ∧ s.pairDiscards m = false ∧ s.locked k (a / 0x1000) = true ∧ a % 0x1000 ≠ 0x28 ∧ a % 0x1000 ≠ 0x10) :=
  ⟨⟨live, .host, R.chip_GPIO_OUT, by decide +kernel⟩,
    ⟨({ live with pages := [] }), .host, 0x30040, by decide +kernel⟩,
    ⟨({ live with pages := [] }), .host, 0x30040, .sinCore, 0, by decide +kernel⟩⟩

/-- Inputs that meet the hypotheses of CommitRequests, clause by clause. -/
theorem witness_CommitRequests :
    (∃ (s : State) (m : _) (p : Fin 2048), s.takes m (R.COMMIT p) = true ∧ staged p = true ∧ (s.page p).check = none ∧ (s.page p).pend = none) ∧
    (∃ (s : State) (m : _) (p : Fin 2048), s.takes m (R.COMMIT p) = true ∧ staged p = true ∧ (s.page p).check = none ∧ (s.page p).pend = none) ∧
    (∃ (s : State) (m : _) (p : Fin 2048), s.takes m (R.COMMIT p) = true ∧ staged p = true ∧ ((s.page p).check.isSome || (s.page p).pend.isSome) = true) ∧
    (∃ (s : State) (m : _) (p : Fin 2048), s.takes m (R.COMMIT p) = true ∧ staged p = true) ∧
    (∃ (s : State) (m : _) (p : Fin 2048) (val : W32), s.takes m (R.COMMIT p) = true ∧ staged p = true ∧ 2 ≤ b2n (bit val 0) + b2n (bit val 1) + b2n (bit val 2)) :=
  ⟨⟨live, .host, 0xD0, by decide +kernel⟩,
    ⟨live, .host, 0xD0, by decide +kernel⟩,
    ⟨({ live with pages := Tab.set (live : State).pages 0xD0 ({ pend := some { imm := false, since := 5, group := false } }) {} }), .host, 0xD0, by decide +kernel⟩,
    ⟨(poke ({ live with pages := Tab.set (live : State).pages 0xD0 ({ armed := true }) {} }) [(R.COMMIT_STAT 0xD0, 0x30000002)]), .host, 0xD0, by decide +kernel⟩,
    ⟨live, .host, 0xD0, 3, by decide +kernel⟩⟩

/-- Inputs that meet the hypotheses of CommitCheckEnd, clause by clause. -/
theorem witness_CommitCheckEnd :
    (∃ (s : State) (t : _) (p : Fin 2048) (c : _), (s.page p).check = some c ∧ c.arm = false ∧ (s.tick t).checkPage ((s.tick t).withLatch p (s.page p).checkLatch) p c.imm = none) ∧
    (∃ (s : State) (t : _) (p : Fin 2048) (c : _), (s.page p).check = some c ∧ c.arm = true ∧ (s.tick t).checkPage (((s.tick t).armedView p).withLatch p (s.page p).checkLatch) p c.imm = none) ∧
    (∃ (s : State) (t : _) (p : Fin 2048) (c : _) (r : _), (s.page p).check = some c ∧ (s.tick t).checkPage ((if c.arm then (s.tick t).armedView p else s.tick t).withLatch p (s.page p).checkLatch) p c.imm = some r) :=
  ⟨⟨({ live with pages := Tab.set (live : State).pages 0x78 ({ check := some { arm := false, imm := false, since := 5 }, checkLatch := [] }) {} }), 0, 0x78, ({ arm := false, imm := false, since := 5 }), by decide +kernel⟩,
    ⟨({ live with pages := Tab.set (live : State).pages 0x78 ({ check := some { arm := true, imm := false, since := 5 }, checkLatch := [] }) {} }), 0, 0x78, ({ arm := true, imm := false, since := 5 }), by decide +kernel⟩,
    ⟨({ live with pages := Tab.set (live : State).pages 0xD0 ({ check := some { arm := false, imm := false, since := 5 }, checkLatch := [] }) {} }), 0, 0xD0, ({ arm := false, imm := false, since := 5 }), (((live.tick 0).checkPage ((live.tick 0).withLatch 0xD0 []) 0xD0 false).getD default), by decide +kernel⟩⟩

/-- Inputs that meet the hypotheses of CommitsTakeEffect, clause by clause. -/
theorem witness_CommitsTakeEffect :
    (∃ (s : State) (t : _) (p : Fin 2048) (w : _) (k : _) (n : _), (s.page p).pend = some w ∧ pageKind p = some (k, n) ∧ (((s.tick t).cycleDue && w.due (s.tick t).now) || (s.cycling && w.due s.tau)) = true) ∧
    (∃ (s : State) (p : Fin 2048) (w : _) (k : _) (n : _), (s.page p).pend = some w ∧ pageKind p = some (k, n) ∧ w.imm = true) ∧
    (∃ (s : State) (m : _), s.takes m R.chip_GCOMMIT = true ∧ s.armedPages = []) ∧
    (∃ (s : State) (t : _) (m : _) (imm : _), s.takes m R.chip_GCOMMIT = true ∧ s.armedPages ≠ [] ∧ Tab.sortedFrom 0 s.pages = true ∧ (∀ r ∈ (s.entered t m R.chip_GCOMMIT (if imm then 0x11 else 1)).groupChecks s.armedPages imm, r.2 = none)) ∧
    (∃ (s : State) (t : _) (m : _) (imm : _), s.takes m R.chip_GCOMMIT = true ∧ Tab.sortedFrom 0 s.pages = true ∧ (∃ r ∈ (s.entered t m R.chip_GCOMMIT (if imm then 0x11 else 1)).groupChecks s.armedPages imm, r.2 ≠ none)) :=
  ⟨⟨({ ({ live with pages := Tab.set (live : State).pages 0x78 ({ pend := some { imm := false, since := 5, group := false }, latch := [(0x78040, 1)] }) {} } : State) with cycling := true, tau := 1200000, firstCycle := false }), 0, 0x78, ({ imm := false, since := 5, group := false }), .qe, 0, by decide +kernel⟩,
    ⟨({ live with pages := Tab.set (live : State).pages 0x78 ({ pend := some { imm := true, since := 5, group := true }, latch := [(0x78040, 1)] }) {} }), 0x78, ({ imm := true, since := 5, group := true }), .qe, 0, by decide +kernel⟩,
    ⟨live, .host, by decide +kernel⟩,
    ⟨({ live with pages := Tab.set (live : State).pages 0x78 ({ armed := true, armLatch := [(0x78040, 1)] }) {} }), 0, .host, false, by decide +kernel⟩,
    ⟨({ live with pages := Tab.set (live : State).pages 0xD0 ({ armed := true, armLatch := [(0xD0040, 1)] }) {} }), 0, .host, false, by decide +kernel⟩⟩

/-- Inputs that meet the hypotheses of WriteLock, clause by clause. -/
theorem witness_WriteLock :
    (∃ (s : State) (m : _) (p : Fin 2048), s.takes m (R.LOCK p) = true ∧ lockable p = true) ∧
    (∃ (s : State) (m : _) (p : Fin 2048) (k : _), s.takes m (R.LOCK p) = true ∧ lockable p = true ∧ (s.page p).key1 = some k) ∧
    (∃ (s : State) (m : _) (p : Fin 2048), s.takes m (R.LOCK p) = true ∧ lockable p = true ∧ (s.page p).key1 = none) ∧
    (∃ (s : State) (m : _) (p : Fin 2048) (val : _), s.takes m (R.LOCK p) = true ∧ lockable p = true ∧ val ≠ 0xA5C3 ∧ val ≠ 0x3C5A) ∧
    (∃ (s : State) (t : _) (p : Fin 2048) (k : _), (s.page p).key1 = some k ∧ 65536 * 16 < (s.tick t).now - k) ∧
    (∃ (s : State) (m : _) (p : Fin 2048), s.takes m (R.LOCK p) = true ∧ lockable p = false) :=
  ⟨⟨live, .host, 0x30, by decide +kernel⟩,
    ⟨({ live with pages := Tab.set (live : State).pages 0x30 ({ key1 := some 1100000 }) {} }), .host, 0x30, 1100000, by decide +kernel⟩,
    ⟨live, .host, 0x30, by decide +kernel⟩,
    ⟨({ live with pages := Tab.set (live : State).pages 0x30 ({ key1 := some 1100000 }) {} }), .host, 0x30, 5, by decide +kernel⟩,
    ⟨({ live with pages := Tab.set (live : State).pages 0x30 ({ key1 := some 1100000 }) {} }), 3000000, 0x30, 1100000, by decide +kernel⟩,
    ⟨live, .host, 0x0, by decide +kernel⟩⟩

/-- Inputs that meet the hypotheses of CausesAndRecords, clause by clause. -/
theorem witness_CausesAndRecords :
    (∃ (s : State) (m : _) (p : Fin 2048) (k : _) (n : _), s.takes m (p * 0x1000 + 0x18) = true ∧ pageKind p = some (k, n)) ∧
    (∃ (s : State) (t : _) (m : _), s.takes m R.chip_ERR_INFO = true ∧ (s.tick t).w1cBits R.chip_ERR_INFO 1 = 1) ∧
    (∃ (s : State) (t : _) (m : _) (e : Fin 32), s.takes m (R.engine_TRAP_STAT e) = true ∧ (s.tick t).w1cBits (R.engine_TRAP_STAT e) 1 = 1) ∧
    (∃ (s : State) (m : _) (e : Fin 32) (bits : _), s.takes m (R.engine_ECC_STAT e) = true ∧ bits ≠ 0) ∧
    (∃ (s : State) (t : _) (m : _) (c : Fin 8), s.takes m (R.xlCell_FLT_INFO c) = true ∧ (s.tick t).w1cBits (R.xlCell_FLT_INFO c) 1 = 1) ∧
    (∃ (s : State) (t : _) (m : _), s.takes m R.chip_ERR_INFO = true ∧ (s.tick t).w1cBits R.chip_ERR_INFO 1 = 0) :=
  ⟨⟨live, .host, 0xD0, .can, 0, by decide +kernel⟩,
    ⟨(poke live [(R.chip_ERR_INFO, 1)]), 0, .host, by decide +kernel⟩,
    ⟨(poke live [(R.engine_TRAP_STAT 2, 1)]), 0, .host, 2, by decide +kernel⟩,
    ⟨(poke live [(R.engine_ECC_STAT 2, 0x10005)]), .host, 2, 0x10000, by decide +kernel⟩,
    ⟨(poke live [(R.xlCell_FLT_INFO 1, 1)]), 0, .host, 1, by decide +kernel⟩,
    ⟨((live.tick 1200000).hwSetBits R.chip_ERR_INFO 1), 0, .host, by decide +kernel⟩⟩

/-- Inputs that meet the hypotheses of ShadowedReads, clause by clause. -/
theorem witness_ShadowedReads :
    (∃ (s : State) (t : _) (m : _) (a : BitVec 25), s.barOpen m = true ∧ (s.readGate m a.toNat).2 = true ∧ captures a.toNat ≠ [] ∧ (((s.tick t).beforeRead a.toNat).shadow m a.toNat).find? (·.1 = a.toNat) = none) ∧
    (∃ (s : State) (t : _) (m : _) (a : BitVec 25) (v : _), s.barOpen m = true ∧ (s.readGate m a.toNat).2 = true ∧ 4 ≤ a.toNat ∧ captures (a.toNat - 4) ≠ [] ∧ (((s.tick t).beforeRead a.toNat).shadow m a.toNat).find? (·.1 = a.toNat) = some (a.toNat, v)) ∧
    (∃ (s : State) (t : _) (m : _) (a : BitVec 25), s.barOpen m = true ∧ (s.readGate m a.toNat).2 = true ∧ 4 ≤ a.toNat ∧ captures (a.toNat - 4) ≠ [] ∧ captures a.toNat = [] ∧ (((s.tick t).beforeRead a.toNat).shadow m a.toNat).find? (·.1 = a.toNat) = none) ∧
    (∃ (s : State) (m : _), s.barOpen m = true ∧ (s.readGate m R.invarCore_NOW_NS_LO).2 = true ∧ s.shadow m R.invarCore_NOW_NS_LO = []) ∧
    (∃ (s : State) (m : _) (v : _), s.barOpen m = true ∧ (s.readGate m R.invarCore_NOW_SEC_LO).2 = true ∧ (s.shadow m R.invarCore_NOW_SEC_LO).find? (·.1 = R.invarCore_NOW_SEC_LO) = some (R.invarCore_NOW_SEC_LO, v)) ∧
    (∃ (s : State) (t : _) (m : _) (e : Fin 32), s.barOpen m = true ∧ (s.readGate m (R.perfCell_ECYC_W0 (e / 4) (e % 4))).2 = true ∧ (((s.tick t).beforeRead (R.perfCell_ECYC_W0 (e / 4) (e % 4))).shadow m (R.perfCell_ECYC_W0 (e / 4) (e % 4))) = []) :=
  ⟨⟨live, 0, .host, (BitVec.ofNat 25 (R.lpSrc_LPPOS_LO 0)), by decide +kernel⟩,
    ⟨(((live.readReg 0 .host (R.lpSrc_LPPOS_LO 0)))), 0, .host, (BitVec.ofNat 25 (R.lpSrc_LPPOS_LO 0 + 4)), 0, by decide +kernel⟩,
    ⟨live, 0, .host, (BitVec.ofNat 25 (R.lpSrc_LPPOS_LO 0 + 4)), by decide +kernel⟩,
    ⟨live, .host, by decide +kernel⟩,
    ⟨((live.readReg 0 .host R.invarCore_NOW_NS_LO)), .host, 0, by decide +kernel⟩,
    ⟨live, 0, .host, 3, by decide +kernel⟩⟩

/-- Inputs that meet the hypotheses of DispatchAndPreemption, clause by clause. -/
theorem witness_DispatchAndPreemption :
    (∃ (s : State) (t : _) (c : Fin 8) (x : _) (e : _), s.cellInReset c = false ∧ s.blockInReset 0x0F = false ∧ s.lahar.cellWait = [] ∧ (s.readyOf c).head? = some x ∧ s.idleEngine c = some e ∧ x.key ≠ runtimeKey ∧ (x.again = true ∨ s.lastToken x.key + 6 ≤ ecyc (s.tick t).now)) ∧
    (∃ (s : State) (c : Fin 8) (x : _) (e : _), s.cellInReset c = false ∧ s.blockInReset 0x0F = false ∧ s.lahar.cellWait = [] ∧ (s.readyOf c).head? = some x ∧ s.idleEngine c = none ∧ s.victim c x.prio = some e) ∧
    (∃ (s : State) (e : Fin 32) (x : _) (v : _), (s.eng e).preq = some x ∧ (s.eng e).servs = [v] ∧ v.bank.inSlot = false ∧ (s.eng e).mode = 0 ∧ x.key ≠ runtimeKey) ∧
    (∃ (s : State) (e : Fin 32) (x : _) (v : _) (w : _), (s.eng e).preq = some x ∧ (s.eng e).servs = [v, w] ∧ v.bank.inSlot = false ∧ (s.eng e).mode = 0) ∧
    (∃ (s : State) (e : Fin 32) (x : _) (v : _) (w : _) (y : _), (s.eng e).preq = some x ∧ (s.eng e).servs = [v, w, y] ∧ v.bank.inSlot = false ∧ (s.eng e).mode = 0 ∧ x.key ≠ runtimeKey ∧ v.key ≠ runtimeKey ∧ v.key ≠ x.key) ∧
    (∃ (s : State) (e : Fin 32) (x : _) (v : _) (w : _), (s.eng e).preq = some x ∧ (s.eng e).servs = [v, w] ∧ (s.eng e).mode = 1 ∧ v.loads = [] ∧ v.walks = []) ∧
    (∃ (s : State) (e : Fin 32), (s.eng e).mode = 2 ∧ s.spillBad e = false) :=
  ⟨⟨({ (serving prog [] : State) with lahar := { (serving prog []).lahar with ready := [(0, [rdy])] } }), 0, 0, rdy, 0, by decide +kernel⟩,
    ⟨({ (serving prog [(0, { servs := [sv] }), (1, { servs := [sv] }), (2, { servs := [sv] }), (3, { servs := [sv] })] : State) with lahar := { (serving prog [(0, { servs := [sv] }), (1, { servs := [sv] }), (2, { servs := [sv] }), (3, { servs := [sv] })]).lahar with ready := [(0, [rdy])] } }), 0, rdy, 0, by decide +kernel⟩,
    ⟨(serving prog [(0, { servs := [sv], preq := some rdy })]), 0, rdy, sv, by decide +kernel⟩,
    ⟨(serving prog [(0, { servs := [sv, { sv with key := 3 }], preq := some rdy })]), 0, rdy, sv, ({ sv with key := 3 }), by decide +kernel⟩,
    ⟨(serving prog [(0, { servs := [sv, { sv with key := 3 }, { sv with key := 4 }], preq := some rdy })]), 0, rdy, sv, ({ sv with key := 3 }), ({ sv with key := 4 }), by decide +kernel⟩,
    ⟨(serving prog [(0, { servs := [sv, { sv with key := 3 }], preq := some rdy, mode := 1 })]), 0, rdy, sv, ({ sv with key := 3 }), by decide +kernel⟩,
    ⟨(serving prog [(0, { servs := [sv, { sv with key := 3 }, sv], mode := 2 })]), 0, by decide +kernel⟩⟩

/-- Inputs that meet the hypotheses of OperationLifetime, clause by clause. -/
theorem witness_OperationLifetime :
    (∃ (s : State) (e : Fin 32) (d : Fin 32) (depth : _) (v : _) (l : _), s.depthWith e (fun v => !v.ghost && (v.mayReturn d).isSome) = some depth ∧ s.servAt e depth = some v ∧ v.mayReturn d = some l ∧ (l.own.isSome = true ∨ l.at'.host = true)) ∧
    (∃ (s : State) (e : Fin 32) (depth : _) (v : _) (w : _) (r : _) (p : _), s.depthWith e (fun v => !v.walks.isEmpty) = some depth ∧ s.servAt e depth = some v ∧ v.walks = w :: r ∧ (s.walkFor (e / 4) (s.opCtx v.key).1 (s.opCtx v.key).2.1 w.va w.store (s.opCtx v.key).2.2 (!w.stale)).2 = .ok p ∧ s.farFail p = none ∧ w.store = false) ∧
    (∃ (s : State) (t : _) (e : Fin 32) (depth : _) (v : _), (s.tick t).depthWith e ((s.tick t).drainReady e) = some depth ∧ s.servAt e depth = some v ∧ v.key ≠ runtimeKey) ∧
    (∃ (s : State) (e : Fin 32) (v : _), (s.eng e).servs = [v] ∧ v.draining = true ∧ v.cbuf = [] ∧ v.key ≠ runtimeKey ∧ v.key / 4096 ≠ s.bankNo ∧ (s.opRec v.key).flow = none ∧ s.lahar.cellWait = []) ∧
    (∃ (s : State) (e : Fin 32) (v : _) (g : _) (i : _) (a : _), (s.eng e).servs = [v] ∧ v.draining = true ∧ v.cbuf = [] ∧ v.key = opKey s.bankNo (v.key % 4096) ∧ s.graph = some g ∧ g.arcs[i]? = some a ∧ a.kind = 0 ∧ a.src = v.key % 4096 ∧ a.viaDl = false ∧ s.tok i = none ∧ (s.opSt (opKey s.bankNo a.dstOp)).phase ≠ 0 ∧ a.dstOp ≠ v.key % 4096) :=
  ⟨⟨(serving prog [(0, { servs := [{ sv with loads := [{ d := 4, at' := { host := true, addr := 0x1000 }, va := 0x1000, seq := 1, pc := 3, own := none }] }] })]), 0, 4, 0, ({ sv with loads := [{ d := 4, at' := { host := true, addr := 0x1000 }, va := 0x1000, seq := 1, pc := 3, own := none }] }), ({ d := 4, at' := { host := true, addr := 0x1000 }, va := 0x1000, seq := 1, pc := 3, own := none }), by decide +kernel⟩,
    ⟨(mapped (serving prog [(0, { servs := [{ sv with walks := [{ store := false, d := 5, val := 0, va := 0x2000, seq := 1, pc := 3, stale := false }] }] })])), 0, 0, ({ sv with walks := [{ store := false, d := 5, val := 0, va := 0x2000, seq := 1, pc := 3, stale := false }] }), ({ store := false, d := 5, val := 0, va := 0x2000, seq := 1, pc := 3, stale := false }), ([]), ({ host := false, addr := 0x01202000 }), by decide +kernel⟩,
    ⟨(serving prog [(0, { servs := [{ sv with ended := true }] })]), 0, 0, 0, ({ sv with ended := true }), by decide +kernel⟩,
    ⟨(serving prog [(0, { servs := [{ sv with key := 4096, draining := true }] })]), 0, ({ sv with key := 4096, draining := true }), by decide +kernel⟩,
    ⟨(serving prog [(0, { servs := [{ sv with draining := true, posted := [(0, 9)] }] })]), 0, ({ sv with draining := true, posted := [(0, 9)] }), (graphFor prog), 0, ({ dstOp := 1, dstPort := 0, src := 0, srcPort := 0, kind := 0, keep := false, init := false, viaDl := false, dl := 0, delay := 0 }), by decide +kernel⟩⟩

set_option maxRecDepth 100000 in
/-- Inputs that meet the hypotheses of LaharHostCommands, clause by clause. -/
theorem witness_LaharHostCommands :
    (∃ (s : State) (m : _) (op : BitVec 12) (g : _), s.takes m R.lahar_REFIRE = true ∧ s.graph = some g ∧ op.toNat < g.ops.length ∧ ((s.opSt (opKey s.bankNo op.toNat)).phase = 4 ∨ (s.opSt (opKey s.bankNo op.toNat)).phase = 5) ∧ s.cellRetired (s.execCell (s.opRec (opKey s.bankNo op.toNat)).cell) = false ∧ (s.opSt (opKey s.bankNo op.toNat)).toks ≠ []) ∧
    (∃ (s : State) (m : _), s.takes m R.lahar_DOORBELL = true ∧ s.pairMode = true ∧ s.pair.claim = true) ∧
    (∃ (s : State) (m : _) (n : Byte) (i : _) (g : _) (a : _), s.takes m R.lahar_DOORBELL = true ∧ s.pairMode = false ∧ s.graph = some g ∧ s.arcsOf 5 n.toNat = [i] ∧ g.arcs[i]? = some a ∧ s.tok i = none ∧ (s.opSt (opKey s.bankNo a.dstOp)).phase ≠ 0) ∧
    (∃ (s : State) (m : _) (i : Fin 16), s.takes m (R.lahar_FLOW_EN i) = true ∧ s.pairMode = false) ∧
    (∃ (s : State) (m : _) (i : Fin 16), s.takes m (R.lahar_FLOW_EN i) = true ∧ s.pairMode = true) ∧
    (∃ (s : State) (m : _), s.takes m R.lahar_LOAD_CTL = true ∧ s.loadState ≠ 1 ∧ s.loadState ≠ 4) ∧
    (∃ (s : State) (m : _), s.takes m R.lahar_LOAD_CTL = true ∧ (s.loadState = 1 ∨ s.loadState = 4)) ∧
    (∃ (s : State) (off : _) (n : _), s.lahar.snap = some (off, s.mem) ∧ s.ecc = [] ∧ n = min (min (s.le (sharedAddr off + 8) 4) 2097152) (0x800000 - off) ∧ Img.check (s.bytes (sharedAddr off) (max n 128)) off false = none) ∧
    (∃ (s : State) (off : _) (n : _) (code : _) (idx : _), s.lahar.snap = some (off, s.mem) ∧ s.ecc = [] ∧ n = min (min (s.le (sharedAddr off + 8) 4) 2097152) (0x800000 - off) ∧ Img.check (s.bytes (sharedAddr off) (max n 128)) off false = some (code, idx)) ∧
    (∃ (s : State) (m : _), s.takes m R.lahar_LOAD_CTL = true ∧ (s.loadState = 0 ∨ s.loadState = 2)) ∧
    (∃ (s : State) (m : _), s.takes m R.lahar_LOAD_CTL = true ∧ (s.loadState = 2 ∨ s.loadState = 3)) ∧
    (∃ (s : State), (s.switchDue = false ∨ s.switchHeld = true)) ∧
    (∃ (s : State) (a : _), s.lahar.act = some a ∧ a + 2048 ≤ s.tau ∧ s.cycling = true ∧ s.switchHeld = false ∧ s.graphOf (1 - s.bankNo) = none) ∧
    (∃ (s : State) (a : _) (g : _), s.lahar.act = some a ∧ a + 2048 ≤ s.tau ∧ s.cycling = true ∧ s.switchHeld = false ∧ s.graphOf (1 - s.bankNo) = some g ∧ (∀ c, c < 8 → s.cellRetired c = false)) :=
  ⟨⟨({ (serving prog [] : State) with lahar := { ((serving prog [] : State)).lahar with ops := [(0, { phase := 4, toks := [{ word := 0, at' := { cyc := 0, tcyc := 0, lpp := [] } }] }), (1, { phase := 1 })] } }), .host, 0, (graphFor prog), by decide +kernel⟩,
    ⟨({ pairLive with pair := { pairLive.pair with claim := true } }), .host, by decide +kernel⟩,
    ⟨(serving prog []), .host, 9, 1, (graphFor prog), ({ dstOp := 1, dstPort := 1, src := 9, srcPort := 0, kind := 5, keep := false, init := false, viaDl := false, dl := 0, delay := 0 }), by decide +kernel⟩,
    ⟨(serving prog []), .host, 2, by decide +kernel⟩,
    ⟨pairLive, .host, 2, by decide +kernel⟩,
    ⟨(poke (serving prog []) [(R.lahar_LOAD_STAT, 0)]), .host, by decide +kernel⟩,
    ⟨(poke (serving prog []) [(R.lahar_LOAD_STAT, 1)]), .host, by decide +kernel⟩,
    ⟨((let s := fill live 0x01000000 image; { s with lahar := { s.lahar with snap := some (0, s.mem) } })), 0, 312, by decide +kernel⟩,
    ⟨((let s := live; { s with lahar := { s.lahar with snap := some (0, s.mem) } })), 0, 0, ((((Img.check (live.bytes 0x01000000 128) 0 false).getD (0, 0)).1)), ((((Img.check (live.bytes 0x01000000 128) 0 false).getD (0, 0)).2)), by decide +kernel⟩,
    ⟨(poke (serving prog []) [(R.lahar_LOAD_STAT, 2)]), .host, by decide +kernel⟩,
    ⟨(poke (serving prog []) [(R.lahar_LOAD_STAT, 3)]), .host, by decide +kernel⟩,
    ⟨live, by decide +kernel⟩,
    ⟨({ poke (serving prog []) [(R.lahar_LOAD_STAT, 4)] with cycling := true, tau := 1200000, lahar := { (serving prog []).lahar with act := some 5 } }), 5, by decide +kernel⟩,
    ⟨({ poke (serving prog []) [(R.lahar_LOAD_STAT, 4)] with cycling := true, tau := 1200000, lahar := { graphs := [(1, some (graphFor prog))], act := some 5 } }), 5, (graphFor prog), by decide +kernel⟩⟩

/-- Inputs that meet the hypotheses of LaharUpkeep, clause by clause. -/
theorem witness_LaharUpkeep :
    (∃ (s : State) (m : _), s.takes m (R.CTRL P.lahar) = true) ∧
    (∃ (s : State) (m : _) (c : Fin 8), s.takes m (R.CTRL (cellPage c)) = true) ∧
    (∃ (s : State) (c : _), s.lahar.reroute = [(c, s.cycle - 1)] ∧ 0 < s.cycle) ∧
    (∃ (c : _) (g : _) (b : _), c < 8 ∧ g < 8 ∧ b < 8) ∧
    (∃ (s : State) (c : Fin 8) (x : _), (s.b (R.cell_COPY_STAT c) 0 = true ∧ s.copyInto c = some x) ∧ (∀ h y, s.movedTo h = some y → y.target = c.val → y.bad = [])) ∧
    (∃ (s : State) (c : Fin 8), s.b (R.cell_COPY_STAT c) 0 = true) ∧
    (∃ (s : State) (t : _) (l : Fin 4) (n : _) (e : _) (r : _), s.blockInReset 0x0F = false ∧ s.pairMode = false ∧ (s.tick t).dlTicks l = n ∧ n ≠ 0 ∧ s.dlist l = e :: r ∧ (e.due - (s.rd48 (R.lahar_DL_TICK_LO l) + BitVec.ofNat 48 n)).toInt ≤ 0 ∧ (∀ x ∈ r, 0 < (x.due - (s.rd48 (R.lahar_DL_TICK_LO l) + BitVec.ofNat 48 n)).toInt)) ∧
    (∃ (s : State) (t : _) (e : Fin 32), 1 < s.sin.state ∧ s.sin.engTest + nsT 10000000 ≤ (s.tick t).now ∧ s.engUp e = true ∧ s.cellInReset (e / 4) = false ∧ (s.eng e).preq = none ∧ (s.eng e).servs = []) ∧
    (∃ (s : State) (t : _) (e : Fin 32) (x : _) (v : _), (s.eng e).testSince = some x ∧ x + nsT 100000 ≤ (s.tick t).now ∧ (s.eng e).servs = [v] ∧ v.key = runtimeKey ∧ v.ghost = false ∧ (s.eng e).preq = none ∧ (s.fdCh 4 e).perm = true) :=
  ⟨⟨(serving prog []), .host, by decide +kernel⟩,
    ⟨live, .host, 1, by decide +kernel⟩,
    ⟨({ poke live [(R.chip_CYCLE_LO, 9)] with lahar := { reroute := [(3, 8)] } }), 3, by decide +kernel⟩,
    ⟨2, 7, 1, by decide +kernel⟩,
    ⟨({ poke live [(R.cell_COPY_STAT 2, 1)] with lahar := { copies := [(1, some { target := 2, since := 5, base := 0, size := 64 })] } }), 2, ({ target := 2, since := 5, base := 0, size := 64 }), by decide +kernel, moved_ok (by decide +kernel)⟩,
    ⟨({ poke live [(R.cell_COPY_STAT 2, 1)] with lahar := { copies := [(1, some { target := 2, since := 5, base := 0, size := 64 })] } }), 2, by decide +kernel⟩,
    ⟨({ poke (serving prog []) [(R.chip_CYCLE_LO, 9), (R.lahar_DL_TICK_LO 0, 8)] with lahar := { graphs := [(0, some { graphFor prog with dls := [{ mode := 1, lp := 0, period := 0, lpInc := 0 }] })], dls := [(0, [{ due := 9, op := 1, port := 1, word := 4, arc := 1 }])] } }), 0, 0, 1, ({ due := 9, op := 1, port := 1, word := 4, arc := 1 }), ([]), by decide +kernel⟩,
    ⟨({ live with sin := { state := 3 } }), 200000000, 0, by decide +kernel⟩,
    ⟨({ live with engs := [(2, { servs := [{ sv with key := runtimeKey }], testSince := some 5 })], fd := [(0x4002, { perm := true })] }), 200000000, 2, 5, ({ sv with key := runtimeKey }), by decide +kernel⟩⟩

/-- Inputs that meet the hypotheses of AluInstructions, clause by clause. -/
theorem witness_AluInstructions :
    (∃ (op : _) (s : State) (e : Fin 32) (v : _) (w : _), op ≠ .cmov ∧ s.Issues e (.alu op) v w) ∧
    (∃ (s : State) (e : Fin 32) (v : _) (w : _), s.Issues e (.alu .cmov) v w) ∧
    (∃ (s : State) (e : Fin 32) (v : _) (w : _) (op : _), s.top e = some v ∧ s.canIssue e v = true ∧ w = s.word48 (engInstrAddr e v.bank.pc) ∧ (rowOfWord w).1 = .alu op ∧ wordValid w = false ∧ s.eccAt (engInstrAddr e v.bank.pc) = .good ∧ s.b (R.engine_TRAP_STAT e) 0 = false ∧ (s.eng e).servs = [v] ∧ v.ghost = false) ∧
    (∃ (s : State) (e : Fin 32) (v : _) (w : _) (op : _) (d : _), s.top e = some v ∧ s.canIssue e v = true ∧ w = s.word48 (engInstrAddr e v.bank.pc) ∧ (rowOfWord w).1 = .alu op ∧ wordValid w = true ∧ d ∈ wordD w ∧ d ∈ v.pendingD) ∧
    (∃ (s : State) (t : _) (e : Fin 32) (v : _) (w : _) (r : _) (i : _), (i ∈ brassInstr r t e false ∧ s.b (R.engine_TRAP_STAT e) 0 = false) ∧ s.Issues e r v w) :=
  ⟨⟨.add, (running 0x400C62000000), 0, svr, 0x400C62000000, by decide +kernel, by unfold State.Issues; decide +kernel⟩,
    ⟨(running 0x680C20000000), 0, svr, 0x680C20000000, by unfold State.Issues; decide +kernel⟩,
    ⟨(running 0x400C22000001), 0, svr, 0x400C22000001, .add, by decide +kernel⟩,
    ⟨(running 0x400C22000000 { svr with loads := [{ d := 1, at' := { host := true, addr := 0 }, va := 0, seq := 0, pc := 0 }] }), 0, ({ svr with loads := [{ d := 1, at' := { host := true, addr := 0 }, va := 0, seq := 0, pc := 0 }] }), 0x400C22000000, .add, 1, by decide +kernel⟩,
    ⟨(running 0x400C62000000), 0, 0, svr, 0x400C62000000, (.alu .add), (Instr.add 0 0 false), by decide +kernel, by unfold State.Issues; decide +kernel⟩⟩

/-- Inputs that meet the hypotheses of MultiplyAccumulate, clause by clause. -/
theorem witness_MultiplyAccumulate :
    (∃ (op : _) (s : State) (e : Fin 32) (v : _) (w : _) (x : _) (y : _), ((s.earlyAccess e (s.topDepth e) v.seed (s.readBank v) w).1 = .word x ∧ (s.lateAccess e (s.topDepth e) v.seed (s.readBank v) (s.earlyAccess e (s.topDepth e) v.seed (s.readBank v) w).2 w).2.1 = .word y) ∧ s.Issues e (.mac op) v w) :=
  ⟨.mpy, (running 0xC40440000000), 0, svr, 0xC40440000000, 0, 0, by decide +kernel, by unfold State.Issues; decide +kernel⟩

/-- Inputs that meet the hypotheses of MemoryInstructions, clause by clause. -/
theorem witness_MemoryInstructions :
    (∃ (s : State) (e : Fin 32) (v : _) (w : _) (x : _), s.localRead e (s.topDepth e) v.seed (memAddr s.freeCtr (s.readBank v) w).1 = .word x ∧ s.Issues e (.mem 0) v w) ∧
    (∃ (s : State) (e : Fin 32) (v : _) (w : _), s.localWriteTrap e (s.topDepth e) (memAddr s.freeCtr (s.readBank v) w).1 = none ∧ s.Issues e (.mem 1) v w) ∧
    (∃ (s : State) (e : Fin 32) (v : _) (w : _) (x : _), s.localRead e (s.topDepth e) v.seed (memAddr s.freeCtr (s.readBank v) w).1 = .word x ∧ s.Issues e (.mem 2) v w) ∧
    (∃ (s : State) (e : Fin 32) (v : _) (w : _), s.localWriteTrap e (s.topDepth e) (memAddr s.freeCtr (s.readBank v) w).1 = none ∧ s.Issues e (.mem 3) v w) ∧
    (∃ (s : State) (e : Fin 32) (v : _) (w : _) (c : _), (s.localWriteTrap e (s.topDepth e) (memAddr s.freeCtr (s.readBank v) w).1 = some c ∧ s.b (R.engine_TRAP_STAT e) 0 = false) ∧ s.Issues e (.mem 1) v w) ∧
    (∃ (s : State) (e : Fin 32) (v : _) (w : _) (p : _) (va : _), va = (s.readBank v).d s.freeCtr (fld w 31 27) + w48 (sfld w 26 11 * 8) ∧ (s.tlbLook (e / 4) (s.opCtx v.key).1 (s.opCtx v.key).2.1 va false (s.opCtx v.key).2.2 = .ok p ∧ s.farFail p = none) ∧ s.Issues e (.mem 4) v w) ∧
    (∃ (s : State) (e : Fin 32) (v : _) (w : _) (va : _), va = (s.readBank v).d s.freeCtr (fld w 31 27) + w48 (sfld w 26 11 * 8) ∧ s.tlbLook (e / 4) (s.opCtx v.key).1 (s.opCtx v.key).2.1 va false (s.opCtx v.key).2.2 = .miss ∧ s.Issues e (.mem 4) v w) ∧
    (∃ (s : State) (e : Fin 32) (v : _) (w : _) (p : _) (l : _) (va : _), va = (s.readBank v).d s.freeCtr (fld w 31 27) + w48 (sfld w 26 11 * 8) ∧ (s.tlbLook (e / 4) (s.opCtx v.key).1 (s.opCtx v.key).2.1 va true (s.opCtx v.key).2.2 = .ok p ∧ s.farFail p = none ∧ cbufPut v.cbuf { at' := p, va := va, val := (s.readBank v).d s.freeCtr (fld w 36 32), seq := v.seq } = some l) ∧ s.Issues e (.mem 5) v w) ∧
    (∃ (s : State) (e : Fin 32) (v : _) (w : _) (p : _) (va : _), va = (s.readBank v).d s.freeCtr (fld w 31 27) + w48 (sfld w 26 11 * 8) ∧ (s.tlbLook (e / 4) (s.opCtx v.key).1 (s.opCtx v.key).2.1 va false (s.opCtx v.key).2.2 = .ok p ∧ s.farFail p = some .size ∧ s.b (R.engine_TRAP_STAT e) 0 = false) ∧ s.Issues e (.mem 4) v w) :=
  ⟨⟨(running 0x800300050000), 0, svr, 0x800300050000, 0, by decide +kernel, by unfold State.Issues; decide +kernel⟩,
    ⟨(running 0x880340020000), 0, svr, 0x880340020000, by decide +kernel, by unfold State.Issues; decide +kernel⟩,
    ⟨(running 0x901A00050000), 0, svr, 0x901A00050000, 0, by decide +kernel, by unfold State.Issues; decide +kernel⟩,
    ⟨(running 0x980140020000), 0, svr, 0x980140020000, by decide +kernel, by unfold State.Issues; decide +kernel⟩,
    ⟨(running 0x880300050000), 0, svr, 0x880300050000, 3, by decide +kernel, by unfold State.Issues; decide +kernel⟩,
    ⟨(farRunning 0xA00620000800), 0, svr, 0xA00620000800, ({ host := false, addr := 0x1000008 }), _, rfl, by decide +kernel, by unfold State.Issues; decide +kernel⟩,
    ⟨(running 0xA00620000800), 0, svr, 0xA00620000800, _, rfl, by decide +kernel, by unfold State.Issues; decide +kernel⟩,
    ⟨(farRunning 0xA80320000800), 0, svr, 0xA80320000800, ({ host := false, addr := 0x1000008 }), ([{ at' := { host := false, addr := 0x1000008 }, va := 0x2008, val := 0x800000000001, seq := 0 }]), _, rfl, by decide +kernel, by unfold State.Issues; decide +kernel⟩,
    ⟨(farRunning 0xA00620000800 ({ svr with bank := { svr.bank with regs := (4, 0x2004) :: svr.bank.regs } })), 0, ({ svr with bank := { svr.bank with regs := (4, 0x2004) :: svr.bank.regs } }), 0xA00620000800, ({ host := false, addr := 0x100000C }), _, rfl, by decide +kernel, by unfold State.Issues; decide +kernel⟩⟩

/-- Inputs that meet the hypotheses of ControlInstructions, clause by clause. -/
theorem witness_ControlInstructions :
    (∃ (s : State) (e : Fin 32) (v : _) (w : _), s.Issues e (.ctl 0) v w) ∧
    (∃ (s : State) (e : Fin 32) (v : _) (w : _), s.Issues e (.ctl 1) v w) ∧
    (∃ (s : State) (e : Fin 32) (v : _) (w : _), s.Issues e (.ctl 2) v w) ∧
    (∃ (s : State) (e : Fin 32) (v : _) (w : _), s.Issues e (.ctl 3) v w) ∧
    (∃ (s : State) (e : Fin 32) (v : _) (w : _), s.Issues e (.ctl 4) v w) ∧
    (∃ (s : State) (e : Fin 32) (v : _) (w : _), s.Issues e (.ctl 5) v w) ∧
    (∃ (b : Bank) (k : _), b.br = some (1, k)) ∧
    (∃ (b : Bank) (n : _) (k : _), b.br = some (n + 2, k)) :=
  ⟨⟨(running 0x0), 0, svr, 0x0, by unfold State.Issues; decide +kernel⟩,
    ⟨(running 0x10000000064), 0, svr, 0x10000000064, by unfold State.Issues; decide +kernel⟩,
    ⟨(running 0x20080000000), 0, svr, 0x20080000000, by unfold State.Issues; decide +kernel⟩,
    ⟨(running 0x300C0000064), 0, svr, 0x300C0000064, by unfold State.Issues; decide +kernel⟩,
    ⟨(running 0x44000006014), 0, svr, 0x44000006014, by unfold State.Issues; decide +kernel⟩,
    ⟨(running 0x50000000000), 0, svr, 0x50000000000, by unfold State.Issues; decide +kernel⟩,
    ⟨({ br := some (1, 100) }), 100, by decide +kernel⟩,
    ⟨({ br := some (2, 100) }), 0, 100, by decide +kernel⟩⟩

/-- Inputs that meet the hypotheses of RegisterInstructions, clause by clause. -/
theorem witness_RegisterInstructions :
    (∃ (s : State) (e : Fin 32) (v : _) (w : _), s.Issues e (.ctl 0x08) v w) ∧
    (∃ (s : State) (e : Fin 32) (v : _) (w : _), s.Issues e (.ctl 0x09) v w) ∧
    (∃ (s : State) (e : Fin 32) (v : _) (w : _), s.Issues e (.ctl 0x0A) v w) ∧
    (∃ (s : State) (e : Fin 32) (v : _) (w : _), s.Issues e (.ctl 0x10) v w) ∧
    (∃ (s : State) (e : Fin 32) (v : _) (w : _), s.Issues e (.ctl 0x11) v w) ∧
    (∃ (s : State) (e : Fin 32) (v : _) (w : _), s.Issues e (.ctl 0x12) v w) ∧
    (∃ (s : State) (e : Fin 32) (v : _) (w : _), s.Issues e (.ctl 0x13) v w) ∧
    (∃ (s : State) (e : Fin 32) (v : _) (w : _), fld w 39 38 = 0 ∧ s.Issues e (.ctl 0x14) v w) ∧
    (∃ (s : State) (e : Fin 32) (v : _) (w : _), fld w 39 38 = 1 ∧ s.Issues e (.ctl 0x14) v w) ∧
    (∃ (s : State) (e : Fin 32) (v : _) (w : _), fld w 39 38 = 2 ∧ s.Issues e (.ctl 0x14) v w) ∧
    (∃ (s : State) (e : Fin 32) (v : _) (w : _), fld w 39 38 = 3 ∧ s.Issues e (.ctl 0x14) v w) ∧
    (∃ (s : State) (e : Fin 32) (v : _) (w : _), s.Issues e (.ctl 0x15) v w) ∧
    (∃ (s : State) (e : Fin 32) (v : _) (w : _), (fld w 39 34 < 4 ∨ 12 ≤ fld w 39 34) ∧ s.Issues e (.ctl 0x18) v w) ∧
    (∃ (s : State) (e : Fin 32) (v : _) (w : _), fld w 39 38 < (s.opRec v.key).nOut ∧ s.Issues e (.ctl 0x19) v w) ∧
    (∃ (s : State) (e : Fin 32) (v : _) (w : _), (4 ≤ fld w 39 34 ∧ fld w 39 34 < 12) ∧ s.Issues e (.ctl 0x18) v w) ∧
    (∃ (s : State) (e : Fin 32) (v : _) (w : _), (s.opRec v.key).nOut ≤ fld w 39 38 ∧ s.Issues e (.ctl 0x19) v w) :=
  ⟨⟨(running 0x88020000000), 0, svr, 0x88020000000, by unfold State.Issues; decide +kernel⟩,
    ⟨(running 0x980C0000000), 0, svr, 0x980C0000000, by unfold State.Issues; decide +kernel⟩,
    ⟨(running 0xA000000ABCD), 0, svr, 0xA000000ABCD, by unfold State.Issues; decide +kernel⟩,
    ⟨(running 0x1000C0000000), 0, svr, 0x1000C0000000, by unfold State.Issues; decide +kernel⟩,
    ⟨(running 0x110060000000), 0, svr, 0x110060000000, by unfold State.Issues; decide +kernel⟩,
    ⟨(running 0x120000000000), 0, svr, 0x120000000000, by unfold State.Issues; decide +kernel⟩,
    ⟨(running 0x1300C3000000), 0, svr, 0x1300C3000000, by unfold State.Issues; decide +kernel⟩,
    ⟨(running 0x1400C3380000), 0, svr, 0x1400C3380000, by decide +kernel, by unfold State.Issues; decide +kernel⟩,
    ⟨(running 0x1440C3380000), 0, svr, 0x1440C3380000, by decide +kernel, by unfold State.Issues; decide +kernel⟩,
    ⟨(running 0x148000380000), 0, svr, 0x148000380000, by decide +kernel, by unfold State.Issues; decide +kernel⟩,
    ⟨(running 0x14C000380000), 0, svr, 0x14C000380000, by decide +kernel, by unfold State.Issues; decide +kernel⟩,
    ⟨(running 0x1500C110C000), 0, svr, 0x1500C110C000, by unfold State.Issues; decide +kernel⟩,
    ⟨(running 0x1800C0000000), 0, svr, 0x1800C0000000, by decide +kernel, by unfold State.Issues; decide +kernel⟩,
    ⟨(running 0x194040000000), 0, svr, 0x194040000000, by decide +kernel, by unfold State.Issues; decide +kernel⟩,
    ⟨(running 0x1810C0000000), 0, svr, 0x1810C0000000, by decide +kernel, by unfold State.Issues; decide +kernel⟩,
    ⟨(running 0x198040000000), 0, svr, 0x198040000000, by decide +kernel, by unfold State.Issues; decide +kernel⟩⟩

/-- Inputs that meet the hypotheses of TransformKernels, clause by clause. -/
theorem witness_TransformKernels :
    (∃ (s : State) (e : Fin 32) (v : Serv) (cfg : W64) (w1 : W64) (w2 : W64) (w3 : W64) (ab : W64) (c : W64) (pab : W48) (pc : W48) (out : W48) (x : _), x = s.kenv e v ∧ (cfg = 0 ∨ cfg = 1) ∧ s.KernelStarts e v (isKernel 5) ∧ (∀ y ∈ [(x.word 0, cfg), (x.word 1, w1), (x.word 2, w2), (x.word 3, w3), (pab, ab)], s.Sees e v.key y.1 y.2) ∧ x.Points true w1 pab ∧ (if cfg = 1 then x.Points true w2 pc ∧ s.Sees e v.key pc c else (w2 = 0 ∨ x.Points true w2 pc) ∧ c = 0) ∧ x.Points false w3 out ∧ s.Writable e v.key [out]) ∧
    (∃ (s : State) (e : Fin 32) (v : Serv) (w1 : W64) (w2 : W64) (w3 : W64) (ab : W64) (an : W64) (pin : W48) (pan : W48) (out : W48) (x : _), x = s.kenv e v ∧ s.KernelStarts e v (isKernel 6) ∧ (∀ y ∈ [(x.word 0, 0), (x.word 1, w1), (x.word 2, w2), (x.word 3, w3), (pin, ab), (pan, an)], s.Sees e v.key y.1 y.2) ∧ x.Points false w1 pin ∧ x.Points false w2 pan ∧ x.Points false w3 out ∧ s.Writable e v.key [out]) ∧
    (∃ (s : State) (e : Fin 32) (v : Serv) (cfg : W64) (w1 : W64) (w2 : W64) (w3 : W64) (w4 : W64) (dq : W64) (an : W64) (om : W64) (pin : W48) (pan : W48) (pom : W48) (out : W48) (x : _), x = s.kenv e v ∧ cfg.toNat < 16 ∧ s.KernelStarts e v (isKernel 7) ∧ (∀ y ∈ [(x.word 0, cfg), (x.word 1, w1), (x.word 2, w2), (x.word 3, w3), (x.word 4, w4), (pin, dq), (pan, an)], s.Sees e v.key y.1 y.2) ∧ x.Points false w1 pin ∧ x.Points false w2 pan ∧ (w3 = 0 ∧ om = 0 ∨ x.Points false w3 pom ∧ s.Sees e v.key pom om) ∧ x.Points false w4 out ∧ s.Writable e v.key [out]) ∧
    (∃ (s : State) (e : Fin 32) (v : Serv) (cfg : W64) (w1 : W64) (w2 : W64) (w3 : W64) (w4 : W64) (lim : W64) (ab : W64) (bus : Option W48) (pin : W48) (pbus : W48) (oab : W48) (oc : W48) (x : _), x = s.kenv e v ∧ ((cfg = 0 ∨ cfg = 1) ∧ 0 ≤ loLane (lim.setWidth 48) ∧ loLane (lim.setWidth 48) ≤ hiLane (lim.setWidth 48)) ∧ s.KernelStarts e v (isKernel 8) ∧ (∀ y ∈ [(x.word 0, cfg), (x.word 1, w1), (x.word 2, w2), (x.word 3, w3), (x.word 4, w4), (x.word 5, lim), (pin, ab)], s.Sees e v.key y.1 y.2) ∧ x.Points false w1 pin ∧ (w2 = 0 ∧ bus = none ∨ x.Points false w2 pbus ∧ ∃ y, s.Sees e v.key pbus y ∧ bus = some (y.setWidth 48)) ∧ x.Points false w3 oab ∧ x.Points false w4 oc ∧ s.Writable e v.key [oab, oc]) :=
  ⟨⟨(kern (kop 5) [(0x2000, [0, 12288, 0, 12304]), (0x3000, [35184387817472])] 2), 0, sv, 0, 12288, 0, 12304, 35184387817472, 0, 12288, 0, 12304, _, rfl, by decide +kernel, starts_of (by decide +kernel) (by decide +kernel), sees_all (by decide +kernel), points_of (by decide +kernel), by rw [if_neg (by decide)]; exact ⟨.inl rfl, rfl⟩, points_of (by decide +kernel), writable_of (by decide +kernel)⟩,
    ⟨(kern (kop 6) [(0x2000, [0, 12288, 12296, 12304]), (0x3000, [35184387817472, 20015990439936])] 2), 0, sv, 12288, 12296, 12304, 35184387817472, 20015990439936, 12288, 12296, 12304, _, rfl, starts_of (by decide +kernel) (by decide +kernel), sees_all (by decide +kernel), points_of (by decide +kernel), points_of (by decide +kernel), points_of (by decide +kernel), writable_of (by decide +kernel)⟩,
    ⟨(kern (kop 7) [(0x2000, [3, 12288, 12296, 12312, 12304]), (0x3000, [35184387817472, 20015990439936]), (0x3018, [68719476736])] 2), 0, sv, 3, 12288, 12296, 12312, 12304, 35184387817472, 20015990439936, 68719476736, 12288, 12296, 12312, 12304, _, rfl, by decide +kernel, starts_of (by decide +kernel) (by decide +kernel), sees_all (by decide +kernel), points_of (by decide +kernel), points_of (by decide +kernel), by first | exact .inl (by decide) | exact .inr ⟨points_of (by decide +kernel), sees_of (by decide +kernel)⟩, points_of (by decide +kernel), writable_of (by decide +kernel)⟩,
    ⟨(kern (kop 8) [(0x2000, [0, 12288, 0, 12304, 12312, 131941395857408]), (0x3000, [35184387817472, 52776558133248])] 2), 0, sv, 0, 12288, 0, 12304, 12312, 131941395857408, 35184387817472, none, 12288, 0, 12304, 12312, _, rfl, by decide +kernel, starts_of (by decide +kernel) (by decide +kernel), sees_all (by decide +kernel), points_of (by decide +kernel), by first | exact .inl (by decide) | exact .inr ⟨points_of (by decide +kernel), sees_of (by decide +kernel)⟩, points_of (by decide +kernel), points_of (by decide +kernel), writable_of (by decide +kernel)⟩⟩

/-- Inputs that meet the hypotheses of SectionKernels, clause by clause. -/
theorem witness_SectionKernels :
    (∃ (s : State) (e : Fin 32) (v : Serv) (k : Nat) (cfg : W64) (w1 : W64) (w2 : W64) (wa : W64) (wb : W64) (st : W64) (s1 : W64) (s2 : W64) (sctl : W64) (inp : W64) (b0 : W64) (b1 : W64) (b2 : W64) (a1 : W64) (a2 : W64) (g : W64) (pin : W48) (out : W48) (cs : W48) (x : _), x = s.kenv e v ∧ ((k = 1 ∨ k = 2) ∧ fld cfg 3 0 = 1 ∧ cfg &&& ~~~ 0x10F#64 = 0 ∧ g.toNat < 4 ∧ sctlOk sctl = true) ∧ s.KernelStarts e v (isKernel k) ∧ (∀ y ∈ [(x.word 0, cfg), (x.word 1, w1), (x.word 2, w2), (x.word 3, wa), (x.word 4, wb), (x.word 5, st), (x.word 6, s1), (x.word 7, s2), (x.word 8, sctl), (cs, b0), (at8 cs 1, b1), (at8 cs 2, b2), (at8 cs 3, a1), (at8 cs 4, a2), (at8 cs 5, g), (pin, inp)], s.Sees e v.key y.1 y.2) ∧ x.Points true w1 pin ∧ x.Points false w2 out ∧ x.Chooses wa wb cs ∧ s.Writable e v.key [x.word 6, x.word 7, x.word 8, out, x.word 5]) :=
  ⟨(kern (kop 1) [(0x2000, [1, 12288, 12304, 12544, 0, 5, 4660, 281474926379012, 4378591232]), (0x3000, [57545986220595]), (0x3100, [35184374185984, 17592187092992, 8796093546496, 246290605670400, 1099511693312, 2]), (0x3200, [35184374185984, 17592187092992, 8796093546496, 246290605670400, 1099511693312, 2])] 2), 0, sv, 1, 1, 12288, 12304, 12544, 0, 5, 4660, 281474926379012, 4378591232, 57545986220595, 35184374185984, 17592187092992, 8796093546496, 246290605670400, 1099511693312, 2, 12288, 12304, 12544, _, rfl, by decide +kernel, starts_of (by decide +kernel) (by decide +kernel), sees_all (by decide +kernel), points_of (by decide +kernel), points_of (by decide +kernel), ⟨_, points_of (by decide +kernel), .inl ⟨rfl, by decide +kernel, rfl⟩⟩, writable_of (by decide +kernel)⟩

/-- Inputs that meet the hypotheses of ControllerKernels, clause by clause. -/
theorem witness_ControllerKernels :
    (∃ (s : State) (e : Fin 32) (v : Serv) (cfg : W64) (w1 : W64) (w2 : W64) (w3 : W64) (w4 : W64) (wa : W64) (wb : W64) (st : W64) (ig : W64) (r : W64) (w10 : W64) (w11 : W64) (w12 : W64) (kp : W64) (ki : W64) (g : W64) (ol : W64) (il : W64) (ref : W64) (fb : W64) (ff : W64) (pref : W48) (pfb : W48) (pff : W48) (out : W48) (cs : W48) (x : _), x = s.kenv e v ∧ (x.enabled = true ∧ cfg &&& ~~~ 0x3F01#64 = 0 ∧ fld cfg 13 8 ≤ 40 ∧ w10 &&& ~~~ 0xFFFF0003#64 = 0 ∧ fld w10 1 0 ≠ 3 ∧ w11.toNat < 2 ^ 48 ∧ w12.toNat < 2 ^ 32 ∧ g &&& ~~~ 0xFF0F#64 = 0 ∧ fld g 3 0 ≤ 8 ∧ -24 ≤ sfld g 15 8 ∧ sfld g 15 8 ≤ 8 ∧ loLane (ol.setWidth 48) ≤ hiLane (ol.setWidth 48) ∧ loLane (il.setWidth 48) ≤ hiLane (il.setWidth 48)) ∧ s.KernelStarts e v (isKernel 3) ∧ (∀ y ∈ [(x.word 0, cfg), (x.word 1, w1), (x.word 2, w2), (x.word 3, w3), (x.word 4, w4), (x.word 5, wa), (x.word 6, wb), (x.word 7, st), (x.word 8, ig), (x.word 9, r), (x.word 10, w10), (x.word 11, w11), (x.word 12, w12), (cs, kp), (at8 cs 1, ki), (at8 cs 2, g), (at8 cs 3, ol), (at8 cs 4, il), (pref, ref)], s.Sees e v.key y.1 y.2) ∧ x.Points false w1 pref ∧ (w2 = 0 ∧ bit cfg 0 = false ∧ fb = 0 ∨ x.Points false w2 pfb ∧ s.Sees e v.key pfb fb) ∧ (w3 = 0 ∧ ff = 0 ∨ x.Points false w3 pff ∧ s.Sees e v.key pff ff) ∧ x.Points false w4 out ∧ x.Chooses wa wb cs ∧ s.Writable e v.key [out, x.word 8, x.word 9, x.word 10, x.word 7]) ∧
    (∃ (s : State) (e : Fin 32) (v : Serv) (w1 : W64) (w2 : W64) (w3 : W64) (w4 : W64) (w5 : W64) (wa : W64) (wb : W64) (st : W64) (igd : W64) (igq : W64) (kp : W64) (ki : W64) (g : W64) (ild : W64) (ilq : W64) (vm : W64) (l : W64) (psi : W64) (rd : W64) (rq : W64) (fb : W64) (om : W64) (prd : W48) (prq : W48) (pfb : W48) (pom : W48) (out : W48) (cs : W48) (cfg : W64) (x : _), x = s.kenv e v ∧ (x.enabled = true ∧ (cfg = 0 ∨ cfg = 1) ∧ g &&& ~~~ 0xFFF0F#64 = 0 ∧ fld g 3 0 ≤ 8 ∧ -24 ≤ sfld g 15 8 ∧ sfld g 15 8 ≤ 8 ∧ fld g 19 16 ≤ 8 ∧ loLane (ild.setWidth 48) ≤ hiLane (ild.setWidth 48) ∧ loLane (ilq.setWidth 48) ≤ hiLane (ilq.setWidth 48) ∧ 0 < hiLane (vm.setWidth 48)) ∧ s.KernelStarts e v (isKernel 4) ∧ (∀ y ∈ [(x.word 0, cfg), (x.word 1, w1), (x.word 2, w2), (x.word 3, w3), (x.word 4, w4), (x.word 5, w5), (x.word 6, wa), (x.word 7, wb), (x.word 8, st), (x.word 9, igd), (x.word 10, igq), (cs, kp), (at8 cs 1, ki), (at8 cs 2, g), (at8 cs 3, ild), (at8 cs 4, ilq), (at8 cs 5, vm), (at8 cs 6, l), (at8 cs 7, psi), (prq, rq), (pfb, fb), (pom, om)], s.Sees e v.key y.1 y.2) ∧ (w1 = 0 ∧ rd = 0 ∨ x.Points false w1 prd ∧ s.Sees e v.key prd rd) ∧ x.Points false w2 prq ∧ x.Points false w3 pfb ∧ x.Points false w4 pom ∧ x.Points false w5 out ∧ x.Chooses wa wb cs ∧ s.Writable e v.key [out, x.word 9, x.word 10, x.word 8]) :=
  ⟨⟨(kern (kop 3) [(0x2000, [0, 12288, 0, 0, 12304, 12544, 0, 1, 21845, 137438953472, 131072, 16384, 5]), (0x3000, [52776558133248, 17592186044416]), (0x3018, [1099511627776]), (0x3100, [35184372088832, 1099511627776, 515, 70368756760576, 52776571764736])] 2), 0, sv, 0, 12288, 0, 0, 12304, 12544, 0, 1, 21845, 137438953472, 131072, 16384, 5, 35184372088832, 1099511627776, 515, 70368756760576, 52776571764736, 52776558133248, 0, 0, 12288, 0, 0, 12304, 12544, _, rfl, by decide +kernel, starts_of (by decide +kernel) (by decide +kernel), sees_all (by decide +kernel), points_of (by decide +kernel), by first | exact .inl (by decide) | exact .inr ⟨points_of (by decide +kernel), sees_of (by decide +kernel)⟩, by first | exact .inl (by decide) | exact .inr ⟨points_of (by decide +kernel), sees_of (by decide +kernel)⟩, points_of (by decide +kernel), ⟨_, points_of (by decide +kernel), .inl ⟨rfl, by decide +kernel, rfl⟩⟩, writable_of (by decide +kernel)⟩,
    ⟨(kern (kop 4) [(0x2000, [0, 0, 12288, 12296, 12304, 12312, 12544, 0, 0, 1911, 2184]), (0x3000, [35184372088832, 17592202297344, 68719476736]), (0x3020, [5497558138880]), (0x3100, [17592187617280, 1099511758848, 196866, 52776571764736, 52776571764736, 105553116266496, 68719484928, 274877906944])] 2), 0, sv, 0, 12288, 12296, 12304, 12312, 12544, 0, 0, 1911, 2184, 17592187617280, 1099511758848, 196866, 52776571764736, 52776571764736, 105553116266496, 68719484928, 274877906944, 0, 35184372088832, 17592202297344, 68719476736, 0, 12288, 12296, 12304, 12312, 12544, 0, _, rfl, by decide +kernel, starts_of (by decide +kernel) (by decide +kernel), sees_all (by decide +kernel), by first | exact .inl (by decide) | exact .inr ⟨points_of (by decide +kernel), sees_of (by decide +kernel)⟩, points_of (by decide +kernel), points_of (by decide +kernel), points_of (by decide +kernel), points_of (by decide +kernel), ⟨_, points_of (by decide +kernel), .inl ⟨rfl, by decide +kernel, rfl⟩⟩, writable_of (by decide +kernel)⟩⟩

/-- Inputs that meet the hypotheses of ProfileKernels, clause by clause. -/
theorem witness_ProfileKernels :
    (∃ (s : State) (t : Time) (e : Fin 32) (v : Serv) (gear : Bool) (x : _), x = s.kenv e v ∧ s.KernelStarts e v (isKernel (if gear then 10 else 9)) ∧ ∃ y : ProfIn × Prof, (s.tick t).Reads (do let i ← profInputs gear x; let p ← profState x i; pure (i, p)) y ∧ (y.1.enable = false) ∧ s.Writable e v.key (x.profPlaces y.1)) ∧
    (∃ (s : State) (t : Time) (e : Fin 32) (v : Serv) (gear : Bool) (x : _), x = s.kenv e v ∧ s.KernelStarts e v (isKernel (if gear then 10 else 9)) ∧ ∃ y : ProfIn × Prof, (s.tick t).Reads (do let i ← profInputs gear x; let p ← profState x i; pure (i, p)) y ∧ (y.1.enable = true ∧ (y.1.mode = 0 ∨ y.1.mode = 2) ∧ y.2.m1 = y.1.mode + 1 ∧ y.1.newCmd y.2 = 0 ∧ (y.2.jstop && y.2.mode = y.1.mode && y.2.jog = y.1.jogVel) = false ∧ y.2.still = false ∧ bit y.1.pmode 8 = false ∧ y.1.still = false) ∧ s.Writable e v.key (x.profPlaces y.1)) ∧
    (∃ (s : State) (t : Time) (e : Fin 32) (v : Serv) (gear : Bool) (x : _), x = s.kenv e v ∧ s.KernelStarts e v (isKernel (if gear then 10 else 9)) ∧ ∃ y : ProfIn × Prof, (s.tick t).Reads (do let i ← profInputs gear x; let p ← profState x i; pure (i, p)) y ∧ (y.1.enable = true ∧ y.1.mode = 0 ∧ y.2.m1 = 1 ∧ y.1.newCmd y.2 = 0 ∧ y.2.v = 0 ∧ y.2.run = false ∧ y.2.home = 0 ∧ y.2.still = false ∧ fitsS 64 y.2.p = true ∧ bit y.1.pmode 8 = true ∧ y.1.still = false ∧ mag (y.1.fb - w48 (rndDiv y.2.p 65536)).toInt ≤ y.1.win * 65536 ∧ fld y.1.pmode 31 16 ≤ min (y.2.dwell + 1) 65535) ∧ s.Writable e v.key (x.profPlaces y.1)) ∧
    (∃ (s : State) (t : Time) (e : Fin 32) (v : Serv) (x : _), x = s.kenv e v ∧ s.KernelStarts e v (isKernel 10) ∧ ∃ y : ProfIn × Prof, (s.tick t).Reads (do let i ← profInputs true x; let p ← profState x i; pure (i, p)) y ∧ (y.1.enable = true ∧ y.1.mode = 3 ∧ y.1.method = 0 ∧ y.2.m1 = 4 ∧ y.1.newCmd y.2 = 0 ∧ y.2.home = 2 ∧ bit y.1.echo 16 = false ∧ fld y.1.hcfg 47 32 ≠ 0 ∧ fld y.1.hcfg 47 32 * 64 ≤ (BitVec.ofNat 48 y.1.cyc - BitVec.ofNat 48 y.2.homeAt).toNat) ∧ s.Writable e v.key (x.profPlaces y.1)) :=
  ⟨profile1,
    profile2,
    profile3,
    profile4⟩

/-- Inputs that meet the hypotheses of AxisKernels, clause by clause. -/
theorem witness_AxisKernels :
    (∃ (s : State) (e : Fin 32) (v : Serv) (m0 : W64) (m1 : W64) (still : W64) (a0 : W64) (a1 : W64) (a2 : W64) (a5 : W64) (sh : W64) (mul : W64) (off : W64) (vdc : W64) (old : W64) (oldTh : W64) (tk : Token) (r : List Token) (x : _) (c : _) (buf : _), x = s.kenv e v ∧ c = fld x.w0 47 32 % 2 ∧ buf = cellMemAddr x.op.cell (x.w0.toNat % 2 ^ 20) + 8 * (1 + 6 * s.f (R.axis_CFG x.axis) 17 16) ∧ (s.opSt v.key).toks = tk :: r ∧ s.KernelStarts e v isLibrary ∧ (∀ y ∈ [(x.block (0x20 * c), m0), (x.block (0x20 * c + 8), m1), (x.block (0x160 + 8 * c), still), (x.block 0x060, sh), (x.block 0x068, mul), (x.block 0x070, off), (x.block 0x078, vdc), (x.sig 0, old), (x.sig 8, oldTh)], s.Sees e v.key y.1 y.2) ∧ (∀ y ∈ [(buf, (a0 : W64)), (buf + 8, a1), (buf + 16, a2), (buf + 40, a5)], s.farFail { host := false, addr := y.1 } = none ∧ s.copyTouch y.1 = s ∧ (s.busRead .engine y.1 8).2 = .ok y.2.toNat) ∧ s.Writable e v.key [x.sig 0, x.sig 5, x.sig 8, x.sig 9, x.sig 10, x.block 0x170, x.block 0x178, x.block 0x080]) ∧
    (∃ (s : State) (e : Fin 32) (v : Serv) (m0 : W64) (still : W64) (pi : W64) (ramp : W64) (w10 : W64) (w11 : W64) (w12 : W64) (pos : W64) (ref : W64) (late : W64) (x : _) (c : _) (cfg : _) (win : _), x = s.kenv e v ∧ c = fld x.w0 32 32 ∧ cfg = s.rd (R.axis_CFG (fld x.w0 14 8)) ∧ win = s.ioArea (fld cfg 10 8) + 0x3000 + 64 * fld cfg 15 11 + 16 * fld cfg 17 16 ∧ ((bit m0 0 && x.enabled) = false ∧ s.farFail { host := false, addr := win } = none ∧ s.farFail { host := false, addr := win + 8 } = none) ∧ s.KernelStarts e v isLibrary ∧ (∀ y ∈ [(x.block (0x20 * c), m0), (x.block (0x160 + 8 * c), still), (x.block 0x0A0, pi), (at8 (pi.setWidth 48) 9, ramp), (at8 (pi.setWidth 48) 10, w10), (at8 (pi.setWidth 48) 11, w11), (at8 (pi.setWidth 48) 12, w12), (x.sig 0, pos), (x.sig 1, ref), (x.block 0x080, late)], s.Sees e v.key y.1 y.2) ∧ s.Writable e v.key [x.block 0x40, x.block 0x48, x.block 0x50, x.block 0x58] ∧ (∀ va p, s.tlbLook (e / 4) (s.opCtx v.key).1 (s.opCtx v.key).2.1 va true (s.opCtx v.key).2.2 = .ok p → p.host = true ∨ (p.addr ≠ win ∧ p.addr ≠ win + 8)) ∧ (∀ va p, s.tlbLook (e / 4) (s.opCtx v.key).1 (s.opCtx v.key).2.1 va false (s.opCtx v.key).2.2 = .ok p → p.host = true ∨ (p.addr ≠ win ∧ p.addr ≠ win + 8))) ∧
    (∃ (s : State) (t : Time) (e : Fin 32) (v : Serv) (ci : _), (s.top e = some v ∧ s.fresh e v = true ∧ ci.2 (s.opRec v.key) = true ∧ s.b (R.engine_TRAP_STAT e) 0 = false) ∧ ci ∈ kernelInstr t e false) :=
  ⟨⟨(words (kern aop [(0x2000, [3]), (0x2008, [5]), (0x2020, [3]), (0x2028, [5]), (0x2160, [0]), (0x2060, [515]), (0x2068, [65536]), (0x2070, [85]), (0x2078, [70368744177664]), (0x20C0, [5242880]), (0x2100, [20015990439936])] 21474873344) 0x01809008 [0x600010000000B, 0x12345, 0x77, 0, 0, 52776558133248]), 0, sv, 3, 5, 0, 1688854155231243, 74565, 119, 52776558133248, 515, 65536, 85, 70368744177664, 5242880, 20015990439936, ({ word := 21474873344, at' := { cyc := 5, tcyc := 0, lpp := [] } }), ([]), _, _, _, rfl, rfl, rfl, by decide +kernel, starts_of (by decide +kernel) (by decide +kernel), sees_all (by decide +kernel), buses_of (by decide +kernel), writable_of (by decide +kernel)⟩,
    ⟨(words (kern aop [(0x20A0, [16384]), (0x2080, [1]), (0x20C0, [5242880]), (0x20C8, [6291456]), (0x2000, [2]), (0x2160, [2])] 0) 0x01004048 [1, 2, 3, 4]), 0, sv, 2, 2, 16384, 1, 2, 3, 4, 5242880, 6291456, 1, _, _, _, _, rfl, rfl, rfl, rfl, by decide +kernel, starts_of (by decide +kernel) (by decide +kernel), sees_all (by decide +kernel), writable_of (by decide +kernel), fun va p h => .inr ⟨(Nat.ne_of_lt (Nat.lt_of_lt_of_le (tlb_low (x := { bank := 0, ctx := 1, big := true, vpn := 0, pte := 0x0100001F }) rfl (by decide) h) (by decide +kernel))), (Nat.ne_of_lt (Nat.lt_of_lt_of_le (tlb_low (x := { bank := 0, ctx := 1, big := true, vpn := 0, pte := 0x0100001F }) rfl (by decide) h) (by decide +kernel)))⟩, fun va p h => .inr ⟨(Nat.ne_of_lt (Nat.lt_of_lt_of_le (tlb_low (x := { bank := 0, ctx := 1, big := true, vpn := 0, pte := 0x0100001F }) rfl (by decide) h) (by decide +kernel))), (Nat.ne_of_lt (Nat.lt_of_lt_of_le (tlb_low (x := { bank := 0, ctx := 1, big := true, vpn := 0, pte := 0x0100001F }) rfl (by decide) h) (by decide +kernel)))⟩⟩,
    ⟨(words (kern aop [(0x2000, [3]), (0x2008, [5]), (0x2020, [3]), (0x2028, [5]), (0x2160, [0]), (0x2060, [515]), (0x2068, [65536]), (0x2070, [85]), (0x2078, [70368744177664]), (0x20C0, [5242880]), (0x2100, [20015990439936])] 21474873344) 0x01809008 [0x600010000000B, 0x12345, 0x77, 0, 0, 52776558133248]), 0, 0, sv, ((Instr.axisIn 0 0 false, isLibrary)), by decide +kernel, by simp [kernelInstr]⟩⟩

/-- Inputs that meet the hypotheses of AxisPageCommands, clause by clause. -/
theorem witness_AxisPageCommands :
    (∃ (s : State) (t : _) (m : _) (a : Fin 128) (i : Instr) (c : _), s.takes m (R.axis_PCMD a) = true ∧ (i, c) ∈ [(Instr.pcmdStart t m a, 1), (.pcmdStop t m a, 2), (.pcmdFlush t m a, 3), (.homeGo t m a, 4), (.wake t m a, 5), (.pcmdClear t m a, 6)]) ∧
    (∃ (s : State) (m : _) (a : Fin 128) (n : BitVec 9), s.takes m (R.axis_RING_PUT a) = true ∧ 0 < n.toNat ∧ n.toNat ≤ 256 ∧ n.toNat ≤ s.ringCredit a) ∧
    (∃ (s : State) (m : _) (a : Fin 128) (n : BitVec 9), s.takes m (R.axis_RING_PUT a) = true ∧ 0 < n.toNat ∧ (256 < n.toNat ∨ s.ringCredit a < n.toNat)) ∧
    (∃ (s : State) (a : Fin 128), (s.axBound a = true ∧ s.cycling = true ∧ (s.axSt a).mirrored ≠ some s.cycle ∧ s.axBlock a % 8 = 0 ∧ s.profBlock a % 8 = 0 ∧ (s.axBlock a + 0x180 ≤ s.profBlock a ∨ s.profBlock a + 0x120 ≤ s.axBlock a)) ∧ (∀ x, (s.axBlock a ≤ x ∧ x < s.axBlock a + 0x180) ∨ (s.profBlock a ≤ x ∧ x < s.profBlock a + 0x120) → s.phys x = some x)) :=
  ⟨⟨live, 0, .host, 3, (Instr.wake 0 .host 3), 5, by decide +kernel⟩,
    ⟨(poke (live) [(R.axis_RING_LEN 3, 16), (R.axis_RING_CREDIT 3, 16)]), .host, 3, 4, by decide +kernel⟩,
    ⟨(poke (live) [(R.axis_RING_LEN 3, 16), (R.axis_RING_CREDIT 3, 16)]), .host, 3, 20, by decide +kernel⟩,
    ⟨({ (poke (live) [(R.axis_CFG 3, 0x80000000), (R.axis_BLOCK 3, 0x1000), (R.axis_PBLOCK 3, 0x2000), (R.axis_PMODE 3, 0x302), (R.chip_CYCLE_LO, 9)] : State) with cycling := true }), 3, by decide +kernel, by intro x; intros; exact phys_id (by decide +kernel) x⟩⟩

/-- Inputs that meet the hypotheses of LinePositionCommands, clause by clause. -/
theorem witness_LinePositionCommands :
    (∃ (s : State) (q : Fin 8) (onB : _) (level : _), s.blockInReset 0x09 = false ∧ s.qeRetired q = false ∧ s.qeEn q = true ∧ s.b (R.qe_QSTAT q) (b2n onB) = !level) ∧
    (∃ (s : State) (q : Fin 8), s.blockInReset 0x09 = false ∧ s.qeRetired q = false ∧ s.qeEn q = true ∧ (s.fdCh 6 q).perm = false ∧ (s.fdCh 6 q).lastGood = false ∧ (s.fdCh 6 q).level + 1 < s.fdLimit 6) ∧
    (∃ (s : State) (q : Fin 8), s.blockInReset 0x09 = false ∧ s.qeRetired q = false ∧ s.b (R.qe_QCFG q) 8 = true ∧ (s.b (R.qe_QCFG q) 12 = true → s.b (R.qe_QSTAT q) 10 = true)) ∧
    (∃ (s : State), s.blockInReset 0x09 = false) ∧
    (∃ (s : State) (m : _) (q : Fin 8), s.takes m (R.qe_QCMD q) = true) ∧
    (∃ (s : State) (t : _) (l : Fin 4), (s.tick t).lpGone l = true) ∧
    (∃ (s : State), s.blockInReset 0x09 = false) ∧
    (∃ (s : State) (t : _) (k : Fin 256), (s.tick t).aeReady k = true ∧ s.pairMode = false ∧ s.graph = none ∧ fld (s.aeCfg k) 31 8 = 0) ∧
    (∃ (s : State) (t : _) (k : Fin 256) (sg : _) (x : _), sg = s.lpDir (fld (s.aeCfg k) 2 1) (fld (s.aeCfg k) 4 3) ∧ x = s.aeX k + w48 (sg * fld (s.aeCfg k) 31 8 * 65536) ∧ (s.tick t).aeReady k = true ∧ s.pairMode = false ∧ s.graph = none ∧ fld (s.aeCfg k) 31 8 ≠ 0 ∧ 0 ≤ sg * (x - s.lpk (fld (s.aeCfg k) 2 1)).toInt) :=
  ⟨⟨({ (poke (live) [(R.qe_QCFG 2, 0x101), (R.qe_MOD_M1 2, 3999), (R.sinClass_FDCFG 6, 0x0A05), (R.cmp_CMPCFG 4, 0x9), (R.cmp_CMPCFG 5, 0x9), (R.cmp_CMPCFG 6, 0x9)] : State) with lp := { cmps := [(4, { list := [(0x10000, 0)], judged := true }), (5, { list := [(0x20000, 0)], judged := true }), (6, { list := [(0, 0), (0x10000, 0)], judged := true, reached := true })] } }), 2, false, true, by decide +kernel⟩,
    ⟨(poke (live) [(R.qe_QCFG 2, 0x101), (R.qe_MOD_M1 2, 3999), (R.sinClass_FDCFG 6, 0x0A05)]), 2, by decide +kernel⟩,
    ⟨(poke (live) [(R.qe_QCFG 2, 0x101), (R.qe_POS 2, 55)]), 2, by decide +kernel⟩,
    ⟨(poke (live) [(R.qe_QCFG 2, 0x501), (R.qe_QSTAT 2, 0)]), by decide +kernel⟩,
    ⟨live, .host, 2, by decide +kernel⟩,
    ⟨(poke (live) [(R.lpSrc_LPCFG 1, 0x301), (R.STATUS (P.qe 3), 8), (R.lpSrc_LPVEL_LO 1, 5)]), 0, 1, by decide +kernel⟩,
    ⟨live, by decide +kernel⟩,
    ⟨({ (poke (live) [(R.ae_AECFG 0 5, 0), (R.ae_AESTAT 0 5, 1)] : State) with lp := { aes := [(5, { due := true })] } }), 0, 5, by decide +kernel⟩,
    ⟨({ (poke (live) [(R.ae_AECFG 0 5, 0xA03), (R.ae_AESTAT 0 5, 1), (R.lpSrc_LPCFG 1, 3), (R.lpSrc_LPVEL_LO 1, 100)] : State) with lp := { aes := [(5, { due := true })] } }), 0, 5, _, _, rfl, rfl, by decide +kernel⟩⟩

/-- Inputs that meet the hypotheses of CompareCommands, clause by clause. -/
theorem witness_CompareCommands :
    (∃ (s : State) (m : _) (c : Fin 8), s.takes m (R.cmp_PUSH_HI c) = true ∧ (s.cmp c).list.length < 256 ∧ bit (s.cmpCfg c) 0 = false ∧ s.cmpMod c = false) ∧
    (∃ (s : State) (m : _) (c : Fin 8), s.takes m (R.cmp_PUSH_HI c) = true ∧ 256 ≤ (s.cmp c).list.length) ∧
    (∃ (s : State) (m : _) (c : Fin 8), s.takes m (R.cmp_CMD c) = true) ∧
    (∃ (s : State) (m : _) (c : Fin 8), s.takes m (R.cmp_CMD c) = true) ∧
    (∃ (s : State) (t : _) (c : Fin 8) (e : _), (s.tick t).cmpDue c = true ∧ (s.cmp c).list = [e] ∧ (bit (s.cmpCfg c) 6 && s.cmpMod c) = false ∧ (s.cmp c).pulse = none) ∧
    (∃ (s : State) (t : _) (c : Fin 8) (e : _), (s.cmp c).pulse = some e ∧ e ≤ (s.tick t).now) :=
  ⟨⟨live, .host, 4, by decide +kernel⟩,
    ⟨({ (live : State) with lp := { cmps := [(4, { list := List.replicate 256 (1, 1) })] } }), .host, 4, by decide +kernel⟩,
    ⟨({ (live : State) with lp := { cmps := [(4, { list := [(0x50000, 3)], reached := true })] } }), .host, 4, by decide +kernel⟩,
    ⟨({ (live : State) with lp := { cmps := [(4, { list := [(0x50000, 3)], reached := true })] } }), .host, 4, by decide +kernel⟩,
    ⟨({ (poke (live) [(R.cmp_CMPCFG 4, 1), (R.cmp_CSTAT 4, 1)] : State) with lp := { cmps := [(4, { list := [(0x50000, 3)], reached := true })] } }), 0, 4, ((0x50000, 3)), by decide +kernel⟩,
    ⟨({ (live : State) with lp := { cmps := [(4, { pulse := some 5 })] } }), 0, 4, 5, by decide +kernel⟩⟩

/-- Inputs that meet the hypotheses of TriggerCommands, clause by clause. -/
theorem witness_TriggerCommands :
    (∃ (s : State) (m : _) (k : Fin 16), s.takes m (R.geyTrig_TCMD k) = true ∧ s.tState k = 0) ∧
    (∃ (s : State) (m : _) (k : Fin 16), s.takes m (R.geyTrig_TCMD k) = true ∧ s.tState k ≠ 0 ∧ s.tFillDone k = false ∧ s.tCaptured k = false) ∧
    (∃ (s : State) (m : _) (k : Fin 16), s.takes m (R.geyTrig_TCMD k) = true ∧ (s.tState k = 4 ∨ s.tCaptured k = true)) ∧
    (∃ (s : State) (m : _) (k : Fin 16), s.takes m (R.geyTrig_TCMD k) = true ∧ s.tState k ≠ 4 ∧ s.tFillDone k = false ∧ s.tCaptured k = false) ∧
    (∃ (s : State) (m : _) (k : Fin 16), s.takes m (R.geyTrig_TCMD k) = true ∧ s.tFillDone k = false ∧ s.tCaptured k = false) ∧
    (∃ (s : State) (m : _) (k : Fin 16), s.takes m (R.geyTrig_TCMD k) = true ∧ s.tFillDone k = true) ∧
    (∃ (s : State) (m : _) (k : Fin 16), s.takes m (R.geyTrig_TCMD k) = true ∧ s.tCaptured k = true) ∧
    (∃ (s : State) (m : _) (k : Fin 16) (i : _), i = ((s.gtrig k).idx + 2 * s.tLen k - 1) % s.tLen k ∧ s.takes m (R.geyTrig_TCMD k) = true ∧ (s.tState k = 2 ∨ s.tFillDone k = true) ∧ s.tPre k < (s.gtrig k).fill ∧ s.eccAt (s.tWord k i) = .good) ∧
    (∃ (s : State) (m : _) (k : Fin 16), s.takes m (R.geyTrig_TCMD k) = true ∧ (s.tState k = 2 ∨ s.tFillDone k = true) ∧ (s.gtrig k).fill ≤ s.tPre k) ∧
    (∃ (s : State) (m : _) (k : Fin 16), s.takes m (R.geyTrig_TCMD k) = true ∧ s.tState k ≠ 2 ∧ s.tFillDone k = false ∧ s.tCaptured k = false) ∧
    (∃ (s : State) (k : Fin 16), s.tState k = 1 ∧ s.tPre k ≤ (s.gtrig k).fill) ∧
    (∃ (s : State) (k : Fin 16), s.tFillDone k = false) ∧
    (∃ (s : State) (k : Fin 16), s.tState k = 3 ∧ (s.gtrig k).post = 0 ∧ (s.gtrig k).onNext = false) ∧
    (∃ (s : State) (k : Fin 16), s.tCaptured k = false) ∧
    (∃ (s : State) (k : Fin 16) (i : _), i = ((s.gtrig k).idx + 2 * s.tLen k - 1) % s.tLen k ∧ s.tState k = 2 ∧ s.f (R.geyTrig_TCFG k) 14 13 = 2 ∧ (s.gtrig k).armed + s.f (R.geyTrig_TMO k) 15 0 ≤ s.cycle ∧ s.tPre k < (s.gtrig k).fill ∧ s.eccAt (s.tWord k i) = .good) ∧
    (∃ (s : State) (k : Fin 16), s.tState k = 2 ∧ s.f (R.geyTrig_TCFG k) 14 13 = 2 ∧ (s.gtrig k).armed + s.f (R.geyTrig_TMO k) 15 0 ≤ s.cycle ∧ (s.gtrig k).fill ≤ s.tPre k) ∧
    (∃ (s : State) (k : Fin 16), (¬(s.tState k = 2 ∧ s.f (R.geyTrig_TCFG k) 14 13 = 2 ∧ (s.gtrig k).armed + s.f (R.geyTrig_TMO k) 15 0 ≤ s.cycle))) :=
  ⟨⟨({ (poke (live) [(R.geyTrig_TSTAT 5, 0), (R.geyTrig_PREPOST 5, 0x30002), (R.geyTrig_SNAP 5, 4)] : State) with gey := { trigs := [(5, {  })] } }), .host, 5, by decide +kernel⟩,
    ⟨({ (poke (live) [(R.geyTrig_TSTAT 5, 1), (R.geyTrig_PREPOST 5, 0x30002), (R.geyTrig_SNAP 5, 4)] : State) with gey := { trigs := [(5, {  })] } }), .host, 5, by decide +kernel⟩,
    ⟨({ (poke (live) [(R.geyTrig_TSTAT 5, 0x104), (R.geyTrig_PREPOST 5, 0x30002), (R.geyTrig_SNAP 5, 4)] : State) with gey := { trigs := [(5, {  })] } }), .host, 5, by decide +kernel⟩,
    ⟨({ (poke (live) [(R.geyTrig_TSTAT 5, 2), (R.geyTrig_PREPOST 5, 0x30002), (R.geyTrig_SNAP 5, 4)] : State) with gey := { trigs := [(5, {  })] } }), .host, 5, by decide +kernel⟩,
    ⟨({ (poke (live) [(R.geyTrig_TSTAT 5, 2), (R.geyTrig_PREPOST 5, 0x30002), (R.geyTrig_SNAP 5, 4)] : State) with gey := { trigs := [(5, {  })] } }), .host, 5, by decide +kernel⟩,
    ⟨({ (poke (live) [(R.geyTrig_TSTAT 5, 1), (R.geyTrig_PREPOST 5, 0x30002), (R.geyTrig_SNAP 5, 4)] : State) with gey := { trigs := [(5, { fill := 3 })] } }), .host, 5, by decide +kernel⟩,
    ⟨({ (poke (live) [(R.geyTrig_TSTAT 5, 3), (R.geyTrig_PREPOST 5, 0x30002), (R.geyTrig_SNAP 5, 4)] : State) with gey := { trigs := [(5, {  })] } }), .host, 5, by decide +kernel⟩,
    ⟨({ (poke (live) [(R.geyTrig_TSTAT 5, 2), (R.geyTrig_PREPOST 5, 0x30002), (R.geyTrig_SNAP 5, 4)] : State) with gey := { trigs := [(5, { fill := 3, idx := 2, lastT := 9 })] } }), .host, 5, _, rfl, by decide +kernel⟩,
    ⟨({ (poke (live) [(R.geyTrig_TSTAT 5, 2), (R.geyTrig_PREPOST 5, 0x30002), (R.geyTrig_SNAP 5, 4)] : State) with gey := { trigs := [(5, { fill := 2, idx := 2, lastT := 9 })] } }), .host, 5, by decide +kernel⟩,
    ⟨({ (poke (live) [(R.geyTrig_TSTAT 5, 0), (R.geyTrig_PREPOST 5, 0x30002), (R.geyTrig_SNAP 5, 4)] : State) with gey := { trigs := [(5, {  })] } }), .host, 5, by decide +kernel⟩,
    ⟨({ (poke (live) [(R.geyTrig_TSTAT 5, 1), (R.geyTrig_PREPOST 5, 0x30002), (R.geyTrig_SNAP 5, 4)] : State) with gey := { trigs := [(5, { fill := 3, idx := 2 })] } }), 5, by decide +kernel⟩,
    ⟨({ (poke (live) [(R.geyTrig_TSTAT 5, 1), (R.geyTrig_PREPOST 5, 0x30002), (R.geyTrig_SNAP 5, 4)] : State) with gey := { trigs := [(5, { fill := 1 })] } }), 5, by decide +kernel⟩,
    ⟨({ (poke (live) [(R.geyTrig_TSTAT 5, 3), (R.geyTrig_PREPOST 5, 0x30002), (R.geyTrig_SNAP 5, 4)] : State) with gey := { trigs := [(5, {  })] } }), 5, by decide +kernel⟩,
    ⟨({ (poke (live) [(R.geyTrig_TSTAT 5, 3), (R.geyTrig_PREPOST 5, 0x30002), (R.geyTrig_SNAP 5, 4)] : State) with gey := { trigs := [(5, { post := 1 })] } }), 5, by decide +kernel⟩,
    ⟨({ (poke (live) [(R.geyTrig_TSTAT 5, 2), (R.geyTrig_PREPOST 5, 0x30002), (R.geyTrig_SNAP 5, 4), (R.geyTrig_TCFG 5, 0x4000), (R.geyTrig_TMO 5, 3), (R.chip_CYCLE_LO, 9)] : State) with gey := { trigs := [(5, { fill := 3, idx := 0, armed := 2 })] } }), 5, _, rfl, by decide +kernel⟩,
    ⟨({ (poke (live) [(R.geyTrig_TSTAT 5, 2), (R.geyTrig_PREPOST 5, 0x30002), (R.geyTrig_SNAP 5, 4), (R.geyTrig_TCFG 5, 0x4000), (R.geyTrig_TMO 5, 3), (R.chip_CYCLE_LO, 9)] : State) with gey := { trigs := [(5, { fill := 2, idx := 0, armed := 2 })] } }), 5, by decide +kernel⟩,
    ⟨({ (poke (live) [(R.geyTrig_TSTAT 5, 2), (R.geyTrig_PREPOST 5, 0x30002), (R.geyTrig_SNAP 5, 4), (R.geyTrig_TCFG 5, 0x4000), (R.geyTrig_TMO 5, 3), (R.chip_CYCLE_LO, 9)] : State) with gey := { trigs := [(5, { fill := 2, idx := 0, armed := 8 })] } }), 5, by decide +kernel⟩⟩

/-- Inputs that meet the hypotheses of AcquisitionCommands, clause by clause. -/
theorem witness_AcquisitionCommands :
    (∃ (s : State) (c : Fin 256) (v : GeyIval) (r : _), s.gEn c = true ∧ (s.gch c).ivals = v :: r ∧ s.gState c ≠ 1 ∧ s.gState c ≠ 2) ∧
    (∃ (s : State) (c : Fin 256), (s.gEn c = false ∨ (s.gch c).ivals = [])) ∧
    (∃ (s : State) (c : Fin 256) (v : GeyIval) (r : _), s.gEn c = true ∧ (s.gch c).ivals = v :: r ∧ (s.gState c = 1 ∨ s.gState c = 2) ∧ 0 < s.gSg c * (s.gPoint c (s.gch c).j - v.est.at v.est.tn).toInt) ∧
    (∃ (s : State) (c : Fin 256) (v : GeyIval) (r : _), s.gEn c = true ∧ (s.gch c).ivals = v :: r ∧ (s.gState c = 1 ∨ s.gState c = 2)) ∧
    (∃ (s : State) (c : _) (v : GeyIval), 0 < s.gSg c * (s.gPoint c (s.gch c).j - v.est.at v.est.tn).toInt) ∧
    (∃ (s : State) (c : Fin 256) (b : GeyBlk) (r : _), (s.gch c).closed = b :: r ∧ s.ringPending (s.f (gMode c) 26 24) + (s.gring (s.f (gMode c) 26 24)).writing.length < s.ringLen (s.f (gMode c) 26 24)) ∧
    (∃ (s : State) (c : Fin 256) (b : GeyBlk) (r : _), (s.gch c).closed = b :: r ∧ s.ringLen (s.f (gMode c) 26 24) ≤ s.ringPending (s.f (gMode c) 26 24) + (s.gring (s.f (gMode c) 26 24)).writing.length) ∧
    (∃ (s : State) (c : Fin 256), (s.gch c).closed = []) ∧
    (∃ (s : State) (r : Fin 8), (s.gring r).writing = []) ∧
    (∃ (s : State) (r : Fin 8) (b : List Byte) (l : _), (s.gring r).writing = b :: l ∧ b.length = 64) ∧
    (∃ (s : State) (m : _) (r : Fin 8), s.takes m (R.geyCommon_RING_RD r) = true) ∧
    (∃ (s : State) (m : _), s.takes m (R.CTRL P.geyCommon) = true) :=
  ⟨⟨({ (poke (live) [(R.geyChan_MODE 1 6, 3), (R.geyChan_CHSTAT 1 6, 3)] : State) with gey := { chans := [(70, { ivals := [{ x0 := 1, x1 := 2, gap := false, est := { live := false, lpk := 0, lam := 0, tl := 0, v := 0, a := 0, tk := 0, tn := 125000 } }] })], rings := [] } }), 70, ({ x0 := 1, x1 := 2, gap := false, est := { live := false, lpk := 0, lam := 0, tl := 0, v := 0, a := 0, tk := 0, tn := 125000 } }), ([]), by decide +kernel⟩,
    ⟨live, 70, by decide +kernel⟩,
    ⟨({ (poke (live) [(R.geyChan_MODE 1 6, 3), (R.geyChan_CHSTAT 1 6, 1), (R.geyChan_REV_LO 1 6, 0x100000)] : State) with gey := { chans := [(70, { ivals := [{ x0 := 1, x1 := 2, gap := false, est := { live := false, lpk := 0, lam := 0, tl := 0, v := 0, a := 0, tk := 0, tn := 125000 } }], j := 5 })], rings := [] } }), 70, ({ x0 := 1, x1 := 2, gap := false, est := { live := false, lpk := 0, lam := 0, tl := 0, v := 0, a := 0, tk := 0, tn := 125000 } }), ([]), by decide +kernel⟩,
    ⟨({ (poke (live) [(R.geyChan_MODE 1 6, 3), (R.geyChan_CHSTAT 1 6, 1), (R.geyChan_REV_LO 1 6, 0x100000)] : State) with gey := { chans := [(70, { ivals := [{ x0 := 1, x1 := 2, gap := false, est := { live := false, lpk := 0, lam := 0, tl := 0, v := 0, a := 0, tk := 0, tn := 125000 } }], j := 5 })], rings := [] } }), 70, ({ x0 := 1, x1 := 2, gap := false, est := { live := false, lpk := 0, lam := 0, tl := 0, v := 0, a := 0, tk := 0, tn := 125000 } }), ([]), by decide +kernel⟩,
    ⟨({ (poke (live) [(R.geyChan_MODE 1 6, 3), (R.geyChan_CHSTAT 1 6, 1), (R.geyChan_REV_LO 1 6, 0x100000)] : State) with gey := { chans := [(70, { ivals := [{ x0 := 1, x1 := 2, gap := false, est := { live := false, lpk := 0, lam := 0, tl := 0, v := 0, a := 0, tk := 0, tn := 125000 } }], j := 5 })], rings := [] } }), 70, ({ x0 := 1, x1 := 2, gap := false, est := { live := false, lpk := 0, lam := 0, tl := 0, v := 0, a := 0, tk := 0, tn := 125000 } }), by decide +kernel⟩,
    ⟨({ (poke (live) [(R.geyChan_MODE 1 6, 0x2000001), (R.geyCommon_RING_CFG 2, 6), (R.geyTrig_TCFG 0, 0xFF), (R.geyTrig_TCFG 1, 0xFF), (R.geyTrig_TCFG 2, 0xFF), (R.geyTrig_TCFG 3, 0xFF), (R.geyTrig_TCFG 4, 0xFF), (R.geyTrig_TCFG 5, 0xFF), (R.geyTrig_TCFG 6, 0xFF), (R.geyTrig_TCFG 7, 0xFF), (R.geyTrig_TCFG 8, 0xFF), (R.geyTrig_TCFG 9, 0xFF), (R.geyTrig_TCFG 10, 0xFF), (R.geyTrig_TCFG 11, 0xFF), (R.geyTrig_TCFG 12, 0xFF), (R.geyTrig_TCFG 13, 0xFF), (R.geyTrig_TCFG 14, 0xFF), (R.geyTrig_TCFG 15, 0xFF)] : State) with gey := { chans := [(70, { closed := [{ count := 4, sum := 10, tStart := 77 }] })], rings := [] } }), 70, ({ count := 4, sum := 10, tStart := 77 }), ([]), by decide +kernel⟩,
    ⟨({ (poke (live) [(R.geyChan_MODE 1 6, 0x2000001), (R.geyCommon_RING_CFG 2, 6), (R.geyCommon_RING_WR 2, 64), (R.geyTrig_TCFG 0, 0xFF), (R.geyTrig_TCFG 1, 0xFF), (R.geyTrig_TCFG 2, 0xFF), (R.geyTrig_TCFG 3, 0xFF), (R.geyTrig_TCFG 4, 0xFF), (R.geyTrig_TCFG 5, 0xFF), (R.geyTrig_TCFG 6, 0xFF), (R.geyTrig_TCFG 7, 0xFF), (R.geyTrig_TCFG 8, 0xFF), (R.geyTrig_TCFG 9, 0xFF), (R.geyTrig_TCFG 10, 0xFF), (R.geyTrig_TCFG 11, 0xFF), (R.geyTrig_TCFG 12, 0xFF), (R.geyTrig_TCFG 13, 0xFF), (R.geyTrig_TCFG 14, 0xFF), (R.geyTrig_TCFG 15, 0xFF)] : State) with gey := { chans := [(70, { closed := [{ count := 4, sum := 10, tStart := 77 }] })], rings := [] } }), 70, ({ count := 4, sum := 10, tStart := 77 }), ([]), by decide +kernel⟩,
    ⟨live, 70, by decide +kernel⟩,
    ⟨live, 2, by decide +kernel⟩,
    ⟨({ (poke (live) [(R.geyCommon_RING_CFG 2, 6), (R.geyCommon_RING_WR 2, 3)] : State) with gey := { chans := [(70, { })], rings := [(2, { writing := [List.replicate 64 7] })] } }), 2, (List.replicate 64 7), ([]), by decide +kernel⟩,
    ⟨live, .host, 2, by decide +kernel⟩,
    ⟨(poke (live) [(R.geyCommon_RING_DROP 1, 7)]), .host, by decide +kernel⟩⟩

/-- Inputs that meet the hypotheses of FieldCommands, clause by clause. -/
theorem witness_FieldCommands :
    (∃ (s : State) (w : WindowWriter) (b : Fin 8), (s.brEn b = true ∧ s.blockInReset b = false) ∧ (∀ m, w = .other m → s.barOpen m = true ∧ s.pairDiscards m = false)) ∧
    (∃ (s : State) (b : Fin 8), (s.brEn b = false ∨ s.blockInReset b = true)) ∧
    (∃ (s : State) (t : _) (b : Fin 8) (sl : Fin 24), s.pointerRuns b = true ∧ sl.val < s.nSlots b ∧ (s.slot b sl).past s.cycle = false ∧ s.at4 (s.release4 b sl - 128) ≤ (s.tick t).now) ∧
    (∃ (s : State) (t : _) (b : Fin 8) (sl : Fin 24), s.pointerRuns b = true ∧ sl.val < s.nSlots b ∧ (s.slot b sl).past s.cycle = true ∧ (s.slot b sl).released = false ∧ s.at4 (s.release4 b sl) ≤ (s.tick t).now) :=
  ⟨⟨((branchAs 2 {  } 4 [(R.axis_CFG 3, 0x80000A00)])), (.other .host), 2, by decide +kernel, by intro m h; cases h; decide +kernel⟩,
    ⟨live, 2, by decide +kernel⟩,
    ⟨((branchAs 2 { slots := [(1, { even := [(0, some (7, 3)), (1, some (8, 3))], odd := [(0, some (1, 2)), (1, some (2, 2))] })] } 4 [(R.axis_CFG 3, 0x80000A00)])), 0, 2, 1, by decide +kernel⟩,
    ⟨((branchAs 2 { slots := [(1, { reached := some 9, formed := [4, 1, 2], listen := 3 })] } 4 [])), 0, 2, 1, by decide +kernel⟩⟩

/-- Inputs that meet the hypotheses of SlotFrames, clause by clause. -/
theorem witness_SlotFrames :
    (∃ (s : State) (b : Fin 8) (f : SlotFrame) (sl : _), s.driven b = true ∧ s.windowSlot b f = some sl ∧ f.efd ≤ s.slotEnd b sl ∧ f.fin = .good ∧ s.frameFits b sl f = true ∧ s.shutOut b sl = false ∧ (s.slot b sl).accepted = false) ∧
    (∃ (s : State) (b : Fin 8) (f : SlotFrame) (sl : _), (s.driven b = true ∧ s.windowSlot b f = some sl ∧ f.efd ≤ s.slotEnd b sl ∧ f.fin = .good ∧ s.frameFits b sl f = true ∧ s.shutOut b sl = false ∧ (s.slot b sl).accepted = false ∧ s.boundAxes b sl = [] ∧ s.gChans = [] ∧ s.arcsOf 1 (b * 32 + sl) = [] ∧ s.slotOff b sl % 8 = 0) ∧ (∀ x, cellMemAddr (s.branchCell b) (s.slotOff b sl) ≤ x → x < cellMemAddr (s.branchCell b) (s.slotOff b sl) + 8 * f.words.length → s.phys x = some x)) ∧
    (∃ (s : State) (b : Fin 8) (f : SlotFrame) (sl : _), (s.driven b || decide (s.bstate b = 7)) = true ∧ s.windowSlot b f = some sl ∧ f.efd ≤ s.slotEnd b sl ∧ f.fin = .badCheck) ∧
    (∃ (s : State) (b : Fin 8) (f : SlotFrame) (sl : _), (s.driven b || decide (s.bstate b = 7)) = true ∧ s.windowSlot b f = some sl ∧ f.efd ≤ s.slotEnd b sl ∧ (f.fin = .aborted ∨ f.fin = .cut)) ∧
    (∃ (s : State) (b : Fin 8) (f : SlotFrame) (sl : _), (s.driven b || decide (s.bstate b = 7)) = true ∧ s.windowSlot b f = none ∧ s.namedSlot b f = some sl) ∧
    (∃ (s : State) (b : Fin 8) (f : SlotFrame) (sl : _), (s.driven b || decide (s.bstate b = 7)) = true ∧ s.windowSlot b f = some sl ∧ f.efd ≤ s.slotEnd b sl ∧ f.fin = .good ∧ s.frameFits b sl f = false) ∧
    (∃ (s : State) (b : Fin 8) (f : SlotFrame), (s.driven b || decide (s.bstate b = 7)) = true ∧ s.windowSlot b f = none ∧ s.namedSlot b f = none) ∧
    (∃ (s : State) (b : Fin 8), s.driven b = false ∧ s.bstate b ≠ 7) ∧
    (∃ (s : State) (t : _) (b : Fin 8) (sl : Fin 24), (s.driven b || decide (s.bstate b = 7)) = true ∧ sl.val < s.nSlots b ∧ s.slotEnd b sl ≤ (s.tick t).now) ∧
    (∃ (s : State) (t : _) (b : Fin 8) (sl : Fin 24), (s.driven b || decide (s.bstate b = 7)) = true ∧ sl.val < s.nSlots b ∧ (s.slot b sl).sfdSeen = false ∧ (s.slot b sl).closed = false ∧ s.at4 (s.arrival4 b sl + 4 * s.guardNs b) < (s.tick t).now) ∧
    (∃ (s : State) (b : Fin 8), s.brEn b = true ∧ s.bstate b ≠ 0 ∧ s.bstate b ≠ 8 ∧ (s.branch b).portFault = false ∧ (s.fdCh 1 b).perm = false ∧ (s.fdCh 1 b).lastGood = false ∧ (s.fdCh 1 b).level + 1 < s.fdLimit 1) :=
  ⟨⟨((branchAs 2 {  } 4 [])), 2, (slotFrame .good), 1, by decide +kernel⟩,
    ⟨((branchAs 2 {  } 4 [])), 2, (slotFrame .good), 1, by decide +kernel, by intro x; intros; exact phys_id (by decide +kernel) x⟩,
    ⟨((branchAs 2 {  } 4 [])), 2, (slotFrame .badCheck), 1, by decide +kernel⟩,
    ⟨((branchAs 2 {  } 4 [])), 2, (slotFrame .aborted), 1, by decide +kernel⟩,
    ⟨((branchAs 2 {  } 4 [])), 2, ({ slotFrame .good with sfd := 5 }), 1, by decide +kernel⟩,
    ⟨((branchAs 2 {  } 4 [])), 2, (slotFrame .good 0x00090020), 1, by decide +kernel⟩,
    ⟨((branchAs 2 {  } 4 [])), 2, ({ slotFrame .good 0x0009003F with sfd := 5 }), by decide +kernel⟩,
    ⟨((branchAs 6 {  } 4 [])), 2, by decide +kernel⟩,
    ⟨((branchAs 2 {  } 4 [])), 0, 2, 1, by decide +kernel⟩,
    ⟨((branchAs 2 {  } 4 [])), 0, 2, 1, by decide +kernel⟩,
    ⟨((branchAs 2 {  } 4 [(R.sinClass_FDCFG 1, 0x0A05)])), 2, by decide +kernel⟩⟩

/-- Inputs that meet the hypotheses of BranchStates, clause by clause. -/
theorem witness_BranchStates :
    (∃ (s : State) (b : Fin 8), s.bstate b = 1 ∧ (s.branch b).attemptCycle < s.nextCycle ∧ s.cycle = (s.branch b).attemptCycle ∧ s.sideB = true) ∧
    (∃ (s : State) (b : Fin 8), s.bstate b = 1 ∧ (s.branch b).attemptCycle < s.nextCycle ∧ (s.cycle = (s.branch b).attemptCycle → s.sideB = false)) ∧
    (∃ (s : State) (b : Fin 8), s.bstate b = 1 ∧ s.nextCycle ≤ (s.branch b).attemptCycle) ∧
    (∃ (s : State) (b : Fin 8), (s.bstate b = 2 ∨ s.bstate b = 7)) ∧
    (∃ (s : State) (b : Fin 8), s.bstate b = 3) ∧
    (∃ (s : State) (b : Fin 8), s.bstate b = 1 ∧ (s.branch b).attemptCycle + 2 ≤ s.cycle ∧ (s.sideB || !(s.branch b).foreign1 || !(s.branch b).foreign2) = true) ∧
    (∃ (s : State) (b : Fin 8), s.bstate b = 1 ∧ (s.branch b).attemptCycle + 2 ≤ s.cycle ∧ s.sideB = false ∧ (s.branch b).foreign1 = true ∧ (s.branch b).foreign2 = true) ∧
    (∃ (s : State) (b : Fin 8), s.bstate b = 3 ∧ (s.branch b).lastForeign + 3 ≤ s.cycle ∧ s.f (R.nodeTable_BSTATE b) 5 4 < 2) ∧
    (∃ (s : State) (b : Fin 8), s.bstate b = 3 ∧ (s.branch b).lastForeign + 3 ≤ s.cycle ∧ s.f (R.nodeTable_BSTATE b) 5 4 = 2) ∧
    (∃ (s : State) (b : Fin 8), s.bstate b = 4 ∧ (s.branch b).backoffUntil ≤ s.cycle ∧ s.txEnabled = true) ∧
    (∃ (s : State) (b : Fin 8), s.bstate b = 4 ∧ (s.branch b).backoffUntil ≤ s.cycle ∧ s.txEnabled = false) :=
  ⟨⟨({ ((branchAs 1 { attemptCycle := 9 } 4 [(R.fuse_STRAPS, 0)]) : State) with firstCycle := false }), 2, by decide +kernel⟩,
    ⟨({ ((branchAs 1 { attemptCycle := 8 } 4 []) : State) with firstCycle := false }), 2, by decide +kernel⟩,
    ⟨((branchAs 1 { attemptCycle := 10 } 4 [])), 2, by decide +kernel⟩,
    ⟨((branchAs 2 {  } 4 [])), 2, by decide +kernel⟩,
    ⟨((branchAs 3 {  } 4 [])), 2, by decide +kernel⟩,
    ⟨((branchAs 1 { attemptCycle := 7 } 4 [])), 2, by decide +kernel⟩,
    ⟨((branchAs 1 { attemptCycle := 7, foreign1 := true, foreign2 := true } 4 [(R.fuse_STRAPS, 16)])), 2, by decide +kernel⟩,
    ⟨((branchAs 3 { lastForeign := 6 } 4 [(R.chip_SERIAL_LO, 0xABC)])), 2, by decide +kernel⟩,
    ⟨((branchAs 35 { lastForeign := 6 } 4 [])), 2, by decide +kernel⟩,
    ⟨({ (branchAs 4 { foreign1 := true } 4 []) with pair := { claim := true, intlkHigh := false } }), 2, by decide +kernel⟩,
    ⟨((branchAs 4 {  } 4 [])), 2, by decide +kernel⟩⟩

/-- Inputs that meet the hypotheses of NodeSupervision, clause by clause. -/
theorem witness_NodeSupervision :
    (∃ (s : State) (b : Fin 8) (h : Fin 24), s.nodeState b h = 4 ∧ 3 ≤ (s.hop b h).consec) ∧
    (∃ (s : State) (b : Fin 8) (h : Fin 24), s.nodeState b h = 5 ∧ 256 ≤ (s.hop b h).clean) ∧
    (∃ (s : State) (b : Fin 8) (h : Fin 24), (s.nodeState b h = 4 ∨ s.nodeState b h = 5) ∧ 8 ≤ ones (s.hop b h).hist) ∧
    (∃ (s : State) (b : Fin 8) (h : Fin 24), s.nodeState b h = 3 ∧ (s.hop b h).joinFrom + 4 < s.cycle) ∧
    (∃ (s : State) (m : _), s.takes m (R.CTRL P.crater) = true) ∧
    (∃ (s : State) (m : _) (b : Fin 8), s.takes m (R.CTRL (P.branch b)) = true) ∧
    (∃ (s : State) (m : _) (b : Fin 8), s.takes m (R.CTRL (P.nodeTable b)) = true) :=
  ⟨⟨((branchAs 2 { hops := [(1, { consec := 3 })] } 4 [(R.nodeTable_NODE_STATE 2 1, 0x214)])), 2, 1, by decide +kernel⟩,
    ⟨((branchAs 2 { hops := [(1, { clean := 256 })] } 5 [])), 2, 1, by decide +kernel⟩,
    ⟨((branchAs 2 { hops := [(1, { hist := 0xFF })] } 5 [])), 2, 1, by decide +kernel⟩,
    ⟨((branchAs 2 { hops := [(1, { joinFrom := 3 })] } 3 [])), 2, 1, by decide +kernel⟩,
    ⟨((branchAs 2 {  } 4 [(R.crater_MISS_TOT, 7)])), .host, by decide +kernel⟩,
    ⟨((branchAs 2 {  } 4 [(R.branch_CNT_ERR 2, 7), (R.branch_DQ_STAT 2, 0x50003)])), .host, 2, by decide +kernel⟩,
    ⟨((branchAs 2 {  } 4 [(R.nodeTable_CNT 2, 7)])), .host, 2, by decide +kernel⟩⟩

/-- Inputs that meet the hypotheses of MessageCommands, clause by clause. -/
theorem witness_MessageCommands :
    (∃ (s : State) (b : Fin 8) (f : Fragment) (i : Nat) (g : Grant), (s.sending b = true ∧ f.fin = .good ∧ (s.branch b).grants[i]? = some g ∧ g.done = false ∧ g.slot = f.node.toNat ∧ g.frag = f.frag.toNat ∧ g.integ = false ∧ s.grantFits b g f.sfd f.efd = true ∧ f.last = false ∧ (s.slot b f.node.toNat).reSeq = some f.seq.toNat ∧ (s.slot b f.node.toNat).reLast = none) ∧ (∀ j h, j < i → (s.branch b).grants[j]? = some h → h.slot = f.node.toNat → h.frag = f.frag.toNat → h.done = true ∨ s.grantFits b h f.sfd f.efd = false)) ∧
    (∃ (s : State) (b : Fin 8) (f : Fragment) (i : Nat) (g : Grant) (buf : _), (s.sending b = true ∧ f.fin = .good ∧ (s.branch b).grants[i]? = some g ∧ g.done = false ∧ g.slot = f.node.toNat ∧ g.frag = f.frag.toNat ∧ g.integ = false ∧ s.grantFits b g f.sfd f.efd = true ∧ f.frag = 0 ∧ f.last = true ∧ f.data ≠ [] ∧ s.freeRx b = some buf) ∧ (∀ j h, j < i → (s.branch b).grants[j]? = some h → h.slot = f.node.toNat → h.frag = f.frag.toNat → h.done = true ∨ s.grantFits b h f.sfd f.efd = false)) ∧
    (∃ (s : State) (b : Fin 8) (f : Fragment), s.sending b = true ∧ (f.fin = .aborted ∨ f.fin = .cut)) ∧
    (∃ (s : State) (b : Fin 8) (f : Fragment), s.sending b = true ∧ f.fin = .badCheck) ∧
    (∃ (s : State) (t : _) (b : Fin 8) (i : Fin 16) (g : Grant) (h : _), (s.branch b).grants[i.val]? = some g ∧ g.done = false ∧ s.tau + nsT (s.miniNs b (g.start + g.run)) ≤ (s.tick t).now ∧ s.hopOf b g.slot = some h ∧ g.integ = false ∧ (s.fdCh 0 (nodeCh b h)).perm = false ∧ (s.fdCh 0 (nodeCh b h)).lastGood = false ∧ (s.fdCh 0 (nodeCh b h)).level + 1 < s.fdLimit 0 ∧ Tab.get (s.slot b g.slot).tries g.frag 0 < 7) ∧
    (∃ (s : State) (t : _) (b : Fin 8) (i : Fin 16) (g : Grant) (h : _), (s.branch b).grants[i.val]? = some g ∧ g.done = false ∧ s.tau + nsT (s.miniNs b (g.start + g.run)) ≤ (s.tick t).now ∧ s.hopOf b g.slot = some h ∧ g.integ = false ∧ (s.fdCh 0 (nodeCh b h)).perm = false ∧ (s.fdCh 0 (nodeCh b h)).lastGood = false ∧ (s.fdCh 0 (nodeCh b h)).level + 1 < s.fdLimit 0 ∧ Tab.get (s.slot b g.slot).tries g.frag 0 = 7) ∧
    (∃ (s : State) (m : _) (b : Fin 8), s.takes m (R.branch_UQ_POP b) = true) ∧
    (∃ (s : State) (m : _) (b : Fin 8), s.takes m (R.branch_DQ_PUSH b) = true ∧ (s.branch b).txq.length < 16 ∧ 0 < s.f (R.branch_DQ_LEN b) 11 0 ∧ s.f (R.branch_DQ_LEN b) 11 0 ≤ 2048) ∧
    (∃ (s : State) (m : _) (b : Fin 8), s.takes m (R.branch_DQ_PUSH b) = true ∧ (16 ≤ (s.branch b).txq.length ∨ s.f (R.branch_DQ_LEN b) 11 0 = 0 ∨ 2048 < s.f (R.branch_DQ_LEN b) 11 0)) :=
  ⟨⟨((branchAs 2 { grants := [{ slot := 1, frag := 0, start := 0, run := 19, len := 256, integ := false, done := false }], slots := [(1, { reSeq := some 5 })] } 4 [])), 2, ({ sfd := 12 * 10456, efd := 12 * 10500, fin := .good, node := 1, frag := 0, last := false, adm := false, msIdx := 9, seq := 5, data := [1, 2] }), 0, ({ slot := 1, frag := 0, start := 0, run := 19, len := 256, integ := false, done := false }), by decide +kernel, by intro j h hj e; first | exact absurd hj (Nat.not_lt_zero j) | (obtain rfl : j = 0 := (by omega); cases Option.some.inj e; decide +kernel)⟩,
    ⟨((branchAs 2 { grants := [{ slot := 1, frag := 0, start := 0, run := 19, len := 256, integ := false, done := true }, { slot := 1, frag := 0, start := 0, run := 19, len := 256, integ := false, done := false }], rxq := [{ buf := 0, len := 3, slot := 0, ms := 1 }] } 4 [])), 2, ({ sfd := 12 * 10456, efd := 12 * 10500, fin := .good, node := 1, frag := 0, last := true, adm := false, msIdx := 9, seq := 5, data := [1, 2, 3] }), 1, ({ slot := 1, frag := 0, start := 0, run := 19, len := 256, integ := false, done := false }), 1, by decide +kernel, by intro j h hj e; first | exact absurd hj (Nat.not_lt_zero j) | (obtain rfl : j = 0 := (by omega); cases Option.some.inj e; decide +kernel)⟩,
    ⟨((branchAs 2 {  } 4 [])), 2, ({ sfd := 12 * 10456, efd := 12 * 10500, fin := .aborted, node := 1, frag := 0, last := true, adm := false, msIdx := 9, seq := 5, data := [] }), by decide +kernel⟩,
    ⟨((branchAs 2 {  } 4 [])), 2, ({ sfd := 12 * 10456, efd := 12 * 10500, fin := .badCheck, node := 1, frag := 0, last := true, adm := false, msIdx := 9, seq := 5, data := [] }), by decide +kernel⟩,
    ⟨((branchAs 2 { grants := [{ slot := 1, frag := 0, start := 0, run := 19, len := 256, integ := false, done := false }] } 4 [(R.sinClass_FDCFG 0, 0x0A05)])), 0, 2, 0, ({ slot := 1, frag := 0, start := 0, run := 19, len := 256, integ := false, done := false }), 1, by decide +kernel⟩,
    ⟨((branchAs 2 { grants := [{ slot := 1, frag := 0, start := 0, run := 19, len := 256, integ := false, done := false }], slots := [(1, { tries := [(0, 7)] })] } 4 [(R.sinClass_FDCFG 0, 0x0A05)])), 0, 2, 0, ({ slot := 1, frag := 0, start := 0, run := 19, len := 256, integ := false, done := false }), 1, by decide +kernel⟩,
    ⟨((branchAs 2 { rxq := [{ buf := 0, len := 3, slot := 0, ms := 1 }] } 4 [])), .host, 2, by decide +kernel⟩,
    ⟨((branchAs 2 {  } 4 [(R.branch_DQ_LEN 2, 300)])), .host, 2, by decide +kernel⟩,
    ⟨((branchAs 2 {  } 4 [(R.branch_DQ_LEN 2, 0)])), .host, 2, by decide +kernel⟩⟩

/-- Inputs that meet the hypotheses of DynamicSegment, clause by clause. -/
theorem witness_DynamicSegment :
    (∃ (s : State) (t : _) (b : Fin 8), s.sending b = true ∧ (s.branch b).dynDone = false ∧ s.at4 (4 * s.eSum b + (if s.ownFar b then 3200 else 0)) ≤ (s.tick t).now ∧ (s.branch b).ints = [] ∧ (∀ r, (s.branch b).adm = some r → 8 ≤ r.calls ∨ r.resp.isSome ∨ s.cycle < r.next) ∧ (s.branch b).txq = [] ∧ (∀ h, h < 24 → s.nodeState b h ≠ 2)) ∧
    (∃ (s : State) (t : _) (b : Fin 8) (h : _) (h' : _) (n : _) (k : _), s.sending b = true ∧ (s.branch b).dynDone = false ∧ s.at4 (4 * s.eSum b + (if s.ownFar b then 3200 else 0)) ≤ (s.tick t).now ∧ (s.branch b).ints = [] ∧ (s.branch b).adm = some { hop := h, calls := n, resp := none, next := k } ∧ n < 8 ∧ k ≤ s.cycle ∧ s.nextHop b = some h' ∧ (s.branch b).txq = [] ∧ (∀ h, h < 24 → s.nodeState b h ≠ 2) ∧ s.dynFits b (s.eSum b) 10 = true) ∧
    (∃ (s : State) (t : _) (b : Fin 8) (h : _) (n : _) (k : _), s.sending b = true ∧ (s.branch b).dynDone = false ∧ s.at4 (4 * s.eSum b + (if s.ownFar b then 3200 else 0)) ≤ (s.tick t).now ∧ (s.branch b).ints = [] ∧ (s.branch b).adm = some { hop := h, calls := n, resp := none, next := k } ∧ n < 8 ∧ k ≤ s.cycle ∧ s.nextHop b = none ∧ (s.branch b).txq = [] ∧ (∀ h, h < 24 → s.nodeState b h ≠ 2)) ∧
    (∃ (s : State) (t : _) (b : Fin 8) (m : _), s.sending b = true ∧ (s.branch b).dynDone = false ∧ s.at4 (4 * s.eSum b + (if s.ownFar b then 3200 else 0)) ≤ (s.tick t).now ∧ (s.branch b).ints = [] ∧ (s.branch b).adm = none ∧ (s.branch b).txq = [m] ∧ (∀ h, h < 24 → s.nodeState b h ≠ 2) ∧ m.node = 31 ∧ m.frag = 0 ∧ 0 < m.len ∧ m.len ≤ 256 ∧ m.since + nsT 1000 ≤ s.at4 (4 * s.eSum b + (if s.ownFar b then 3200 else 0)) ∧ Tab.get m.sends 0 0 < 8 ∧ s.dynFits b (s.eSum b) m.len = true) :=
  ⟨⟨((branchAs 2 {  } 4 [])), 0, 2, by decide +kernel⟩,
    ⟨((branchAs 2 { adm := some { hop := 1, calls := 3, resp := none, next := 9 } } 4 [(R.nodeTable_NODE_STATE 2 1, 0), (R.nodeTable_EXP_CTL 2 1, 0x01010000)])), 0, 2, 1, 1, 3, 9, by decide +kernel⟩,
    ⟨((branchAs 2 { adm := some { hop := 1, calls := 3, resp := none, next := 9 } } 4 [])), 0, 2, 1, 3, 9, by decide +kernel⟩,
    ⟨((branchAs 2 { txq := [{ buf := 2, node := 31, ms := 4, len := 3, since := 0, order := 0, seq := 6, frag := 0, sends := [], started := false }] } 4 [])), 0, 2, ({ buf := 2, node := 31, ms := 4, len := 3, since := 0, order := 0, seq := 6, frag := 0, sends := [], started := false }), by decide +kernel⟩⟩

/-- Inputs that meet the hypotheses of IntegrationCommands, clause by clause. -/
theorem witness_IntegrationCommands :
    (∃ (s : State) (b : Fin 8), s.bstate b = 2 ∧ s.b (R.nodeTable_NTCFG b) 0 = true ∧ (s.branch b).adm = none ∧ (s.branch b).autoOpened = false ∧ s.cycle = (s.branch b).attemptCycle + 8 ∧ min 8 (s.kUp b) ≤ (s.nms b - s.admW b) / s.miniSlots b 256) ∧
    (∃ (s : State) (b : Fin 8), (s.branch b).runEnd = none ∧ s.cycle ≠ (s.branch b).attemptCycle + 8) ∧
    (∃ (s : State) (m : _) (b : Fin 8), s.takes m (R.nodeTable_NTCMD b) = true ∧ s.bstate b = 2 ∧ (s.branch b).adm = none ∧ min 8 (s.kUp b) ≤ (s.nms b - s.admW b) / s.miniSlots b 256) ∧
    (∃ (s : State) (m : _) (b : Fin 8), s.takes m (R.nodeTable_NTCMD b) = true ∧ s.bstate b = 2 ∧ (s.branch b).adm = none ∧ (s.nms b - s.admW b) / s.miniSlots b 256 < min 8 (s.kUp b)) ∧
    (∃ (s : State) (b : Fin 8) (r : RequestMsg) (h : _) (n : _) (k : _) (a : _), (s.branch b).adm = some { hop := h, calls := n, resp := some (s.cycle, a), next := k } ∧ h < 24 ∧ s.sending b = true ∧ r.good = true ∧ s.tau + nsT (s.admStart b) ≤ r.sfd ∧ r.efd ≤ s.tau + nsT (s.staticEnd b + 4 * s.msBytes b * s.nms b) ∧ s.requestCode b h r = 0) ∧
    (∃ (s : State) (b : Fin 8) (r : RequestMsg) (h : _) (n : _) (k : _) (a : _), (s.branch b).adm = some { hop := h, calls := n, resp := some (s.cycle, a), next := k } ∧ h < 24 ∧ s.sending b = true ∧ r.good = true ∧ s.tau + nsT (s.admStart b) ≤ r.sfd ∧ r.efd ≤ s.tau + nsT (s.staticEnd b + 4 * s.msBytes b * s.nms b) ∧ s.requestCode b h r ≠ 0) ∧
    (∃ (s : State) (b : Fin 8) (h : _) (n : _) (k : _), (s.branch b).adm = some { hop := h, calls := n, resp := none, next := k } ∧ 8 ≤ n) ∧
    (∃ (s : State) (b : Fin 8) (sl : Fin 24) (seq : Byte) (t4 : _) (h : _) (i : _) (g : _), s.hopOf b sl = some h ∧ s.nodeState b h = 2 ∧ (s.branch b).grants = i ++ [g] ∧ (∀ x ∈ i, x.done = true) ∧ g.integ = true ∧ g.done = false ∧ g.slot = sl.val ∧ s.grantFits b g t4 (t4 + nsT 88) = true ∧ Tab.get (s.hop b h).t1s seq.toNat 0 ≠ 0 ∧ (∀ v ∈ (s.hop b h).values, v.1 ≠ seq.toNat) ∧ (s.hop b h).values.length < 7) ∧
    (∃ (s : State) (m : _) (b : Fin 8) (h : Fin 24), s.takes m (R.nodeTable_NTCMD b) = true ∧ s.nodeState b h = 7) ∧
    (∃ (s : State) (m : _) (b : Fin 8) (h : Fin 24), s.takes m (R.nodeTable_NTCMD b) = true ∧ s.nodeState b h ∈ [4, 5, 6, 8]) :=
  ⟨⟨((branchAs 2 { adm := none, attemptCycle := 1 } 0 [(R.nodeTable_NTCFG 2, 1)])), 2, by decide +kernel⟩,
    ⟨((branchAs 2 { adm := none, attemptCycle := 3 } 4 [])), 2, by decide +kernel⟩,
    ⟨((branchAs 2 { adm := none, attemptCycle := 1 } 0 [])), .host, 2, by decide +kernel⟩,
    ⟨((branchAs 2 { adm := none, attemptCycle := 1 } 4 [(R.branch_NIT 2, 112000)])), .host, 2, by decide +kernel⟩,
    ⟨((branchAs 2 { adm := some { hop := 1, calls := 3, resp := some (9, 120000) } } 4 [(R.nodeTable_EXP_VENDOR 2 1, 1), (R.nodeTable_EXP_TYPE 2 1, 2), (R.nodeTable_EXP_SERIAL_LO 2 1, 7), (R.nodeTable_NODE_STATE 2 1, 0)])), 2, ({ sfd := 12 * 122000, efd := 12 * 122100, good := true, vendor := 1, ntype := 2, serial := 7, crc := 99 }), 1, 3, 0, 120000, by decide +kernel⟩,
    ⟨((branchAs 2 { adm := some { hop := 1, calls := 3, resp := some (9, 120000) } } 4 [(R.nodeTable_EXP_VENDOR 2 1, 1), (R.nodeTable_EXP_TYPE 2 1, 2), (R.nodeTable_EXP_SERIAL_LO 2 1, 7), (R.nodeTable_NODE_STATE 2 1, 0)])), 2, ({ sfd := 12 * 122000, efd := 12 * 122100, good := true, vendor := 4, ntype := 2, serial := 7, crc := 99 }), 1, 3, 0, 120000, by decide +kernel⟩,
    ⟨((branchAs 2 { adm := some { hop := 1, calls := 8, resp := none } } 4 [])), 2, 1, 8, 0, by decide +kernel⟩,
    ⟨((branchAs 2 { grants := [{ slot := 1, frag := 0, start := 0, run := 19, len := 256, integ := true, done := true }, { slot := 1, frag := 0, start := 0, run := 19, len := 256, integ := true, done := false }], hops := [(1, { t1s := [(6, 1000)], values := [(5, 9)] })] } 2 [])), 2, 1, 6, (12 * 10460), 1, ([{ slot := 1, frag := 0, start := 0, run := 19, len := 256, integ := true, done := true }]), ({ slot := 1, frag := 0, start := 0, run := 19, len := 256, integ := true, done := false }), by decide +kernel⟩,
    ⟨((branchAs 2 { hops := [(1, { serial := 7 })] } 7 [])), .host, 2, 1, by decide +kernel⟩,
    ⟨((branchAs 2 { hops := [(1, { serial := 7 })] } 6 [])), .host, 2, 1, by decide +kernel⟩⟩

/-- Inputs that meet the hypotheses of CycleStart, clause by clause. -/
theorem witness_CycleStart :
    (∃ (s : State) (t : _), (s.tick t).cycleDue = true) ∧
    (∃ (s : State) (t : _), (s.tick t).cycleDue = false) ∧
    (∃ (s : State) (b : _), s.driven b = true ∧ (s.branch b).idleUntil ≤ s.now) ∧
    (∃ (s : State) (b : _), s.driven b = false) :=
  ⟨⟨({ (live : State) with cycling := true, target := 100000 * 65536, firstCycle := false }), 0, by decide +kernel⟩,
    ⟨({ (live : State) with cycling := true, target := 100001 * 65536, firstCycle := false }), 0, by decide +kernel⟩,
    ⟨((branchAs 2 {  } 4 [])), 2, by decide +kernel⟩,
    ⟨live, 2, by decide +kernel⟩⟩

/-- Inputs that meet the hypotheses of TimeServo, clause by clause. -/
theorem witness_TimeServo :
    (∃ (s : State) (t : _) (sec : W48) (ns : W32) (frac : BitVec 16) (θ : Int), θ = ptpTime sec ns + frac.toNat - (s.tick t).plantAt (s.tick t).now ∧ s.timeSrc = 2 ∧ s.coreInReset = false ∧ (s.invState = 1 ∨ s.invState = 2) ∧ θ.natAbs ≤ s.f R.invarCore_STEP_WIN 15 0 * 65536 ∧ 2 * θ < second16 ∧ -second16 < 2 * θ) ∧
    (∃ (s : State) (t : _) (sec : W48) (ns : W32) (frac : BitVec 16) (θ : Int), θ = ptpTime sec ns + frac.toNat - (s.tick t).plantAt (s.tick t).now ∧ s.timeSrc = 2 ∧ s.coreInReset = false ∧ (s.invState = 1 ∨ s.invState = 2) ∧ s.f R.invarCore_STEP_WIN 15 0 * 65536 < θ.natAbs ∧ 2 * θ < second16 ∧ -second16 < 2 * θ ∧ (s.b R.invarCore_STAT 5 = true ∨ θ.natAbs ≤ s.f R.invarCore_STEP_LIMIT 19 0 * 65536)) ∧
    (∃ (s : State) (t : _) (sec : W48) (ns : W32) (frac : BitVec 16) (θ : Int), θ = ptpTime sec ns + frac.toNat - (s.tick t).plantAt (s.tick t).now ∧ s.timeSrc = 2 ∧ s.coreInReset = false ∧ (s.invState = 1 ∨ s.invState = 2) ∧ s.f R.invarCore_STEP_WIN 15 0 * 65536 < θ.natAbs ∧ 2 * θ < second16 ∧ -second16 < 2 * θ ∧ s.b R.invarCore_STAT 5 = false ∧ s.f R.invarCore_STEP_LIMIT 19 0 * 65536 < θ.natAbs) ∧
    (∃ (s : State) (t : _) (s' : _) (x : Int) (θ : Int), s' = s.tick t ∧ x = nsDiff s'.nsNow (s'.secAt s'.now).2 * 65536 + (s'.devTime s'.now % 65536 : Nat) + sfld (s.rd R.invarCore_PPS_CFG) 15 8 * 65536 ∧ θ = (if 2 * x ≤ second16 then -x else second16 - x) ∧ s.timeSrc = 3 ∧ s.coreInReset = false ∧ (s.invState = 1 ∨ s.invState = 2) ∧ θ.natAbs ≤ s.f R.invarCore_STEP_WIN 15 0 * 65536) ∧
    (∃ (s : State) (edge : _), (s.timeSrc ≠ 3 ∨ s.coreInReset = true ∨ edge = s.b R.invarCore_PPS_CFG 1)) ∧
    (∃ (s : State) (d : _) (k : _), s.inv.step = some (d, k) ∧ k < s.cycle) ∧
    (∃ (s : State), s.inv.step = none) ∧
    (∃ (s : State) (t : _) (lv1 : _), (s.timeSrc ≠ 2 ∨ s.coreInReset = true ∨ (s.tick t).cascHears lv1 = false)) ∧
    (∃ (s : State) (t : _), s.timeSrc = 2 ∧ s.coreInReset = false ∧ (s.pairMode && !s.pair.claim) = false ∧ (s.tick t).cascHears true = true ∧ s.inv.onLv1 = false) :=
  ⟨⟨({ (poke (live) [(R.invarCore_CFG, 0x6400002), (R.invarCore_STEP_WIN, 1000), (R.invarCore_STEP_LIMIT, 5000), (R.crater_CYCLE, 3), (R.invarCore_STAT, 1)] : State) with inv := { good := 3 } }), 0, 0, 100050, 77, _, rfl, by decide +kernel⟩,
    ⟨({ (poke (live) [(R.invarCore_CFG, 0x6400002), (R.invarCore_STEP_WIN, 1000), (R.invarCore_STEP_LIMIT, 5000), (R.crater_CYCLE, 3), (R.invarCore_STAT, 1)] : State) with inv := { lastMeas := 5 } }), 0, 0, 104000, 77, _, rfl, by decide +kernel⟩,
    ⟨({ (poke (live) [(R.invarCore_CFG, 0x6400002), (R.invarCore_STEP_WIN, 1000), (R.invarCore_STEP_LIMIT, 5000), (R.crater_CYCLE, 3), (R.invarCore_STAT, 2)] : State) with inv := { lastMeas := 5 } }), 0, 0, 154000, 77, _, rfl, by decide +kernel⟩,
    ⟨({ ({ (poke (live) [(R.invarCore_CFG, 0x6400003), (R.invarCore_STEP_WIN, 1000), (R.invarCore_STEP_LIMIT, 5000), (R.crater_CYCLE, 3), (R.invarCore_STAT, 1)] : State) with inv := { lastMeas := 5 } } : State) with now := 12000005000 }), 0, _, _, _, rfl, rfl, rfl, by decide +kernel⟩,
    ⟨(poke (live) [(R.invarCore_CFG, 0x6400003), (R.invarCore_PPS_CFG, 2)]), true, by decide +kernel⟩,
    ⟨({ ({ (poke (live) [(R.invarCore_CFG, 0x6400002), (R.invarCore_STEP_WIN, 1000), (R.invarCore_STEP_LIMIT, 5000), (R.crater_CYCLE, 3), (R.invarCore_STAT, 2), (R.chip_CYCLE_LO, 9), (R.invarCore_FREQ, 1000)] : State) with inv := { lastMeas := 5 } } : State) with inv := { step := some (5 * 65536 + 3, 8) }, tauDev := 6553600 }), (5 * 65536 + 3), 8, by decide +kernel⟩,
    ⟨live, by decide +kernel⟩,
    ⟨live, 0, false, by decide +kernel⟩,
    ⟨({ (poke (live) [(R.invarCore_CFG, 0x6400002), (R.invarCore_STEP_WIN, 1000), (R.invarCore_STEP_LIMIT, 5000), (R.crater_CYCLE, 3), (R.invarCore_STAT, 1), (R.lvCommon_LVCFG, 3), (R.lvPort_LSTAT 1, 1), (R.lvPort_LSTAT 0, 0)] : State) with now := 12000005000 }), 0, by decide +kernel⟩⟩

/-- Inputs that meet the hypotheses of PtpCommands, clause by clause. -/
theorem witness_PtpCommands :
    (∃ (s : State) (f : PtpMsg), s.ptpHears f = true ∧ s.ptpOurs f = true ∧ syncLogOk f.logInt = true ∧ f.twoStep = true) ∧
    (∃ (s : State) (f : PtpMsg), s.ptpHears f = true ∧ s.ptpOurs f = true ∧ syncLogOk f.logInt = true ∧ f.twoStep = false ∧ s.inv.mpd = none) ∧
    (∃ (s : State) (f : PtpMsg), s.ptpHears f = true ∧ (s.ptpOurs f = false ∨ syncLogOk f.logInt = false)) ∧
    (∃ (s : State) (f : PtpMsg), s.ptpHears f = true ∧ s.ptpOurs f = false) ∧
    (∃ (s : State) (f : PtpDelayResp), s.ptpHears f.msg = true ∧ (s.ptpOurs f.msg && f.forUs && s.inv.req.isSome && decide (f.reqSeq = s.inv.reqSeq)) = false) ∧
    (∃ (s : State) (f : PtpMsg), s.ptpHears f = false) ∧
    (∃ (s : State) (f : PtpDelayResp), s.ptpHears f.msg = false) ∧
    (∃ (s : State) (f : PtpMsg) (x : PtpSyncSt), s.ptpHears f = true ∧ s.ptpOurs f = true ∧ s.inv.sync = some x ∧ x.seq = f.seq ∧ s.inv.mpd = none) ∧
    (∃ (s : State) (f : PtpMsg) (x : PtpSyncSt) (d : _) (θ : Int), θ = ptpTime f.sec f.ns + (x.cs + f.corr.toInt) + d - x.t2 ∧ s.ptpHears f = true ∧ s.ptpOurs f = true ∧ s.inv.sync = some x ∧ x.seq = f.seq ∧ s.inv.mpd = some d ∧ 2 * θ < second16 ∧ -second16 < 2 * θ) ∧
    (∃ (s : State) (f : PtpDelayResp) (t3 : _) (x : PtpSyncSt), s.ptpHears f.msg = true ∧ s.ptpOurs f.msg = true ∧ f.forUs = true ∧ s.inv.req = some t3 ∧ f.reqSeq = s.inv.reqSeq ∧ s.inv.whole = some x) ∧
    (∃ (s : State) (t : _), s.timeSrc = 1 ∧ s.coreInReset = false ∧ (∀ a, s.inv.reqAt = some a → a + s.dreqInterval ≤ (s.tick t).now)) ∧
    (∃ (s : State) (t : _) (d : _), s.lostAfter = some d ∧ s.inv.lastMeas + d ≤ (s.tick t).now ∧ s.invState ≠ 3 ∧ s.coreInReset = false) :=
  ⟨⟨({ (poke (live) [(R.invarCore_CFG, 0x6400001), (R.invarCore_STEP_WIN, 1000), (R.invarCore_STEP_LIMIT, 5000), (R.invarPtp_PTPCFG, 0x2004), (R.invarPtp_MASTER_CLK_W0, 7), (R.invarPtp_MASTER_PORT, 2), (R.invarPtp_TS_ADJ, 0x20003), (R.invarCore_STAT, 1)] : State) with inv := {  } }), ({ domain := 4, clk := 7, port := 2, twoStep := true, seq := 5, sec := 0, ns := 100010, corr := 65536, logInt := 0xFE }), by decide +kernel⟩,
    ⟨({ (poke (live) [(R.invarCore_CFG, 0x6400001), (R.invarCore_STEP_WIN, 1000), (R.invarCore_STEP_LIMIT, 5000), (R.invarPtp_PTPCFG, 0x2004), (R.invarPtp_MASTER_CLK_W0, 7), (R.invarPtp_MASTER_PORT, 2), (R.invarPtp_TS_ADJ, 0x20003), (R.invarCore_STAT, 1)] : State) with inv := {  } }), ({ domain := 4, clk := 7, port := 2, twoStep := false, seq := 5, sec := 0, ns := 100010, corr := 65536, logInt := 0xFE }), by decide +kernel⟩,
    ⟨({ (poke (live) [(R.invarCore_CFG, 0x6400001), (R.invarCore_STEP_WIN, 1000), (R.invarCore_STEP_LIMIT, 5000), (R.invarPtp_PTPCFG, 0x2004), (R.invarPtp_MASTER_CLK_W0, 7), (R.invarPtp_MASTER_PORT, 2), (R.invarPtp_TS_ADJ, 0x20003), (R.invarCore_STAT, 1)] : State) with inv := {  } }), ({ domain := 5, clk := 7, port := 2, twoStep := true, seq := 5, sec := 0, ns := 100010, corr := 65536, logInt := 0xFE }), by decide +kernel⟩,
    ⟨({ (poke (live) [(R.invarCore_CFG, 0x6400001), (R.invarCore_STEP_WIN, 1000), (R.invarCore_STEP_LIMIT, 5000), (R.invarPtp_PTPCFG, 0x2004), (R.invarPtp_MASTER_CLK_W0, 7), (R.invarPtp_MASTER_PORT, 2), (R.invarPtp_TS_ADJ, 0x20003), (R.invarCore_STAT, 1)] : State) with inv := {  } }), ({ domain := 5, clk := 7, port := 2, twoStep := true, seq := 5, sec := 0, ns := 100010, corr := 65536, logInt := 0xFE }), by decide +kernel⟩,
    ⟨({ (poke (live) [(R.invarCore_CFG, 0x6400001), (R.invarCore_STEP_WIN, 1000), (R.invarCore_STEP_LIMIT, 5000), (R.invarPtp_PTPCFG, 0x2004), (R.invarPtp_MASTER_CLK_W0, 7), (R.invarPtp_MASTER_PORT, 2), (R.invarPtp_TS_ADJ, 0x20003), (R.invarCore_STAT, 1)] : State) with inv := { req := some 5, reqSeq := 9 } }), ({ msg := { domain := 4, clk := 7, port := 2, twoStep := true, seq := 5, sec := 0, ns := 100010, corr := 65536, logInt := 0xFE }, reqSeq := 9, forUs := false }), by decide +kernel⟩,
    ⟨(poke (live) [(R.invarCore_CFG, 2)]), ({ domain := 4, clk := 7, port := 2, twoStep := true, seq := 5, sec := 0, ns := 100010, corr := 65536, logInt := 0xFE }), by decide +kernel⟩,
    ⟨({ (poke (live) [(R.invarCore_CFG, 0x6400001), (R.invarCore_STEP_WIN, 1000), (R.invarCore_STEP_LIMIT, 5000), (R.invarPtp_PTPCFG, 0x2004), (R.invarPtp_MASTER_CLK_W0, 7), (R.invarPtp_MASTER_PORT, 2), (R.invarPtp_TS_ADJ, 0x20003), (R.invarCore_STAT, 1)] : State) with inv := {  } }), ({ msg := { domain := 4, clk := 7, port := 2, twoStep := true, seq := 5, sec := 0, ns := 100010, corr := 65536, logInt := 0xFE, eth := 1 }, reqSeq := 9, forUs := true }), by decide +kernel⟩,
    ⟨({ (poke (live) [(R.invarCore_CFG, 0x6400001), (R.invarCore_STEP_WIN, 1000), (R.invarCore_STEP_LIMIT, 5000), (R.invarPtp_PTPCFG, 0x2004), (R.invarPtp_MASTER_CLK_W0, 7), (R.invarPtp_MASTER_PORT, 2), (R.invarPtp_TS_ADJ, 0x20003), (R.invarCore_STAT, 1)] : State) with inv := { sync := some { seq := 5, t2 := 6553600000, t1 := 6553000000, cs := 100 } } }), ({ domain := 4, clk := 7, port := 2, twoStep := true, seq := 5, sec := 0, ns := 100010, corr := 65536, logInt := 0xFE }), ({ seq := 5, t2 := 6553600000, t1 := 6553000000, cs := 100 }), by decide +kernel⟩,
    ⟨({ (poke (live) [(R.invarCore_CFG, 0x6400001), (R.invarCore_STEP_WIN, 1000), (R.invarCore_STEP_LIMIT, 5000), (R.invarPtp_PTPCFG, 0x2004), (R.invarPtp_MASTER_CLK_W0, 7), (R.invarPtp_MASTER_PORT, 2), (R.invarPtp_TS_ADJ, 0x20003), (R.invarCore_STAT, 1)] : State) with inv := { sync := some { seq := 5, t2 := 6553600000, t1 := 6553000000, cs := 100 }, mpd := some 655 } }), ({ domain := 4, clk := 7, port := 2, twoStep := true, seq := 5, sec := 0, ns := 100010, corr := 65536, logInt := 0xFE }), ({ seq := 5, t2 := 6553600000, t1 := 6553000000, cs := 100 }), 655, _, rfl, by decide +kernel⟩,
    ⟨({ (poke (live) [(R.invarCore_CFG, 0x6400001), (R.invarCore_STEP_WIN, 1000), (R.invarCore_STEP_LIMIT, 5000), (R.invarPtp_PTPCFG, 0x2004), (R.invarPtp_MASTER_CLK_W0, 7), (R.invarPtp_MASTER_PORT, 2), (R.invarPtp_TS_ADJ, 0x20003), (R.invarCore_STAT, 1)] : State) with inv := { req := some 6553700000, reqSeq := 9, whole := some { seq := 5, t2 := 6553600000, t1 := 6553000000, cs := 100 } } }), ({ msg := { domain := 4, clk := 7, port := 2, twoStep := true, seq := 5, sec := 0, ns := 100010, corr := 65536, logInt := 0xFE }, reqSeq := 9, forUs := true }), 6553700000, ({ seq := 5, t2 := 6553600000, t1 := 6553000000, cs := 100 }), by decide +kernel⟩,
    ⟨({ (poke (live) [(R.invarCore_CFG, 0x6400001), (R.invarCore_STEP_WIN, 1000), (R.invarCore_STEP_LIMIT, 5000), (R.invarPtp_PTPCFG, 0x2004), (R.invarPtp_MASTER_CLK_W0, 7), (R.invarPtp_MASTER_PORT, 2), (R.invarPtp_TS_ADJ, 0x20003), (R.invarCore_STAT, 1)] : State) with inv := {  } }), 0, by decide +kernel⟩,
    ⟨({ (poke (live) [(R.invarCore_CFG, 0x6400001), (R.invarCore_STEP_WIN, 1000), (R.invarCore_STEP_LIMIT, 5000), (R.invarPtp_PTPCFG, 0x2004), (R.invarPtp_MASTER_CLK_W0, 7), (R.invarPtp_MASTER_PORT, 2), (R.invarPtp_TS_ADJ, 0x20003), (R.invarCore_STAT, 1), (R.invarCore_STAT, 2)] : State) with inv := { syncTs := 20 } }), 0, (4 * nsT 20), by decide +kernel⟩⟩

/-- Inputs that meet the hypotheses of TimeCommands, clause by clause. -/
theorem witness_TimeCommands :
    (∃ (s : State) (m : _), s.takes m R.invarCore_CMD = true) ∧
    (∃ (s : State) (m : _), s.takes m R.invarCore_CMD = true) ∧
    (∃ (s : State) (m : _), s.takes m R.invarCore_CMD = true) ∧
    (∃ (s : State) (t : _) (x : _), x = (s.tick t).secAt (s.tick t).now ∧ 0 < nsDiff x.2 s.inv.secMark) ∧
    (∃ (s : State) (t : _), ((s.tick t).secAt (s.tick t).now).2 = s.inv.secMark) ∧
    (∃ (s : State) (t : _), s.inv.ppsOut = true ∧ (s.f R.invarCore_PPS_CFG 24 16 : Int) * 1000000 ≤ nsDiff (s.tick t).nsNow ((s.tick t).secAt (s.tick t).now).2) ∧
    (∃ (s : State) (t : _) (k : Fin 64), s.b (R.invarEv_ESTAT k) 0 = true ∧ (s.tick t).evPassed k = true ∧ s.rd (R.invarEv_PERIOD k) = 0 ∧ s.pairMode = false ∧ s.graph = none) ∧
    (∃ (s : State) (t : _) (k : Fin 64), s.b (R.invarEv_ESTAT k) 0 = true ∧ (s.tick t).evPassed k = true ∧ s.rd (R.invarEv_PERIOD k) ≠ 0 ∧ s.pairMode = false ∧ s.graph = none ∧ nsDiff (s.tick t).nsNow (s.evDue k + BitVec.ofNat 48 (s.rd (R.invarEv_PERIOD k)).toNat) < 0) ∧
    (∃ (s : State) (t : _) (k : Fin 64), (s.b (R.invarEv_ESTAT k) 0 = false ∨ (s.tick t).evPassed k = false)) :=
  ⟨⟨live, .host, by decide +kernel⟩,
    ⟨(poke ({ live with now := 1200077 }) [(R.invarCore_RATE, 5)]), .host, by decide +kernel⟩,
    ⟨live, .host, by decide +kernel⟩,
    ⟨({ (poke (live) [(R.invarCore_PPS_CFG, 1), (R.invarCore_SEC_SET_LO, 99)] : State) with now := 12000005000, inv := { secSet := true } }), 0, _, rfl, by decide +kernel⟩,
    ⟨live, 0, by decide +kernel⟩,
    ⟨({ (poke (live) [(R.invarCore_PPS_CFG, 0x50001)] : State) with now := 12000005000 + 72000000, inv := { secMark := 1000000000, ppsOut := true } }), 0, by decide +kernel⟩,
    ⟨(poke (live) [(R.invarEv_ESTAT 40, 1), (R.invarEv_DUE_LO 40, 99990), (R.invarEv_ECFG 40, 3)]), 0, 40, by decide +kernel⟩,
    ⟨(poke (live) [(R.invarEv_ESTAT 40, 1), (R.invarEv_DUE_LO 40, 99990), (R.invarEv_ECFG 40, 3), (R.invarEv_PERIOD 40, 5000)]), 0, 40, by decide +kernel⟩,
    ⟨(poke (live) [(R.invarEv_ESTAT 40, 0), (R.invarEv_DUE_LO 40, 99990)]), 0, 40, by decide +kernel⟩⟩

/-- Inputs that meet the hypotheses of PairClaims, clause by clause. -/
theorem witness_PairClaims :
    (∃ (s : State) (m : _), s.takes m R.pair_PCMD = true) ∧
    (∃ (s : State) (m : _), s.takes m R.pair_PCMD = true) ∧
    (∃ (s : State) (m : _), s.takes m R.pair_PCMD = true ∧ s.pairMode = true ∧ s.pair.claim = false ∧ s.pair.sync = 0 ∧ s.pair.pxUp = true ∧ s.pair.peerClaim = true ∧ s.rst.fuseOk = true ∧ s.rst.asserted = 0) ∧
    (∃ (s : State) (t : _), (s.tick t).claimDue = true ∧ s.takesOver = true) ∧
    (∃ (s : State) (t : _), (s.tick t).claimDue = true ∧ s.takesOver = false ∧ s.rst.safeBoot = false) ∧
    (∃ (s : State) (t : _), (s.tick t).claimDue = false) ∧
    (∃ (s : State) (t : _) (x : _), s.pair.releaseDue = some x ∧ s.pair.claim = true ∧ (s.tick t).releaseReached x = true) :=
  ⟨⟨pairLive, .host, by decide +kernel⟩,
    ⟨claimed, .host, by decide +kernel⟩,
    ⟨({ (pairLive : State) with pair := { sync := 0, pxUp := true, peerClaim := true } }), .host, by decide +kernel⟩,
    ⟨({ ((branchAs 6 { txq := [{ buf := 2, node := 31, ms := 4, len := 3, since := 0, order := 0, seq := 6, frag := 0, sends := [], started := false }], far := true } 4 [(R.pair_PCFG, 5)]) : State) with pair := { claim := false, sync := 2, pxUp := true } }), 0, by decide +kernel⟩,
    ⟨({ ((branchAs 6 {  } 4 [(R.pair_PCFG, 1)]) : State) with pair := { claimReq := true } }), 0, by decide +kernel⟩,
    ⟨pairLive, 0, by decide +kernel⟩,
    ⟨({ ((branchAs 2 {  } 4 [(R.pair_PCFG, 1)]) : State) with pair := { claim := true, releaseDue := some 5, peerClaim := true } }), 0, 5, by decide +kernel⟩⟩

/-- Inputs that meet the hypotheses of LockstepInputs, clause by clause. -/
theorem witness_LockstepInputs :
    (∃ (s : State) (t : _) (r : AgreementRec), s.isStandby = true ∧ r.cycle.toNat = s.cycle ∧ s.pair.agreed ≠ some s.cycle ∧ (s.tick t).phase ≤ nsT 4000) ∧
    (∃ (s : State) (t : _) (r : AgreementRec), s.isStandby = true ∧ r.cycle.toNat = s.cycle ∧ s.pair.agreed ≠ some s.cycle ∧ nsT 4000 < (s.tick t).phase) ∧
    (∃ (s : State) (r : AgreementRec), (s.isStandby = false ∨ r.cycle.toNat ≠ s.cycle ∨ s.pair.agreed = some s.cycle)) ∧
    (∃ (s : State) (t : _), s.isStandby = true ∧ s.pair.agreed ≠ some s.cycle ∧ nsT 4000 ≤ (s.tick t).phase) ∧
    (∃ (s : State) (t : _), s.isStandby = true ∧ nsT 4000 ≤ (s.tick t).phase) ∧
    (∃ (s : State), s.pairMode = true ∧ s.pair.pxUp = true ∧ s.pair.claim = false ∧ (s.pair.sync = 1 ∨ s.pair.sync = 2)) ∧
    (∃ (s : State) (a : BitVec 25), s.pairMode = true ∧ s.pair.pxUp = true ∧ s.pair.claim = false ∧ (s.pair.sync = 1 ∨ s.pair.sync = 2) ∧ 0x01000000 ≤ a.toNat ∧ a.toNat < 0x01800000 ∧ a.toNat % 8 = 0 ∧ s.isolated a.toNat = false ∧ s.rst.safeBoot = false ∧ s.windowAt a.toNat = none) ∧
    (∃ (s : State), (s.pairMode = false ∨ s.pair.claim = true ∨ s.pair.sync = 0)) ∧
    (∃ (s : State) (b : Fin 8) (sl : Fin 24) (words : List W48), (s.isStandby = true ∧ s.pair.agreed = some s.cycle ∧ words.length ≤ s.slotWords b sl ∧ s.safetyNode b sl = false ∧ s.boundAxes b sl = [] ∧ s.gChans = [] ∧ s.arcsOf 1 (b * 32 + sl) = [] ∧ s.slotOff b sl % 8 = 0) ∧ (∀ x, cellMemAddr (s.branchCell b) (s.slotOff b sl) ≤ x → x < cellMemAddr (s.branchCell b) (s.slotOff b sl) + 8 * words.length → s.phys x = some x)) ∧
    (∃ (s : State) (b : Fin 8) (sl : Fin 24), s.isStandby = true ∧ s.pair.agreed ≠ some s.cycle ∧ s.safetyNode b sl = false) ∧
    (∃ (s : State), s.isStandby = false) :=
  ⟨⟨({ ({ (poke (serving prog [(0, { servs := [sv] })]) [(R.pair_PCFG, 1)] : State) with pair := { claim := false, sync := 2, pxUp := true } } : State) with now := 30000 }), 0, ({ cycle := 0, lps := [{ lam := 5, tl := 3, vbar := 5, acc := 1, lpk := 2 }], qes := [{ cycPos := 4, cycAng := 5, edgeT := 6 }, { cycPos := 7, cycAng := 8, edgeT := 9 }], tokens := [{ kind := 5, src := 9, word := 7 }], ticks := [1, 2] }), by decide +kernel⟩,
    ⟨({ (standby : State) with now := 12000005000 }), 12000005000, ({ cycle := 0, lps := [], qes := [], tokens := [], ticks := [], branches := [{ runs := true, nodes := [(3, 7, 9)], dtotal := 5, held := [] }, { runs := true, nodes := [(3, 7, 9)], dtotal := 5, held := [] }, { runs := true, nodes := [(3, 7, 9)], dtotal := 5, held := [] }] }), by decide +kernel⟩,
    ⟨standby, ({ cycle := 3, lps := [{ lam := 5, tl := 3, vbar := 5, acc := 1, lpk := 2 }], qes := [{ cycPos := 4, cycAng := 5, edgeT := 6 }, { cycPos := 7, cycAng := 8, edgeT := 9 }], tokens := [{ kind := 5, src := 9, word := 7 }], ticks := [1, 2] }), by decide +kernel⟩,
    ⟨standby, 0, by decide +kernel⟩,
    ⟨standby, 0, by decide +kernel⟩,
    ⟨standby, by decide +kernel⟩,
    ⟨standby, 0x01234568, by decide +kernel⟩,
    ⟨live, by decide +kernel⟩,
    ⟨({ ((branchAs 7 {  } 4 [(R.pair_PCFG, 1)]) : State) with pair := { claim := false, sync := 2, pxUp := true, agreed := some 9 } }), 2, 1, ([5, 6]), by decide +kernel, by intro x; intros; exact phys_id (by decide +kernel) x⟩,
    ⟨({ ((branchAs 7 {  } 4 [(R.pair_PCFG, 1)]) : State) with pair := { claim := false, sync := 2, pxUp := true } }), 2, 1, by decide +kernel⟩,
    ⟨live, by decide +kernel⟩⟩

/-- Inputs that meet the hypotheses of LockstepComparison, clause by clause. -/
theorem witness_LockstepComparison :
    (∃ (s : State), s.pairMode = true ∧ s.pair.claim = true) ∧
    (∃ (s : State), s.pairMode = true ∧ s.pair.claim = false) ∧
    (∃ (s : State) (digest : _) (count : _) (safety : _), (s.pairMode = true ∧ s.inLockstep = true ∧ digest = s.ownDigest ∧ count = s.bothFresh.length ∧ safety = s.pair.safetyCrc) ∧ (∀ b sl, b < 8 → sl < 24 → s.brEn b = true → sl < s.nSlots b → (s.pair.ownMask.getD b 0).getLsbD sl = s.peerStale b sl)) ∧
    (∃ (s : State) (digest : _) (count : _) (safety : _), s.pairMode = true ∧ s.inLockstep = true ∧ (digest ≠ s.ownDigest ∨ count ≠ s.bothFresh.length ∨ safety ≠ s.pair.safetyCrc)) ∧
    (∃ (s : State) (m : _) (b : Fin 8), s.takes m R.pair_PCMD = true ∧ s.echoMay b = true ∧ 100 * (List.range 8).foldl (fun n c => if c = b.val || s.bstate c = 7 || (s.branch c).echoOn then n + s.echoLoad c else n) s.pxF ≤ 95 * s.pxB) ∧
    (∃ (s : State) (m : _) (b : Fin 8), s.takes m R.pair_PCMD = true ∧ s.echoMay b = true ∧ 95 * s.pxB < 100 * (List.range 8).foldl (fun n c => if c = b.val || s.bstate c = 7 || (s.branch c).echoOn then n + s.echoLoad c else n) s.pxF) ∧
    (∃ (s : State) (m : _), s.takes m R.pair_PCMD = true) ∧
    (∃ (s : State) (b : Fin 8), s.echoMay b = true ∧ s.b R.pair_PCFG (8 + b) = true ∧ s.pair.ran.getLsbD b = true ∧ 2 ≤ Tab.get s.pair.missedSync b 0 ∧ 100 * (List.range 8).foldl (fun n c => if c = b.val || s.bstate c = 7 || (s.branch c).echoOn then n + s.echoLoad c else n) s.pxF ≤ 95 * s.pxB) ∧
    (∃ (s : State) (t : _) (b : Fin 8) (sl : Fin 24), s.pairMode = true ∧ s.pair.claim = true ∧ s.driven b = true ∧ (s.slot b sl).accepted = false ∧ s.shutOut b sl = false ∧ (s.tick t).phase < nsT (s.tNs - s.nitNs b)) ∧
    (∃ (s : State), s.pairMode = true ∧ s.pair.claim = false ∧ s.pair.sync = 1 ∧ s.pair.final = false) ∧
    (∃ (s : State), s.pairMode = true ∧ s.pair.claim = false ∧ s.pair.sync = 1 ∧ s.pair.final = true) ∧
    (∃ (s : State), s.pairMode = true ∧ s.pair.claim = false ∧ s.pair.sync = 1) ∧
    (∃ (g : BitVec 13) (l : List Byte), 0x1000 ≤ g.toNat ∧ l.length = 4096) ∧
    (∃ (s : State), s.sin.state ≠ 2) ∧
    (∃ (s : State), s.sin.state = 2) :=
  ⟨⟨claimed, by decide +kernel⟩,
    ⟨({ ((branchAs 7 {  } 4 [(R.pair_PCFG, 1), (R.sinNode_NSSTAT 2 1, 5), (R.sinNode_NSSTAT 2 0, 5)]) : State) with pair := { claim := false, sync := 2, pxUp := true } }), by decide +kernel⟩,
    ⟨({ ((branchAs 7 {  } 4 [(R.pair_PCFG, 1), (R.pair_PCFG, 0x50001)]) : State) with pair := { claim := false, sync := 2, pxUp := true, peerMask := [0, 0, 2], ownMask := [0, 0, 2], divRun := [(49, 4)], safetyCrc := 5, frame := [(2, 0, [3, 4]), (2, 1, [7])] } }), (crc64 ([2, 0] ++ natLe 6 3 ++ natLe 6 4)), 1, 5, by decide +kernel, by intro b sl hb; revert sl; revert b; decide +kernel⟩,
    ⟨({ ((branchAs 7 {  } 4 [(R.pair_PCFG, 1), (R.pair_PCFG, 0x50001)]) : State) with pair := { claim := false, sync := 2, pxUp := true, peerMask := [0, 0, 2], frame := [(2, 0, [3, 4]), (2, 1, [7])] } }), 77, 1, 0, by decide +kernel⟩,
    ⟨({ ((branchAs 6 {  } 4 [(R.pair_PCFG, 1), (R.branch_BRCFG 2, 5)]) : State) with pair := { claim := false, sync := 2, pxUp := true } }), .host, 2, by decide +kernel⟩,
    ⟨({ ((branchAs 6 {  } 4 [(R.pair_PCFG, 1), (R.branch_BRCFG 2, 5), (R.crater_CYCLE, 0), (R.branch_NIT 2, 0), (R.branch_BRCFG 0, 5), (R.nodeTable_BSTATE 0, 7), (R.branch_BRCFG 1, 5), (R.nodeTable_BSTATE 1, 7)]) : State) with pair := { claim := false, sync := 2, pxUp := true } }), .host, 2, by decide +kernel⟩,
    ⟨({ ((branchAs 6 {  } 4 [(R.pair_PCFG, 1), (R.branch_BRCFG 2, 5)]) : State) with pair := { claim := false, sync := 2, pxUp := true } }), .host, by decide +kernel⟩,
    ⟨({ ((branchAs 6 {  } 4 [(R.pair_PCFG, 1), (R.pair_PCFG, 0x401), (R.branch_BRCFG 2, 5)]) : State) with pair := { claim := false, sync := 2, pxUp := true, missedSync := [(2, 2)] } }), 2, by decide +kernel⟩,
    ⟨({ ((branchAs 2 {  } 4 [(R.pair_PCFG, 1)]) : State) with pair := { claim := true, sync := 2 } }), 0, 2, 1, by decide +kernel⟩,
    ⟨({ (pairLive : State) with pair := { sync := 1, round := 3 } }), by decide +kernel⟩,
    ⟨({ (pairLive : State) with pair := { sync := 1, round := 3, final := true } }), by decide +kernel⟩,
    ⟨({ (pairLive : State) with pair := { sync := 1, round := 3, final := true } }), by decide +kernel⟩,
    ⟨0x1200, ((List.replicate 4096 7)), by decide +kernel, List.length_replicate⟩,
    ⟨({ (live : State) with sin := { state := 3 } }), by decide +kernel⟩,
    ⟨({ (live : State) with sin := { state := 2 } }), by decide +kernel⟩⟩

/-- Inputs that meet the hypotheses of CascadeCommands, clause by clause. -/
theorem witness_CascadeCommands :
    (∃ (s : State) (cands : List RootCand), s.pairInReset = false ∧ s.b R.lvCommon_LVCFG 0 = true ∧ s.pcie.up = true ∧ (∀ c ∈ cands, (s.rd48 R.chip_SERIAL_LO).toNat < c.serial.toNat)) ∧
    (∃ (s : State) (cands : List RootCand) (c : RootCand), s.pairInReset = false ∧ s.b R.lvCommon_LVCFG 0 = true ∧ s.pcie.up = true ∧ c ∈ cands ∧ c.serial.toNat < (s.rd48 R.chip_SERIAL_LO).toNat) ∧
    (∃ (s : State), s.b R.lvCommon_LVCFG 0 = false) ∧
    (∃ (s : State) (r : Bar2Req), s.barOpen .host = true ∧ s.b R.lvCommon_LVSTAT 7 = true ∧ shapeFail r.off.toNat r.len r.write = none ∧ (s.b R.lvCommon_LVSTAT 6 = true → s.f R.lvCommon_LVSTAT 5 0 ≠ r.slot.toNat) ∧ s.b (R.lvCommon_PRESENT (r.slot.toNat / 32)) (r.slot.toNat % 32) = true ∧ r.write = false ∧ s.lv.reads.length < 32 ∧ r.len ≤ 64) ∧
    (∃ (s : State) (r : Bar2Req), s.barOpen .host = true ∧ s.b R.lvCommon_LVSTAT 7 = true ∧ shapeFail r.off.toNat r.len r.write = none ∧ (s.b R.lvCommon_LVSTAT 6 = true → s.f R.lvCommon_LVSTAT 5 0 ≠ r.slot.toNat) ∧ s.b (R.lvCommon_PRESENT (r.slot.toNat / 32)) (r.slot.toNat % 32) = false) ∧
    (∃ (s : State) (tag : Nat) (x : CascRead), s.lv.reads.find? (·.tag = tag) = some x ∧ x.len ≤ 64 ∧ x.parts = [] ∧ 0 < x.len) ∧
    (∃ (s : State) (t : _) (tag : Nat) (x : CascRead), s.lv.reads.find? (·.tag = tag) = some x ∧ x.since + nsT 2000 ≤ (s.tick t).now) ∧
    (∃ (s : State), s.b R.lvCommon_LVSTAT 7 = true ∧ s.coreInReset = false) ∧
    (∃ (s : State) (t : _) (m : _) (hi : _), s.takes m (R.router_REMOTE_PEND (b2n hi)) = true ∧ (Tab.get s.hwSet (R.router_REMOTE_PEND (b2n hi)) (0, 0)).1 ≠ ecyc (s.tick t).now) ∧
    (∃ (s : State), s.pairInReset = false ∧ s.b R.lvCommon_LVSTAT 6 = false ∧ s.calOk 1 = true) ∧
    (∃ (s : State), s.pairInReset = false) ∧
    (∃ (s : State), s.calOk 1 = false) ∧
    (∃ (s : State), s.endpointInReset = false) ∧
    (∃ (s : State), s.pairInReset = false) ∧
    (∃ (s : State), s.pairInReset = false) :=
  ⟨⟨(poke (live) [(R.lvCommon_LVCFG, 1), (R.chip_SERIAL_LO, 5)]), ([{ serial := 6 }]), by decide +kernel⟩,
    ⟨(poke (live) [(R.lvCommon_LVCFG, 1), (R.chip_SERIAL_LO, 5)]), ([{ serial := 4 }]), ({ serial := 4 }), by decide +kernel⟩,
    ⟨(poke (live) [(R.lvCommon_LVCFG, 0)]), by decide +kernel⟩,
    ⟨({ (poke (live) [(R.lvCommon_LVCFG, 1), (R.lvCommon_LVSTAT, 0x80), (R.lvCommon_PRESENT 1, 1)] : State) with lv := { nextTag := 3 } }), ({ slot := 32, off := 0x1000, write := false, len := 4, data := [] }), by decide +kernel⟩,
    ⟨({ (poke (live) [(R.lvCommon_LVCFG, 1), (R.lvCommon_LVSTAT, 0x80), (R.lvCommon_PRESENT 1, 1)] : State) with lv := {  } }), ({ slot := 33, off := 0x1000, write := true, len := 4, data := [] }), by decide +kernel⟩,
    ⟨({ (poke (live) [(R.lvCommon_LVCFG, 1), (R.lvCommon_LVSTAT, 0x80), (R.lvCommon_PRESENT 1, 1)] : State) with lv := { reads := [{ tag := 3, since := 7, slot := 32, off := 0x1000, len := 4, parts := [] }] } }), 3, ({ tag := 3, since := 7, slot := 32, off := 0x1000, len := 4, parts := [] }), by decide +kernel⟩,
    ⟨({ (poke (live) [(R.lvCommon_LVCFG, 1), (R.lvCommon_LVSTAT, 0x80), (R.lvCommon_PRESENT 1, 1)] : State) with lv := { reads := [{ tag := 3, since := 7, slot := 32, off := 0x1000, len := 4, parts := [] }] } }), 0, 3, ({ tag := 3, since := 7, slot := 32, off := 0x1000, len := 4, parts := [] }), by decide +kernel⟩,
    ⟨({ (poke (live) [(R.lvCommon_LVCFG, 1), (R.lvCommon_LVSTAT, 0x80), (R.lvCommon_PRESENT 1, 1)] : State) with lv := {  } }), by decide +kernel⟩,
    ⟨({ (poke (live) [(R.lvCommon_LVCFG, 1), (R.lvCommon_LVSTAT, 0x80), (R.lvCommon_PRESENT 1, 1), (R.router_REMOTE_PEND 1, 15)] : State) with lv := {  } }), 0, .host, true, by decide +kernel⟩,
    ⟨live, by decide +kernel⟩,
    ⟨live, by decide +kernel⟩,
    ⟨({ (live : State) with rst := { live.rst with noCal := 6 } }), by decide +kernel⟩,
    ⟨({ (poke (live) [(R.lvCommon_LVCFG, 1), (R.lvCommon_LVSTAT, 0x80), (R.lvCommon_PRESENT 1, 1)] : State) with lv := {  } }), by decide +kernel⟩,
    ⟨live, by decide +kernel⟩,
    ⟨standby, by decide +kernel⟩⟩

/-- Inputs that meet the hypotheses of AxisSafety, clause by clause. -/
theorem witness_AxisSafety :
    (∃ (s : State) (b : Fin 8) (sl : Fin 24), s.systemInReset = false ∧ s.nodeTimeout b sl = true ∧ s.b (R.sinNode_NSSTAT b sl) 16 = false ∧ s.f (R.sinNode_NSCFG b sl) 30 28 = 1) ∧
    (∃ (s : State) (b : Fin 8) (sl : Fin 24), s.systemInReset = false ∧ s.nodeTimeout b sl = true ∧ s.b (R.sinNode_NSSTAT b sl) 16 = false ∧ s.f (R.sinNode_NSCFG b sl) 30 28 = 0) ∧
    (∃ (s : State) (b : Fin 8) (sl : Fin 24), s.systemInReset = false ∧ s.missLevel b sl = true ∧ (s.conn b sl).missReported = false ∧ s.f (R.sinNode_NSCFG b sl) 26 24 = 1) ∧
    (∃ (s : State) (t : _) (b : Fin 8), s.systemInReset = false ∧ (s.tick t).cycleLate b = true ∧ s.f (R.sinClass_RESP 0) 2 0 = 4 ∧ (s.pair.claim && s.pairMode && s.withPartner) = false) ∧
    (∃ (s : State) (t : _) (b : Fin 8), s.systemInReset = false ∧ (s.tick t).cycleLate b = true ∧ s.f (R.sinClass_RESP 0) 2 0 = 0) ∧
    (∃ (s : State) (a : Fin 128) (c : _), s.systemInReset = false ∧ (s.sax a).ss1t = some c ∧ s.f (R.sinAxis_SS1T (a.val / 32) (a.val % 32)) 15 0 ≤ s.cycle - c ∧ (s.sax a).sto = false) ∧
    (∃ (s : State) (a : Fin 128) (c : _) (v : _), s.systemInReset = false ∧ (s.sax a).ss1r = some (c, v) ∧ s.f (R.sinAxis_SS1R_LIM (a.val / 32) (a.val % 32)) 15 0 ≤ s.cycle - c ∧ (s.sax a).sto = false) ∧
    (∃ (s : State) (m : _) (a : Fin 128), s.takes m (R.sinAxis_AXCMD (a.val / 32) (a.val % 32)) = true ∧ s.underSinter a = true ∧ (s.sax a).sto = false) ∧
    (∃ (s : State) (m : _) (a : Fin 128), s.takes m (R.sinAxis_AXCMD (a.val / 32) (a.val % 32)) = true ∧ s.underSinter a = true ∧ s.levelDemand a = false ∧ (s.sax a).demandCycle ≠ some s.cycle) ∧
    (∃ (s : State) (m : _) (a : Fin 128), s.takes m (R.sinAxis_AXCMD (a.val / 32) (a.val % 32)) = true ∧ (s.underSinter a = false ∨ s.levelDemand a = true ∨ (s.sax a).demandCycle = some s.cycle)) :=
  ⟨⟨({ ((branchAs 2 {  } 4 [(R.axis_CFG 37, 0x80000A00), (R.sinAxis_SFCFG 1 5, 0x10000), (R.axis_CFG 38, 0x80000200), (R.sinAxis_SFCFG 1 6, 0x10004), (R.sinNode_NSCFG 2 1, 0x10030001), (R.sinNode_NSSTAT 2 1, 0x0505)]) : State) with sin := { state := 4 } }), 2, 1, by decide +kernel⟩,
    ⟨({ ((branchAs 2 {  } 4 [(R.axis_CFG 37, 0x80000A00), (R.sinAxis_SFCFG 1 5, 0x10000), (R.axis_CFG 38, 0x80000200), (R.sinAxis_SFCFG 1 6, 0x10004), (R.sinNode_NSCFG 2 1, 0x00030001), (R.sinNode_NSSTAT 2 1, 0x0505)]) : State) with sin := { state := 4 } }), 2, 1, by decide +kernel⟩,
    ⟨({ ((branchAs 2 {  } 4 [(R.axis_CFG 37, 0x80000A00), (R.sinAxis_SFCFG 1 5, 0x10000), (R.axis_CFG 38, 0x80000200), (R.sinAxis_SFCFG 1 6, 0x10004), (R.sinNode_NSCFG 2 1, 0x01030001), (R.sinNode_NSSTAT 2 1, 0x0505)]) : State) with sin := { state := 4 } }), 2, 1, by decide +kernel⟩,
    ⟨({ ((branchAs 2 { lastSync := 0, efdDue := true } 4 [(R.axis_CFG 37, 0x80000A00), (R.sinAxis_SFCFG 1 5, 0x10000), (R.axis_CFG 38, 0x80000200), (R.sinAxis_SFCFG 1 6, 0x10004), (R.sinClass_RESP 0, 4)]) : State) with sin := { state := 4, hs := true, ls := true }, pair := { claim := true, intlkHigh := false }, now := 12 * 130000, tau := 0 }), 0, 2, by decide +kernel⟩,
    ⟨({ ((branchAs 2 { lastSync := 0, efdDue := true } 4 [(R.axis_CFG 37, 0x80000A00), (R.sinAxis_SFCFG 1 5, 0x10000), (R.axis_CFG 38, 0x80000200), (R.sinAxis_SFCFG 1 6, 0x10004), (R.sinClass_RESP 0, 0)]) : State) with sin := { state := 4, hs := true, ls := true }, pair := { claim := true, intlkHigh := false }, now := 12 * 130000, tau := 0 }), 0, 2, by decide +kernel⟩,
    ⟨({ ((branchAs 2 {  } 4 [(R.axis_CFG 37, 0x80000A00), (R.sinAxis_SFCFG 1 5, 0x10000), (R.axis_CFG 38, 0x80000200), (R.sinAxis_SFCFG 1 6, 0x10004), (R.sinAxis_SFCFG 1 5, 0x10001), (R.sinAxis_SS1T 1 5, 3), (R.sinAxis_SS1R_LIM 1 5, 3)]) : State) with sin := { axes := [(37, { ss1t := some 6 })] } }), 37, 6, by decide +kernel⟩,
    ⟨({ ((branchAs 2 {  } 4 [(R.axis_CFG 37, 0x80000A00), (R.sinAxis_SFCFG 1 5, 0x10000), (R.axis_CFG 38, 0x80000200), (R.sinAxis_SFCFG 1 6, 0x10004), (R.sinAxis_SFCFG 1 5, 0x10002), (R.sinAxis_SS1T 1 5, 3), (R.sinAxis_SS1R_LIM 1 5, 3)]) : State) with sin := { axes := [(37, { ss1r := some (6, 55) })] } }), 37, 6, 55, by decide +kernel⟩,
    ⟨({ ((branchAs 2 {  } 4 [(R.axis_CFG 37, 0x80000A00), (R.sinAxis_SFCFG 1 5, 0x10000), (R.axis_CFG 38, 0x80000200), (R.sinAxis_SFCFG 1 6, 0x10004), (R.sinAxis_SFCFG 1 5, 0x10000), (R.sinAxis_SS1T 1 5, 3), (R.sinAxis_SS1R_LIM 1 5, 3)]) : State) with sin := { axes := [(37, { ss1t := some 6 })] } }), .host, 37, by decide +kernel⟩,
    ⟨({ ((branchAs 2 {  } 4 [(R.axis_CFG 37, 0x80000A00), (R.sinAxis_SFCFG 1 5, 0x10000), (R.axis_CFG 38, 0x80000200), (R.sinAxis_SFCFG 1 6, 0x10004), (R.sinAxis_SFCFG 1 5, 0x10000), (R.sinAxis_SS1T 1 5, 3), (R.sinAxis_SS1R_LIM 1 5, 3)]) : State) with sin := { axes := [(37, { sto := true, event := true })] } }), .host, 37, by decide +kernel⟩,
    ⟨({ ((branchAs 2 {  } 4 [(R.axis_CFG 37, 0x80000A00), (R.sinAxis_SFCFG 1 5, 0x10000), (R.axis_CFG 38, 0x80000200), (R.sinAxis_SFCFG 1 6, 0x10004), (R.sinAxis_SFCFG 1 5, 0x10000), (R.sinAxis_SS1T 1 5, 3), (R.sinAxis_SS1R_LIM 1 5, 3)]) : State) with sin := { axes := [(37, { sto := true, demandCycle := some 9 })] } }), .host, 37, by decide +kernel⟩⟩

/-- Inputs that meet the hypotheses of IslandMonitors, clause by clause. -/
theorem witness_IslandMonitors :
    (∃ (s : State) (t : _) (hs : _) (ls : _), s.systemInReset = false ∧ (s.tick t).fbOk s.sin.hs hs s.sin.hsAt = true ∧ (s.tick t).fbOk s.sin.ls ls s.sin.lsAt = true) ∧
    (∃ (s : State) (t : _) (hs : _) (ls : _), s.systemInReset = false ∧ ((s.tick t).fbOk s.sin.hs hs s.sin.hsAt = false ∨ (s.tick t).fbOk s.sin.ls ls s.sin.lsAt = false)) ∧
    (∃ (s : State) (t : _) (w : _), s.systemInReset = false ∧ s.sin.test = some w ∧ s.sin.testAt + nsT 300000 ≤ (s.tick t).now) ∧
    (∃ (s : State), s.systemInReset = false) ∧
    (∃ (s : State) (rc : _), s.systemInReset = false ∧ 4704 ≤ rc ∧ rc ≤ 4896) ∧
    (∃ (s : State) (rc : _), s.systemInReset = false ∧ (rc < 4704 ∨ 4896 < rc) ∧ s.newReach 6 = 0) ∧
    (∃ (s : State), s.systemInReset = false ∧ s.rst.fuseOk = true ∧ s.reachEntry 6 = 3 ∧ s.rst.asserted = 0) ∧
    (∃ (s : State) (rail : Fin 6) (bank : Fin 5), s.systemInReset = false ∧ s.monitored rail bank = false) ∧
    (∃ (s : State) (rail : Fin 6) (bank : Fin 5), s.systemInReset = false ∧ s.monitored rail bank = true) ∧
    (∃ (s : State), s.systemInReset = false ∧ s.sin.state = 0 ∧ (s.rst.fuseOk || s.rst.safeBoot) = true) ∧
    (∃ (s : State), s.systemInReset = false ∧ (s.sin.state ≠ 0 ∨ (s.rst.fuseOk || s.rst.safeBoot) = false)) ∧
    (∃ (s : State), s.systemInReset = false) :=
  ⟨⟨({ (live : State) with sin := { state := 4, hs := true, ls := true, hsAt := 5 } }), 0, true, true, by decide +kernel⟩,
    ⟨({ ({ (live : State) with sin := { state := 4, hs := true, ls := true, hsAt := 5 } } : State) with now := 120000000 }), 0, true, false, by decide +kernel⟩,
    ⟨({ (poke (live) [(R.sinCore_SCFG, 1)] : State) with sin := { state := 4, test := some 1, hs := true, testAt := 5, testNext := 1 }, now := 12000000 }), 0, 1, by decide +kernel⟩,
    ⟨live, by decide +kernel⟩,
    ⟨live, 4704, by decide +kernel⟩,
    ⟨({ (poke (live) [(R.fuse_REACH_TBL, 0)] : State) with sin := { state := 4, hs := true, ls := true }, pair := { claim := true } }), 4703, by decide +kernel⟩,
    ⟨({ (poke (live) [(R.fuse_REACH_TBL, 786432)] : State) with sin := { state := 4, hs := true, ls := true }, pair := { claim := true } }), by decide +kernel⟩,
    ⟨live, 2, 4, by decide +kernel⟩,
    ⟨({ ({ (poke (live) [(R.fuse_REACH_TBL, 786432)] : State) with sin := { state := 4, hs := true, ls := true }, pair := { claim := true } } : State) with sin := { state := 4, hs := true, ls := true, armed := true } }), 2, 3, by decide +kernel⟩,
    ⟨({ (live : State) with sin := { }, rst := { live.rst with banks := [] } }), by decide +kernel⟩,
    ⟨({ (live : State) with sin := { state := 4, hs := true, ls := true, hsAt := 5 } }), by decide +kernel⟩,
    ⟨live, by decide +kernel⟩⟩

/-- Inputs that meet the hypotheses of IslandCommands, clause by clause. -/
theorem witness_IslandCommands :
    (∃ (s : State), s.systemInReset = false ∧ s.sin.pairs.length = 2) ∧
    (∃ (s : State) (t : _) (p : Fin 2) (x : _) (c : _), s.systemInReset = false ∧ s.sin.pairs[p.val]? = some x ∧ x.since = some c ∧ x.disc = false ∧ nsT (2000000 * s.f R.sinCore_SINCFG (16 * p.val + 15) (16 * p.val + 8)) < (s.tick t).now - c) ∧
    (∃ (s : State), s.systemInReset = false ∧ s.pairMode = true) ∧
    (∃ (s : State) (m : _), s.takes m R.sinCore_SCMD = true ∧ s.sin.state = 3 ∧ s.deviceCause = false ∧ s.sin.paramPend = false) ∧
    (∃ (s : State) (m : _), s.takes m R.sinCore_SCMD = true ∧ (s.sin.state ≠ 3 ∨ s.deviceCause = true ∨ s.sin.paramPend = true)) ∧
    (∃ (s : State) (m : _), s.takes m R.sinCore_SCMD = true ∧ s.f (R.sinClass_RESP 15) 2 0 = 4 ∧ (s.pair.claim && s.pairMode && s.withPartner) = false) ∧
    (∃ (s : State) (m : _), s.takes m R.sinCore_PARAM_ACK = true ∧ s.sin.paramPend = true) :=
  ⟨⟨({ ((branchAs 2 {  } 4 [(R.axis_CFG 37, 0x80000A00), (R.sinAxis_SFCFG 1 5, 0x10000), (R.axis_CFG 38, 0x80000200), (R.sinAxis_SFCFG 1 6, 0x10004), (R.sinCore_SINCFG, 0x10001)]) : State) with sin := { state := 4, inputs := [{ last := true, run := 5, level := true }, { last := true, run := 5, level := true }, { last := true, run := 5, level := true }, { last := true, run := 5, level := true }], pairs := [{}, {}] } }), by decide +kernel⟩,
    ⟨({ ((branchAs 2 {  } 4 [(R.axis_CFG 37, 0x80000A00), (R.sinAxis_SFCFG 1 5, 0x10000), (R.axis_CFG 38, 0x80000200), (R.sinAxis_SFCFG 1 6, 0x10004), (R.sinCore_SINCFG, 0x10001)]) : State) with sin := { state := 4, inputs := [{ last := true, run := 5, level := true }, { last := true, run := 5, level := true }, { last := true, run := 5, level := true }, { last := true, run := 5, level := true }], pairs := [{}, { since := some 6 }] } }), 0, 1, ({ since := some 6 }), 6, by decide +kernel⟩,
    ⟨({ (claimed : State) with sin := { state := 4 } }), by decide +kernel⟩,
    ⟨({ ((branchAs 2 {  } 4 [(R.axis_CFG 37, 0x80000A00), (R.sinAxis_SFCFG 1 5, 0x10000), (R.axis_CFG 38, 0x80000200), (R.sinAxis_SFCFG 1 6, 0x10004), (R.sinCore_SCFG, 0)]) : State) with sin := { state := 3 } }), .host, by decide +kernel⟩,
    ⟨live, .host, by decide +kernel⟩,
    ⟨({ ((branchAs 2 {  } 4 [(R.axis_CFG 37, 0x80000A00), (R.sinAxis_SFCFG 1 5, 0x10000), (R.axis_CFG 38, 0x80000200), (R.sinAxis_SFCFG 1 6, 0x10004), (R.sinClass_RESP 15, 4)]) : State) with sin := { state := 4, hs := true, ls := true } }), .host, by decide +kernel⟩,
    ⟨({ (live : State) with sin := { paramPend := true } }), .host, by decide +kernel⟩⟩

/-- Inputs that meet the hypotheses of ResetSources, clause by clause. -/
theorem witness_ResetSources :
    (∃ (s : State), s.rst.asserted.getLsbD 0 = false ∧ s.reach ≤ 5) ∧
    (∃ (s : State), s.rst.fuseOk = true ∧ s.rst.asserted = 0 ∧ s.reachEntry 1 = 5) ∧
    (∃ (s : State), s.rst.fuseOk = true ∧ s.rst.asserted = 0 ∧ s.reachEntry 1 = 4) ∧
    (∃ (s : State), s.rst.fuseOk = true ∧ s.rst.asserted = 0 ∧ s.reachEntry 2 = 3) ∧
    (∃ (s : State), s.rst.fuseOk = true ∧ s.rst.asserted = 0 ∧ s.reachEntry 3 = 3) ∧
    (∃ (s : State), s.rst.fuseOk = true ∧ s.rst.asserted = 0 ∧ s.reachEntry 8 = 1 ∧ s.rd R.reset_RST_HOLD = 0) ∧
    (∃ (t : _) (i : Instr) (k : Nat), (i, k) ∈ [(Instr.por t false, 0), (.nrstIn t false, 1), (.perst t false, 2), (.hotReset t false, 3), (.trst t false, 8)]) ∧
    (∃ (s : State) (m : _) (reach : BitVec 3) (target : BitVec 5), s.takes m R.reset_RST_REQ = true ∧ s.rstRefusal reach.toNat target.toNat ≠ 0) ∧
    (∃ (s : State) (m : _) (c : _), s.takes m R.reset_RST_REQ = true ∧ s.rst.fuseOk = true ∧ s.rst.asserted = 0 ∧ s.rst.loading = false ∧ c < 8 ∧ s.rstRefusal 2 c = 0) ∧
    (∃ (s : State) (m : _) (val : _), s.takes m R.reset_RST_HOLD = true ∧ fld val 31 18 = 0 ∧ s.holdRefused val = [] ∧ val &&& ~~~ s.rd R.reset_RST_HOLD = 0) ∧
    (∃ (s : State) (m : _) (b : _), s.takes m R.reset_RST_HOLD = true ∧ s.rst.asserted = 0 ∧ b < 18 ∧ s.rd R.reset_RST_HOLD = 0 ∧ s.holdRefused (BitVec.ofNat 32 (2 ^ b)) = []) ∧
    (∃ (s : State) (m : _) (b : _), s.takes m R.reset_RST_HOLD = true ∧ b < 18 ∧ s.rd R.reset_RST_HOLD = 0 ∧ s.blockInService b = true) ∧
    (∃ (s : State) (straps : BitVec 5), s.rst.asserted = 1 ∧ s.reach = 5 ∧ s.rst.pins.getLsbD 0 = false ∧ straps.toNat / 4 % 4 ≠ 0) ∧
    (∃ (s : State) (straps : BitVec 5), s.rst.asserted = 1 ∧ s.reach = 5 ∧ s.rst.pins.getLsbD 0 = false ∧ straps.toNat / 4 % 4 = 0) ∧
    (∃ (s : State) (src : Fin 9), (s.rst.asserted.getLsbD src = false ∨ s.rst.pins.getLsbD src = true)) :=
  ⟨⟨(poke (fill ({ (serving prog [(0, { servs := [sv] }), (9, { servs := [sv] })] : State) with br := [(2, { txq := [], dseq := 4 })], sin := { state := 4 } }) 0x01812345 [1, 2, 3]) [(R.fuse_REACH_TBL, 0)]), by decide +kernel⟩,
    ⟨(poke (fill ({ (serving prog [(0, { servs := [sv] }), (9, { servs := [sv] })] : State) with br := [(2, { txq := [], dseq := 4 })], sin := { state := 4 } }) 0x01812345 [1, 2, 3]) [(R.fuse_REACH_TBL, 0x28)]), by decide +kernel⟩,
    ⟨(poke (fill ({ (serving prog [(0, { servs := [sv] }), (9, { servs := [sv] })] : State) with br := [(2, { txq := [], dseq := 4 })], sin := { state := 4 } }) 0x01812345 [1, 2, 3]) [(R.fuse_REACH_TBL, 0x20)]), by decide +kernel⟩,
    ⟨(poke (fill ({ (serving prog [(0, { servs := [sv] }), (9, { servs := [sv] })] : State) with br := [(2, { txq := [], dseq := 4 })], sin := { state := 4 } }) 0x01812345 [1, 2, 3]) [(R.fuse_REACH_TBL, 0xC0)]), by decide +kernel⟩,
    ⟨(poke (fill ({ (serving prog [(0, { servs := [sv] }), (9, { servs := [sv] })] : State) with br := [(2, { txq := [], dseq := 4 })], sin := { state := 4 } }) 0x01812345 [1, 2, 3]) [(R.fuse_REACH_TBL, 0x600)]), by decide +kernel⟩,
    ⟨(poke (fill ({ (serving prog [(0, { servs := [sv] }), (9, { servs := [sv] })] : State) with br := [(2, { txq := [], dseq := 4 })], sin := { state := 4 } }) 0x01812345 [1, 2, 3]) [(R.fuse_REACH_TBL, 0x1000000)]), by decide +kernel⟩,
    ⟨0, (Instr.por 0 false), 0, by decide +kernel⟩,
    ⟨live, .host, 2, 9, by decide +kernel⟩,
    ⟨(poke (poke (fill ({ (serving prog [(0, { servs := [sv] }), (9, { servs := [sv] })] : State) with br := [(2, { txq := [], dseq := 4 })], sin := { state := 4 } }) 0x01812345 [1, 2, 3]) [(R.fuse_REACH_TBL, 0)]) [(R.lahar_GRAPH_STAT, 0)]), .host, 0, by decide +kernel⟩,
    ⟨(poke (live) [(R.reset_RST_HOLD, 7)]), .host, 5, by decide +kernel⟩,
    ⟨live, .host, 3, by decide +kernel⟩,
    ⟨(poke (live) [(R.branch_BRCFG 3, 1)]), .host, 3, by decide +kernel⟩,
    ⟨({ (live : State) with rst := { asserted := 1, acts := [(0, 5)], causes := 9 } }), 0x14, by decide +kernel⟩,
    ⟨({ (live : State) with rst := { asserted := 1, acts := [(0, 5)], causes := 9 } }), 0x11, by decide +kernel⟩,
    ⟨live, 3, by decide +kernel⟩⟩

set_option maxRecDepth 100000 in
/-- Inputs that meet the hypotheses of ResetExit, clause by clause. -/
theorem witness_ResetExit :
    (∃ (s : State) (t : _) (d : _), (s.tick t).wdogElapsed = some d ∧ s.wdogTimeout ≤ 2 * d ∧ s.rst.wdogWarned = false) ∧
    (∃ (s : State) (t : _) (d : _), (s.tick t).wdogElapsed = some d ∧ s.wdogTimeout ≤ d ∧ s.rst.fuseOk = true ∧ s.rst.asserted = 0 ∧ s.reachEntry 5 = 3) ∧
    (∃ (s : State) (t : _) (d : _), (s.tick t).wdogElapsed = some d ∧ d < s.wdogTimeout) ∧
    (∃ (s : State) (t : _) (x : _), s.takes .host (R.IRQ_STAT P.reset) = true ∧ s.rst.wdogSince = some x ∧ (Tab.get s.hwSet (R.IRQ_STAT P.reset) (0, 0)).1 ≠ ecyc (s.tick t).now) ∧
    (∃ (s : State) (c0 : _), s.rst.loading = true ∧ fuseGood c0 = true) ∧
    (∃ (s : State) (c0 : _) (c1 : _), s.rst.loading = true ∧ fuseGood c0 = false ∧ fuseGood c1 = true) ∧
    (∃ (s : State) (c0 : _) (c1 : _), s.rst.loading = true ∧ fuseGood c0 = false ∧ fuseGood c1 = false) ∧
    (∃ (s : State), s.rst.exitStep = 1 ∧ s.f R.fuse_STRAPS 3 2 ≠ 1) ∧
    (∃ (s : State), s.rst.exitStep = 1 ∧ s.rst.fuseOk = true ∧ s.rst.pllLock = true) ∧
    (∃ (s : State), s.rst.exitStep = 3 ∧ 3 ≤ s.rst.exitReach ∧ s.coreInReset = false) ∧
    (∃ (s : State), s.rst.exitStep = 4 ∧ 3 ≤ s.rst.exitReach ∧ s.coreInReset = false) ∧
    (∃ (s : State), s.rst.exitStep = 5 ∧ 4 ≤ s.rst.exitReach ∧ s.coreInReset = false ∧ s.rst.noBoot = false ∧ s.rst.resync = false ∧ s.rst.safeBoot = false ∧ s.b R.fuse_BOOT_OPT 0 = false ∧ s.f R.fuse_STRAPS 1 0 = 1) ∧
    (∃ (s : State), s.rst.exitStep = 5 ∧ 3 ≤ s.rst.exitReach ∧ s.coreInReset = false ∧ s.rst.resync = true) ∧
    (∃ (s : State), s.rst.exitStep = 6 ∧ s.sin.state = 1 ∧ s.rst.safeBoot = false) ∧
    (∃ (s : State) (t : _), (s.tick t).stepReady = false) :=
  ⟨⟨({ (poke (live) [(R.reset_WDOG_CFG, 0x10001)] : State) with rst := { live.rst with wdogSince := some 0 }, now := 6000000 }), 0, 6000000, by decide +kernel⟩,
    ⟨({ (poke (live) [(R.reset_WDOG_CFG, 0x10001), (R.fuse_REACH_TBL, 0x18000)] : State) with rst := { live.rst with wdogSince := some 0 }, now := 12000000 }), 0, 12000000, by decide +kernel⟩,
    ⟨({ (poke (live) [(R.reset_WDOG_CFG, 0x10001)] : State) with rst := { live.rst with wdogSince := some 0 }, now := 6000000 }), 0, 6000000, by decide +kernel⟩,
    ⟨(poke ({ (poke (live) [(R.reset_WDOG_CFG, 0x10001)] : State) with rst := { live.rst with wdogSince := some 0 }, now := 6000000 }) [(R.IRQ_STAT P.reset, 0x100)]), 0, 0, by decide +kernel⟩,
    ⟨({ (poke (live) [] : State) with rst := { loading := true } }), copyW, by decide +kernel⟩,
    ⟨({ (poke (live) [] : State) with rst := { loading := true } }), ([]), copyW, by decide +kernel⟩,
    ⟨({ (poke (live) [] : State) with rst := { loading := true } }), ([5]), ([]), by decide +kernel⟩,
    ⟨({ (poke (live) [] : State) with rst := { exitStep := 1 } }), by decide +kernel⟩,
    ⟨({ (poke (live) [] : State) with rst := { exitStep := 1, loading := false, fuseOk := true, pllLock := true } }), by decide +kernel⟩,
    ⟨({ (poke (live) [(R.invarCore_FREQ_TRIM, 77), (R.invarCore_STAT, 3)] : State) with rst := { exitStep := 3, loading := false, fuseOk := true, pllLock := true, exitReach := 4, wdogSince := none } }), by decide +kernel⟩,
    ⟨({ (poke (live) [] : State) with rst := { exitStep := 4, loading := false, fuseOk := true, pllLock := true, exitReach := 4, wdogSince := none } }), by decide +kernel⟩,
    ⟨({ (poke (live) [(R.fuse_STRAPS, 1), (R.reset_WDOG_CFG, 0x10001)] : State) with rst := { exitStep := 5, loading := false, fuseOk := true, pllLock := true, exitReach := 4, wdogSince := none } }), by decide +kernel⟩,
    ⟨({ (poke (live) [] : State) with rst := { exitStep := 5, loading := false, fuseOk := true, pllLock := true, exitReach := 4, wdogSince := none, resync := true, noBoot := true } }), by decide +kernel⟩,
    ⟨({ ({ (poke (live) [] : State) with rst := { exitStep := 6, loading := false, fuseOk := true, pllLock := true, exitReach := 4, wdogSince := none } } : State) with sin := { state := 1 } }), by decide +kernel⟩,
    ⟨({ (poke (live) [] : State) with rst := { exitStep := 1 } }), 0, by decide +kernel⟩⟩

/-- Inputs that meet the hypotheses of FlashBoot, clause by clause. -/
theorem witness_FlashBoot :
    (∃ (s : State) (l : _), s.booting = true ∧ s.rst.image = [] ∧ bootHeaderOk l = true ∧ bootCrcOk l = true) ∧
    (∃ (s : State) (l : _), s.booting = true ∧ s.rst.image = [] ∧ (bootHeaderOk l && bootCrcOk l) = false ∧ s.b R.fuse_BOOT_STAT 8 = false) ∧
    (∃ (s : State) (l : _), s.booting = true ∧ s.rst.image = [] ∧ (bootHeaderOk l && bootCrcOk l) = false ∧ s.b R.fuse_BOOT_STAT 8 = true) ∧
    (∃ (s : State) (w : _) (a : _), w = dle s.rst.image s.rst.bootOff 8 ∧ a = bootAddr w ∧ s.booting = true ∧ s.rst.image ≠ [] ∧ s.rst.bootWait = none ∧ bootBad s.rst.image s.rst.bootOff s.bootRec = false ∧ bootType w = 1 ∧ bootLen w = 8 ∧ 0x01000000 ≤ a ∧ a < 0x01800000 ∧ s.coreInReset = false ∧ s.rst.safeBoot = false ∧ s.pairDiscards .host = false ∧ s.windowAt a = none ∧ s.isStat a = false) ∧
    (∃ (s : State), s.booting = true ∧ s.rst.image ≠ [] ∧ s.rst.bootWait = none ∧ bootBad s.rst.image s.rst.bootOff s.bootRec = true) ∧
    (∃ (s : State) (w : _), w = dle s.rst.image s.rst.bootOff 8 ∧ s.booting = true ∧ s.rst.image ≠ [] ∧ s.rst.bootWait = none ∧ bootBad s.rst.image s.rst.bootOff s.bootRec = false ∧ bootType w = 2) ∧
    (∃ (s : State) (t : _) (x : _), s.booting = true ∧ s.rst.bootWait = some x ∧ x ≤ (s.tick t).now) ∧
    (∃ (s : State), s.booting = true ∧ s.rst.image ≠ [] ∧ s.rst.bootWait = none ∧ bootBad s.rst.image s.rst.bootOff s.bootRec = false ∧ bootType (dle s.rst.image s.rst.bootOff 8) = 3) :=
  ⟨⟨(poke (live) [(R.fuse_BOOT_STAT, 1)]), bootImage, by decide +kernel⟩,
    ⟨(poke (live) [(R.fuse_BOOT_STAT, 1)]), (bootImage.set 3 0), by decide +kernel⟩,
    ⟨(poke (live) [(R.fuse_BOOT_STAT, 0x101)]), (bootImage.set 3 0), by decide +kernel⟩,
    ⟨({ (poke (live) [(R.fuse_BOOT_STAT, 0x1)] : State) with rst := { loading := false, exitStep := 0, fuseOk := true, image := bootImage, bootOff := 32 } }), _, _, rfl, rfl, by decide +kernel⟩,
    ⟨({ (poke (live) [(R.fuse_BOOT_STAT, 0x20001)] : State) with rst := { loading := false, exitStep := 0, fuseOk := true, image := bootImage, bootOff := 32 } }), by decide +kernel⟩,
    ⟨({ (poke (live) [(R.fuse_BOOT_STAT, 0x10001)] : State) with rst := { loading := false, exitStep := 0, fuseOk := true, image := bootImage, bootOff := 48 } }), _, rfl, by decide +kernel⟩,
    ⟨({ (poke (live) [(R.fuse_BOOT_STAT, 0x10001)] : State) with rst := { loading := false, exitStep := 0, fuseOk := true, image := bootImage, bootOff := 48, bootWait := some 7 } }), 0, 7, by decide +kernel⟩,
    ⟨({ (poke (live) [(R.fuse_BOOT_STAT, 0x20001)] : State) with rst := { loading := false, exitStep := 0, fuseOk := true, image := bootImage, bootOff := 56 } }), by decide +kernel⟩⟩

/-- Inputs that meet the hypotheses of HostAccesses, clause by clause. -/
theorem witness_HostAccesses :
    (∃ (s : State) (m : _) (a : BitVec 25) (k : _) (n : _) (r : _), s.takes m a.toNat = true ∧ a.toNat % 4 = 0 ∧ 0x40 ≤ a.toNat % 0x1000 ∧ pageKind (a.toNat / 0x1000) = some (k, n) ∧ a.toNat < 0x800000 ∧ k ∈ [.fuse, .invarPtp, .invarEv, .sinClass, .sinNode, .pcie, .lpSrc, .ae, .geyCommon, .geyChan, .crater, .lvCommon, .lvPort, .cell, .perfCell] ∧ rowOf a.toNat = some r) ∧
    (∃ (s : State) (m : _) (a : BitVec 25), s.barOpen m = true ∧ a.toNat < 0x800000 ∧ pageKind (a.toNat / 0x1000) = none ∧ s.b R.chip_ERR_INFO 0 = false) ∧
    (∃ (s : State) (m : _) (a : BitVec 25), s.barOpen m = true ∧ 0x01000000 ≤ a.toNat ∧ a.toNat < 0x01800000 ∧ a.toNat % 8 = 0 ∧ s.coreInReset = false ∧ s.rst.safeBoot = false ∧ s.windowAt a.toNat = none ∧ s.eccAt a.toNat = .good) ∧
    (∃ (s : State) (m : _) (a : BitVec 25) (data : List Byte), s.barOpen m = true ∧ 0x01000000 ≤ a.toNat ∧ a.toNat < 0x01800000 ∧ a.toNat % 8 = 0 ∧ s.coreInReset = false ∧ s.rst.safeBoot = false ∧ s.windowAt a.toNat = none ∧ s.pairDiscards m = false ∧ data.length = 8 ∧ (m = .host → s.isStat a.toNat = false)) ∧
    (∃ (s : State), s.barOpen .host = false) ∧
    (∃ (s : State), s.endpointInReset = false) ∧
    (∃ (s : State) (m : _) (hi : _), s.takes m (R.router_VEC_ARM (b2n hi)) = true ∧ (∀ v, s.vecAsserted v = false)) ∧
    (∃ (s : State) (m : _) (hi : _) (i : _), s.takes m (R.router_VEC_ARM (b2n hi)) = true ∧ i < 32 ∧ s.vecAsserted (32 * b2n hi + i) = true ∧ s.msixOpen (32 * b2n hi + i) = true ∧ (s.b R.lvCommon_LVSTAT 6 && !s.b R.lvCommon_LVSTAT 7) = false) ∧
    (∃ (s : State), s.endpointInReset = false) ∧
    (∃ (s : State), s.endpointInReset = false) ∧
    (∃ (off : _), off < 0x30000) ∧
    (∃ (a : BitVec 25), 0x01000000 ≤ a.toNat) ∧
    (∃ (s : State) (a : BitVec 25), 0x01000000 ≤ a.toNat ∧ a.toNat < 0x01800000 ∧ s.eccAt a.toNat = .good ∧ s.f (R.sinClass_RESP 3) 2 0 = 0) :=
  ⟨⟨live, .host, (BitVec.ofNat 25 (R.invarEv_PERIOD 3)), .invarEv, 0, ((rowOf (R.invarEv_PERIOD 3)).getD ⟨0, 0, 0, .ro, 0, 0, false⟩), by decide +kernel⟩,
    ⟨live, .host, 0x700000, by decide +kernel⟩,
    ⟨(fill live 0x01234568 [1, 2, 3]), .host, 0x01234568, by decide +kernel⟩,
    ⟨(fill live 0x01234560 (List.replicate 32 9)), .host, 0x01234568, ([1, 2, 3, 4, 5, 6, 7, 8]), by decide +kernel⟩,
    ⟨({ (live : State) with pcie := {} }), by decide +kernel⟩,
    ⟨live, by decide +kernel⟩,
    ⟨(poke (live) [(R.router_VEC_ARM 1, 1)]), .host, true, by decide +kernel, fun _ => rfl⟩,
    ⟨(poke (live) [(R.router_REMOTE_PEND 0, 2), (R.router_CASC_ROUTE 0, 0xA300), (R.msix_TBL_ADDR_W0 35, 0x1230), (R.msix_TBL_DATA 35, 77), (R.msix_TBL_CTL 35, 0)]), .host, true, 3, by decide +kernel⟩,
    ⟨({ live with freeCtr := 2 }), by decide +kernel⟩,
    ⟨live, by decide +kernel⟩,
    ⟨0x2FFF8, by decide +kernel⟩,
    ⟨0x01234568, by decide +kernel⟩,
    ⟨(fill live 0x01234568 [1, 2, 3]), 0x01234568, by decide +kernel⟩⟩

/-- Inputs that meet the hypotheses of TlbInvalidation, clause by clause. -/
theorem witness_TlbInvalidation :
    (∃ (s : State) (m : _) (val : W32), s.takes m R.xlCommon_TLB_INV = true ∧ s.xl.inv = none ∧ fld val 1 0 ≠ 3) ∧
    (∃ (s : State) (m : _) (val : W32), s.takes m R.xlCommon_TLB_INV = true ∧ (s.xl.inv ≠ none ∨ fld val 1 0 = 3)) ∧
    (∃ (s : State) (w : _) (vpn : _), s.xl.inv = some (w, vpn) ∧ (s.engs.any fun x => x.2.hasStale) = false) ∧
    (∃ (s : State), (s.xl.inv = none ∨ (s.engs.any fun x => x.2.hasStale) = true)) ∧
    (∃ (w : W32), fld w 1 0 = 0) ∧
    (∃ (w : W32), fld w 1 0 = 1) :=
  ⟨⟨({ (mapped (farRunning 0) : State) with xl := { tlb := [(0, [{ bank := 0, ctx := 1, big := false, vpn := 2, pte := 0x0100001F }, { bank := 0, ctx := 2, big := false, vpn := 2, pte := 0x0100001F }])], inv := none } }), .host, 0x101, by decide +kernel⟩,
    ⟨live, .host, 3, by decide +kernel⟩,
    ⟨({ (farRunning 0 : State) with xl := { tlb := [(0, [{ bank := 0, ctx := 1, big := false, vpn := 2, pte := 0x0100001F }, { bank := 0, ctx := 2, big := false, vpn := 2, pte := 0x0100001F }])], inv := some (0x101, 2) } }), 0x101, 2, by decide +kernel⟩,
    ⟨live, by decide +kernel⟩,
    ⟨0, by decide +kernel⟩,
    ⟨0x101, by decide +kernel⟩⟩

/-- Inputs that meet the hypotheses of DmaChannelCommands, clause by clause. -/
theorem witness_DmaChannelCommands :
    (∃ (s : State) (m : _) (c : Fin 16) (val : BitVec 16), s.takes m (R.dma_TAIL c) = true ∧ (val.toNat + 65536 - s.chHead c) % 65536 ≤ s.chSize c) ∧
    (∃ (s : State) (m : _) (c : Fin 16) (val : BitVec 16), s.takes m (R.dma_TAIL c) = true ∧ s.chSize c < (val.toNat + 65536 - s.chHead c) % 65536) ∧
    (∃ (s : State) (t : _) (m : _) (c : Fin 16) (i : _), s.takes m (R.dma_CH_CMD c) = true ∧ s.chHeld c = false ∧ i ∈ [Instr.chCmdResume t m c, .chCmdSkip t m c, .chCmdReset t m c]) ∧
    (∃ (s : State) (m : _) (c : Fin 16), s.takes m (R.dma_CH_CMD c) = true ∧ s.chState c = 4) ∧
    (∃ (s : State) (m : _) (c : Fin 16), s.takes m (R.dma_CH_CMD c) = true ∧ s.chState c = 5 ∧ s.f (R.dma_CH_STAT c) 7 4 = 1) ∧
    (∃ (s : State) (m : _) (c : Fin 16), s.takes m (R.dma_CH_CMD c) = true ∧ (s.chState c = 2 ∨ s.chState c = 3) ∧ (s.dmaCh c).elems ≠ []) ∧
    (∃ (s : State) (m : _) (c : Fin 16), s.takes m (R.dma_CH_CMD c) = true ∧ (s.chState c = 2 ∨ s.chState c = 3) ∧ (s.dmaCh c).elems = [] ∧ s.chEn c = true) ∧
    (∃ (s : State) (m : _) (c : Fin 16), s.takes m (R.dma_CH_CMD c) = true ∧ s.chHeld c = true ∧ s.chTail c ≠ s.chHead c) ∧
    (∃ (s : State) (m : _) (c : Fin 16), s.takes m (R.dma_CH_CMD c) = true ∧ s.chHeld c = true) :=
  ⟨⟨({ (poke (live) [(R.dma_CH_STAT 5, 1), (R.dma_CH_CFG 5, 0x31), (R.dma_RING_W0 5, 0x2000), (R.dma_RING_W1 5, 1), (R.dma_HEAD 5, 0xFFFF), (R.dma_BYTES 5, 100)] : State) with dma := [(5, {  })] }), .host, 5, 7, by decide +kernel⟩,
    ⟨({ (poke (live) [(R.dma_CH_STAT 5, 1), (R.dma_CH_CFG 5, 0x31), (R.dma_RING_W0 5, 0x2000), (R.dma_RING_W1 5, 1), (R.dma_HEAD 5, 0xFFFF), (R.dma_BYTES 5, 100)] : State) with dma := [(5, {  })] }), .host, 5, 0xFFFE, by decide +kernel⟩,
    ⟨({ (poke (live) [(R.dma_CH_STAT 5, 0), (R.dma_CH_CFG 5, 0x31), (R.dma_RING_W0 5, 0x2000), (R.dma_RING_W1 5, 1), (R.dma_HEAD 5, 0xFFFF), (R.dma_BYTES 5, 100)] : State) with dma := [(5, {  })] }), 0, .host, 5, (Instr.chCmdResume 0 .host 5), by decide +kernel⟩,
    ⟨({ (poke (live) [(R.dma_CH_STAT 5, 0x4), (R.dma_CH_CFG 5, 0x31), (R.dma_RING_W0 5, 0x2000), (R.dma_RING_W1 5, 1), (R.dma_HEAD 5, 0xFFFF), (R.dma_BYTES 5, 100), (R.dma_TAIL 5, 2)] : State) with dma := [(5, {  })] }), .host, 5, by decide +kernel⟩,
    ⟨({ (poke (live) [(R.dma_CH_STAT 5, 0x315), (R.dma_CH_CFG 5, 0x31), (R.dma_RING_W0 5, 0x2000), (R.dma_RING_W1 5, 1), (R.dma_HEAD 5, 0xFFFF), (R.dma_BYTES 5, 100), (R.dma_TAIL 5, 2)] : State) with dma := [(5, { started := 5 })] }), .host, 5, by decide +kernel⟩,
    ⟨({ (poke (live) [(R.dma_CH_STAT 5, 2), (R.dma_CH_CFG 5, 0x31), (R.dma_RING_W0 5, 0x2000), (R.dma_RING_W1 5, 1), (R.dma_HEAD 5, 0xFFFF), (R.dma_BYTES 5, 100), (R.dma_TAIL 5, 2)] : State) with dma := [(5, { elems := [{ len := 64, src := { host := true, addr := 5 }, dst := { host := true, addr := 0x01234500 }, sa := 5, da := 0x01234500, axis := none, data := none, fail := none }] })] }), .host, 5, by decide +kernel⟩,
    ⟨({ (poke (live) [(R.dma_CH_STAT 5, 2), (R.dma_CH_CFG 5, 0x31), (R.dma_RING_W0 5, 0x2000), (R.dma_RING_W1 5, 1), (R.dma_HEAD 5, 0xFFFF), (R.dma_BYTES 5, 100), (R.dma_TAIL 5, 2)] : State) with dma := [(5, { started := 4 })] }), .host, 5, by decide +kernel⟩,
    ⟨({ (poke (live) [(R.dma_CH_STAT 5, 4), (R.dma_CH_CFG 5, 0x31), (R.dma_RING_W0 5, 0x2000), (R.dma_RING_W1 5, 1), (R.dma_HEAD 5, 0xFFFF), (R.dma_BYTES 5, 100), (R.dma_TAIL 5, 2)] : State) with dma := [(5, { started := 4 })] }), .host, 5, by decide +kernel⟩,
    ⟨({ (poke (live) [(R.dma_CH_STAT 5, 0x345), (R.dma_CH_CFG 5, 0x31), (R.dma_RING_W0 5, 0x2000), (R.dma_RING_W1 5, 1), (R.dma_HEAD 5, 0xFFFF), (R.dma_BYTES 5, 100), (R.dma_TAIL 5, 2)] : State) with dma := [(5, { started := 4 })] }), .host, 5, by decide +kernel⟩⟩

/-- Inputs that meet the hypotheses of DmaElements, clause by clause. -/
theorem witness_DmaElements :
    (∃ (s : State) (d : List Byte) (c : _), s.dmaOpen = true ∧ s.dmaPick = some c ∧ s.dmaCh c = {} ∧ s.dma.foldl (fun n e => n + e.2.elems.length) 0 < 16 ∧ d.length = 32 ∧ s.descCheck d = 0 ∧ descOp d = 1 ∧ descXd d = false ∧ s.chState c = 2 ∧ c < 16) ∧
    (∃ (s : State) (d : List Byte) (c : _), s.dmaOpen = true ∧ s.dmaPick = some c ∧ s.dmaCh c = {} ∧ s.dma.foldl (fun n e => n + e.2.elems.length) 0 < 16 ∧ d.length = 32 ∧ s.descCheck d ≠ 0 ∧ c < 16) ∧
    (∃ (s : State), (s.dmaOpen = false ∨ s.dmaPick = none)) ∧
    (∃ (s : State) (c : Fin 16) (e : _) (r : _), (s.dmaCh c).elems = e :: r ∧ e.data = none ∧ e.fail = none) ∧
    (∃ (s : State) (c : Fin 16) (e : _) (r : _), (s.dmaCh c).elems = e :: r ∧ e.data = none ∧ e.fail = none ∧ e.axis = none ∧ (∀ x ∈ r, x.axis = none)) ∧
    (∃ (s : State) (c : Fin 16) (e : _) (r : _), (s.dmaCh c).elems = e :: r ∧ e.data = none ∧ e.fail = none ∧ e.axis = none ∧ (∀ x ∈ r, x.axis = none)) ∧
    (∃ (s : State) (c : Fin 16) (e : _) (r : _) (l : _) (d : _), s.blockInReset 0x0E = false ∧ (s.dmaCh c).elems = e :: r ∧ e.data = some l ∧ e.fail = none ∧ e.dst.host = true ∧ e.axis = none ∧ (s.dmaCh c).desc = some d ∧ s.f (R.dma_BYTES c) 23 0 + e.len < descBytes d ∧ s.f (R.dma_BYTES c) 23 0 + e.len < 2 ^ 24 ∧ s.chEn c = true ∧ (s.dmaCh c).stop = false ∧ (∀ x ∈ r, x.fail = none)) ∧
    (∃ (s : State) (c : Fin 16) (e : _) (l : _) (d : _), s.blockInReset 0x0E = false ∧ (s.dmaCh c).elems = [e] ∧ e.data = some l ∧ e.fail = none ∧ e.dst.host = true ∧ e.axis = none ∧ (s.dmaCh c).desc = some d ∧ descBytes d = s.f (R.dma_BYTES c) 23 0 + e.len ∧ s.chEn c = true ∧ (s.dmaCh c).stop = false) :=
  ⟨⟨(poke ({ ({ (poke (live) [(R.dma_CH_STAT 5, 2), (R.dma_CH_CFG 5, 0x31), (R.dma_RING_W0 5, 0x2000), (R.dma_RING_W1 5, 1), (R.dma_HEAD 5, 0xFFFF), (R.dma_BYTES 5, 100), (R.dma_TAIL 5, 2)] : State) with dma := [(5, {  })] } : State) with dma := [] }) [(R.dma_BYTES 5, 0)]), ((natLe 4 0x101 ++ natLe 4 300 ++ natLe 8 0x123456789000 ++ natLe 8 0x1234580) ++ natLe 8 0), 5, by decide +kernel⟩,
    ⟨({ ({ (poke (live) [(R.dma_CH_STAT 5, 2), (R.dma_CH_CFG 5, 0x31), (R.dma_RING_W0 5, 0x2000), (R.dma_RING_W1 5, 1), (R.dma_HEAD 5, 0xFFFF), (R.dma_BYTES 5, 100), (R.dma_TAIL 5, 2)] : State) with dma := [(5, {  })] } : State) with dma := [] }), ((natLe 4 0x101 ++ natLe 4 0 ++ natLe 8 0x123456789000 ++ natLe 8 0x1234580) ++ natLe 8 0), 5, by decide +kernel⟩,
    ⟨live, by decide +kernel⟩,
    ⟨({ (poke (live) [(R.dma_CH_STAT 5, 2), (R.dma_CH_CFG 5, 0x31), (R.dma_RING_W0 5, 0x2000), (R.dma_RING_W1 5, 1), (R.dma_HEAD 5, 0xFFFF), (R.dma_BYTES 5, 100), (R.dma_TAIL 5, 2)] : State) with dma := [(5, { elems := [{ len := 64, src := { host := true, addr := 5 }, dst := { host := false, addr := 0x01234500 }, sa := 5, da := 0x01234500, axis := none, data := none, fail := none }, { len := 64, src := { host := true, addr := 5 }, dst := { host := false, addr := 0x01234500 }, sa := 5, da := 0x01234500, axis := none, data := none, fail := none }] })] }), 5, ({ len := 64, src := { host := true, addr := 5 }, dst := { host := false, addr := 0x01234500 }, sa := 5, da := 0x01234500, axis := none, data := none, fail := none }), ([{ len := 64, src := { host := true, addr := 5 }, dst := { host := false, addr := 0x01234500 }, sa := 5, da := 0x01234500, axis := none, data := none, fail := none }]), by decide +kernel⟩,
    ⟨({ (poke (live) [(R.dma_CH_STAT 5, 2), (R.dma_CH_CFG 5, 0x31), (R.dma_RING_W0 5, 0x2000), (R.dma_RING_W1 5, 1), (R.dma_HEAD 5, 0xFFFF), (R.dma_BYTES 5, 100), (R.dma_TAIL 5, 2)] : State) with dma := [(5, { desc := some (natLe 4 0x102 ++ natLe 4 164 ++ natLe 8 0x123456789000 ++ natLe 8 0x01234500), elems := [{ len := 64, src := { host := true, addr := 5 }, dst := { host := false, addr := 0x01234500 }, sa := 5, da := 0x01234500, axis := none, data := none, fail := none }, { len := 64, src := { host := true, addr := 5 }, dst := { host := false, addr := 0x01234500 }, sa := 5, da := 0x01234500, axis := none, data := none, fail := none }] })] }), 5, ({ len := 64, src := { host := true, addr := 5 }, dst := { host := false, addr := 0x01234500 }, sa := 5, da := 0x01234500, axis := none, data := none, fail := none }), ([{ len := 64, src := { host := true, addr := 5 }, dst := { host := false, addr := 0x01234500 }, sa := 5, da := 0x01234500, axis := none, data := none, fail := none }]), by decide +kernel⟩,
    ⟨({ (poke (live) [(R.dma_CH_STAT 5, 2), (R.dma_CH_CFG 5, 0x31), (R.dma_RING_W0 5, 0x2000), (R.dma_RING_W1 5, 1), (R.dma_HEAD 5, 0xFFFF), (R.dma_BYTES 5, 100), (R.dma_TAIL 5, 2)] : State) with dma := [(5, { desc := some (natLe 4 0x102 ++ natLe 4 164 ++ natLe 8 0x123456789000 ++ natLe 8 0x01234500), elems := [{ len := 64, src := { host := true, addr := 5 }, dst := { host := false, addr := 0x01234500 }, sa := 5, da := 0x01234500, axis := none, data := none, fail := none }, { len := 64, src := { host := true, addr := 5 }, dst := { host := false, addr := 0x01234500 }, sa := 5, da := 0x01234500, axis := none, data := none, fail := none }] })] }), 5, ({ len := 64, src := { host := true, addr := 5 }, dst := { host := false, addr := 0x01234500 }, sa := 5, da := 0x01234500, axis := none, data := none, fail := none }), ([{ len := 64, src := { host := true, addr := 5 }, dst := { host := false, addr := 0x01234500 }, sa := 5, da := 0x01234500, axis := none, data := none, fail := none }]), by decide +kernel⟩,
    ⟨({ (poke (live) [(R.dma_CH_STAT 5, 2), (R.dma_CH_CFG 5, 0x31), (R.dma_RING_W0 5, 0x2000), (R.dma_RING_W1 5, 1), (R.dma_HEAD 5, 0xFFFF), (R.dma_BYTES 5, 100), (R.dma_TAIL 5, 2)] : State) with dma := [(5, { desc := some (natLe 4 0x102 ++ natLe 4 264 ++ natLe 8 0x123456789000 ++ natLe 8 0x01234500), elems := [{ len := 64, src := { host := true, addr := 5 }, dst := { host := true, addr := 0x01234500 }, sa := 5, da := 0x01234500, axis := none, data := some [1, 2], fail := none }, { len := 64, src := { host := true, addr := 5 }, dst := { host := true, addr := 0x01234500 }, sa := 5, da := 0x01234500, axis := none, data := none, fail := none }] })] }), 5, ({ len := 64, src := { host := true, addr := 5 }, dst := { host := true, addr := 0x01234500 }, sa := 5, da := 0x01234500, axis := none, data := some [1, 2], fail := none }), ([{ len := 64, src := { host := true, addr := 5 }, dst := { host := true, addr := 0x01234500 }, sa := 5, da := 0x01234500, axis := none, data := none, fail := none }]), ([1, 2]), ((natLe 4 0x102 ++ natLe 4 264 ++ natLe 8 0x123456789000 ++ natLe 8 0x01234500)), by decide +kernel⟩,
    ⟨({ (poke (live) [(R.dma_CH_STAT 5, 2), (R.dma_CH_CFG 5, 0x31), (R.dma_RING_W0 5, 0x2000), (R.dma_RING_W1 5, 1), (R.dma_HEAD 5, 0xFFFF), (R.dma_BYTES 5, 100), (R.dma_TAIL 5, 2)] : State) with dma := [(5, { desc := some (natLe 4 0x102 ++ natLe 4 164 ++ natLe 8 0x123456789000 ++ natLe 8 0x01234500), elems := [{ len := 64, src := { host := true, addr := 5 }, dst := { host := true, addr := 0x01234500 }, sa := 5, da := 0x01234500, axis := none, data := some [1, 2], fail := none }] })] }), 5, ({ len := 64, src := { host := true, addr := 5 }, dst := { host := true, addr := 0x01234500 }, sa := 5, da := 0x01234500, axis := none, data := some [1, 2], fail := none }), ([1, 2]), ((natLe 4 0x102 ++ natLe 4 164 ++ natLe 8 0x123456789000 ++ natLe 8 0x01234500)), by decide +kernel⟩⟩

/-- Inputs that meet the hypotheses of CanMessages, clause by clause. -/
theorem witness_CanMessages :
    (∃ (s : State) (n : Fin 2) (f : CanFrame) (b : _), s.canOn n = true ∧ (f.fdf = true → s.b (R.can_CCFG n) 2 = true) ∧ (s.canSt n).rxErr ≤ 127 ∧ ((List.range 64).filter fun b => s.mbMatch n b f).find? (fun b => !s.mbBit R.can_RXFULL n b) = some b) ∧
    (∃ (s : State) (n : Fin 2) (f : CanFrame), s.canOn n = true ∧ (f.fdf = true → s.b (R.can_CCFG n) 2 = true) ∧ (s.canSt n).rxErr ≤ 127 ∧ (∃ b, b < 64 ∧ s.mbMatch n b f = true) ∧ (∀ b, b < 64 → s.mbMatch n b f = true → s.mbBit R.can_RXFULL n b = true)) ∧
    (∃ (s : State) (n : Fin 2) (f : CanFrame), s.canOn n = true ∧ (f.fdf = true → s.b (R.can_CCFG n) 2 = true) ∧ (s.canSt n).rxErr ≤ 127 ∧ (∀ b, b < 64 → s.mbMatch n b f = false)) ∧
    (∃ (s : State) (n : Fin 2) (f : CanFrame), (s.canOn n = false ∨ (f.fdf = true ∧ s.b (R.can_CCFG n) 2 = false))) ∧
    (∃ (s : State) (t : _) (m : _) (n : Fin 2) (hi : _), s.takes m (R.can_RXFULL n (b2n hi)) = true ∧ (Tab.get s.hwSet (R.can_RXFULL n (b2n hi)) (0, 0)).1 ≠ ecyc (s.tick t).now) ∧
    (∃ (s : State) (m : _) (n : Fin 2) (hi : _), s.takes m (R.can_TXREQ n (b2n hi)) = true ∧ s.canListen n = false ∧ s.canEn n = true ∧ s.canRetired n = false) ∧
    (∃ (s : State) (m : _) (n : Fin 2) (hi : _) (bits : _), s.takes m (R.can_TXREQ n (b2n hi)) = true ∧ (s.canListen n || !s.canEn n || s.canRetired n) = true ∧ bits ≠ 0) ∧
    (∃ (s : State) (m : _) (n : Fin 2) (hi : _) (i : _), s.takes m (R.can_TXCAN n (b2n hi)) = true ∧ i < 32 ∧ s.mbBit R.can_TXREQ n (32 * b2n hi + i) = true ∧ (s.canSt n).cur ≠ some (32 * b2n hi + i)) ∧
    (∃ (s : State) (m : _) (n : Fin 2) (hi : _) (i : _), s.takes m (R.can_TXCAN n (b2n hi)) = true ∧ i < 32 ∧ s.mbBit R.can_TXREQ n (32 * b2n hi + i) = true ∧ (s.canSt n).cur = some (32 * b2n hi + i)) ∧
    (∃ (s : State) (n : Fin 2) (b : _), (s.canSt n).cur = some b ∧ b < 64) ∧
    (∃ (s : State) (n : Fin 2), (s.canSt n).cur = none) ∧
    (∃ (s : State) (n : Fin 2), (s.canSt n).cur = none ∧ (s.canSt n).offAfter = true) ∧
    (∃ (s : State) (n : Fin 2), (s.canSt n).offAfter = false ∨ (s.canSt n).cur ≠ none) :=
  ⟨⟨({ (poke (live) [(R.can_CCFG 1, 5), (R.can_MBBASE 1, 0x10000), (R.sinClass_FDCFG 8, 0x0A05), (R.can_MB_ID 1 34, 0x40000000), (R.can_MB_MASK 1 34, 0), (R.can_MB_ID 1 35, 0x40000000), (R.can_MB_MASK 1 35, 0), (R.can_RXFULL 1 1, 4)] : State) with can := [(1, { rxErr := 3 })] }), 1, ({ id := 0x1FFC0005, ide := true, rtr := false, dlc := 3, fdf := true, brs := false, esi := false, sofNs := 5, data := [1, 2, 3] }), 35, by decide +kernel⟩,
    ⟨({ (poke (live) [(R.can_CCFG 1, 5), (R.can_MBBASE 1, 0x10000), (R.sinClass_FDCFG 8, 0x0A05), (R.can_MB_ID 1 34, 0x40000000), (R.can_MB_MASK 1 34, 0), (R.can_MB_ID 1 35, 0x40000000), (R.can_MB_MASK 1 35, 0), (R.can_RXFULL 1 1, 12)] : State) with can := [(1, {  })] }), 1, ({ id := 0x1FFC0005, ide := true, rtr := false, dlc := 3, fdf := true, brs := false, esi := false, sofNs := 5, data := [1, 2, 3] }), by decide +kernel⟩,
    ⟨({ (poke (live) [(R.can_CCFG 1, 5), (R.can_MBBASE 1, 0x10000), (R.sinClass_FDCFG 8, 0x0A05)] : State) with can := [(1, {  })] }), 1, ({ id := 0x1FFC0005, ide := true, rtr := false, dlc := 3, fdf := true, brs := false, esi := false, sofNs := 5, data := [1, 2, 3] }), by decide +kernel⟩,
    ⟨live, 1, ({ id := 0x1FFC0005, ide := true, rtr := false, dlc := 3, fdf := false, brs := false, esi := false, sofNs := 5, data := [1, 2, 3] }), by decide +kernel⟩,
    ⟨({ (poke (live) [(R.can_CCFG 1, 5), (R.can_MBBASE 1, 0x10000), (R.sinClass_FDCFG 8, 0x0A05), (R.can_RXFULL 1 1, 15)] : State) with can := [(1, {  })] }), 0, .host, 1, true, by decide +kernel⟩,
    ⟨({ (poke (live) [(R.can_CCFG 1, 5), (R.can_MBBASE 1, 0x10000), (R.sinClass_FDCFG 8, 0x0A05), (R.can_MB_ID 1 34, 0x80000000), (R.can_MB_MASK 1 34, 0), (R.can_MB_ID 1 35, 0x40000000), (R.can_MB_MASK 1 35, 0)] : State) with can := [(1, { tries := [(34, 7)] })] }), .host, 1, true, by decide +kernel⟩,
    ⟨({ (poke (live) [(R.can_CCFG 1, 5), (R.can_MBBASE 1, 0x10000), (R.sinClass_FDCFG 8, 0x0A05), (R.can_CCFG 1, 7), (R.can_MB_ID 1 34, 0x80000000), (R.can_MB_MASK 1 34, 0)] : State) with can := [(1, {  })] }), .host, 1, true, 12, by decide +kernel⟩,
    ⟨({ (poke (live) [(R.can_CCFG 1, 5), (R.can_MBBASE 1, 0x10000), (R.sinClass_FDCFG 8, 0x0A05), (R.can_MB_ID 1 34, 0x80000000), (R.can_MB_MASK 1 34, 0), (R.can_TXREQ 1 1, 12)] : State) with can := [(1, { cur := some 3, tries := [(34, 7)] })] }), .host, 1, true, 2, by decide +kernel⟩,
    ⟨({ (poke (live) [(R.can_CCFG 1, 5), (R.can_MBBASE 1, 0x10000), (R.sinClass_FDCFG 8, 0x0A05), (R.can_MB_ID 1 34, 0x80000000), (R.can_MB_MASK 1 34, 0), (R.can_TXREQ 1 1, 12)] : State) with can := [(1, { cur := some 34, tries := [(34, 7)] })] }), .host, 1, true, 2, by decide +kernel⟩,
    ⟨({ (poke (live) [(R.can_CCFG 1, 5), (R.can_MBBASE 1, 0x10000), (R.sinClass_FDCFG 8, 0x0A05), (R.can_MB_ID 1 34, 0x80000000), (R.can_MB_MASK 1 34, 0), (R.can_MB_ID 1 35, 0x80000000), (R.can_MB_MASK 1 35, 0), (R.can_TXREQ 1 1, 12)] : State) with can := [(1, { cur := some 34, txErr := 0, rxErr := 0 })] }), 1, 34, by decide +kernel⟩,
    ⟨live, 1, by decide +kernel⟩,
    ⟨({ (poke (live) [(R.can_CCFG 1, 5), (R.can_MBBASE 1, 0x10000), (R.sinClass_FDCFG 8, 0x0A05), (R.can_MB_ID 1 34, 0x80000000), (R.can_MB_MASK 1 34, 0), (R.can_TXREQ 1 1, 12)] : State) with can := [(1, { offAfter := true })] }), 1, by decide +kernel⟩,
    ⟨live, 1, by decide +kernel⟩⟩

/-- Inputs that meet the hypotheses of CanErrors, clause by clause. -/
theorem witness_CanErrors :
    (∃ (s : State) (n : Fin 2) (b : _), (s.canSt n).cur = some b ∧ b < 64 ∧ (s.canSt n).txErr < 256 ∧ (s.f (R.can_CCFG n) 12 8 = 0 ∨ Tab.get (s.canSt n).tries b 0 + 1 < s.f (R.can_CCFG n) 12 8) ∧ s.mbBit R.can_TXCAN n b = false) ∧
    (∃ (s : State) (n : Fin 2) (b : _) (k : CanErr), (s.canSt n).cur = some b ∧ b < 64 ∧ (s.canSt n).txErr + 8 < 256 ∧ s.canState n < 2 ∧ (¬ (k = .ack ∧ s.canState n = 1)) ∧ (s.f (R.can_CCFG n) 12 8 = 0 ∨ Tab.get (s.canSt n).tries b 0 + 1 < s.f (R.can_CCFG n) 12 8) ∧ s.mbBit R.can_TXCAN n b = false) ∧
    (∃ (s : State) (n : Fin 2) (b : _), (s.canSt n).cur = some b ∧ b < 64 ∧ (s.canSt n).txErr + 8 < 256 ∧ 0 < s.f (R.can_CCFG n) 12 8 ∧ s.f (R.can_CCFG n) 12 8 ≤ Tab.get (s.canSt n).tries b 0 + 1) ∧
    (∃ (s : State) (n : Fin 2) (b : _) (k : CanErr), (s.canSt n).cur = some b ∧ b < 64 ∧ 256 ≤ (s.canSt n).txErr + 8 ∧ s.canState n < 2 ∧ (¬ (k = .ack ∧ s.canState n = 1)) ∧ s.f (R.can_CCFG n) 12 8 = 0 ∧ s.mbBit R.can_TXCAN n b = false ∧ s.mbBit R.can_TXREQ n b = true ∧ (s.fdCh 8 n).perm = false ∧ (s.fdCh 8 n).lastGood = false ∧ (s.fdCh 8 n).level + 1 < s.fdLimit 8) ∧
    (∃ (s : State) (n : Fin 2) (b : _) (k : CanErr), (s.canSt n).cur = some b ∧ b < 64 ∧ 256 ≤ (s.canSt n).txErr + 8 ∧ s.canState n < 2 ∧ (¬ (k = .ack ∧ s.canState n = 1)) ∧ s.f (R.can_CCFG n) 12 8 = 0 ∧ s.mbBit R.can_TXCAN n b = false ∧ s.mbBit R.can_TXREQ n b = true ∧ (s.fdCh 8 n).perm = false ∧ (s.fdCh 8 n).lastGood = false ∧ s.fdLimit 8 ≤ (s.fdCh 8 n).level + 1 ∧ (s.fdCh 8 n).level < 255) ∧
    (∃ (s : State) (n : Fin 2), (s.canSt n).cur = none) ∧
    (∃ (s : State) (n : Fin 2), s.canOn n = true ∧ s.canListen n = false) ∧
    (∃ (s : State) (n : Fin 2), (s.canOn n = false ∨ s.canListen n = true)) ∧
    (∃ (s : State) (m : _) (n : Fin 2), s.takes m (R.can_CMD n) = true ∧ s.canState n = 2 ∧ s.canRetired n = false) ∧
    (∃ (s : State) (m : _) (n : Fin 2), s.takes m (R.can_CMD n) = true ∧ (s.canState n ≠ 2 ∨ s.canRetired n = true)) ∧
    (∃ (s : State) (n : Fin 2), s.canState n = 3) ∧
    (∃ (s : State) (n : Fin 2), s.canState n ≠ 3) :=
  ⟨⟨({ (poke (live) [(R.can_CCFG 1, 5), (R.can_MBBASE 1, 0x10000), (R.sinClass_FDCFG 8, 0x0A05), (R.can_CCFG 1, 5), (R.can_MB_ID 1 34, 0x80000000), (R.can_MB_MASK 1 34, 0), (R.can_MB_ID 1 35, 0x80000000), (R.can_MB_MASK 1 35, 0), (R.can_TXREQ 1 1, 12)] : State) with can := [(1, { cur := some 34, tries := [(34, 2)] })] }), 1, 34, by decide +kernel⟩,
    ⟨({ (poke (live) [(R.can_CCFG 1, 5), (R.can_MBBASE 1, 0x10000), (R.sinClass_FDCFG 8, 0x0A05), (R.can_CCFG 1, 5), (R.can_MB_ID 1 34, 0x80000000), (R.can_MB_MASK 1 34, 0), (R.can_MB_ID 1 35, 0x80000000), (R.can_MB_MASK 1 35, 0), (R.can_TXREQ 1 1, 12)] : State) with can := [(1, { cur := some 34, txErr := 0, rxErr := 0 })] }), 1, 34, .bit1, by decide +kernel⟩,
    ⟨({ (poke (live) [(R.can_CCFG 1, 5), (R.can_MBBASE 1, 0x10000), (R.sinClass_FDCFG 8, 0x0A05), (R.can_CCFG 1, 0x405), (R.can_MB_ID 1 34, 0x80000000), (R.can_MB_MASK 1 34, 0), (R.can_MB_ID 1 35, 0x80000000), (R.can_MB_MASK 1 35, 0), (R.can_TXREQ 1 1, 12)] : State) with can := [(1, { cur := some 34, tries := [(34, 3)] })] }), 1, 34, by decide +kernel⟩,
    ⟨({ (poke (live) [(R.can_CCFG 1, 5), (R.can_MBBASE 1, 0x10000), (R.sinClass_FDCFG 8, 0x0A05), (R.can_CCFG 1, 5), (R.can_MB_ID 1 34, 0x80000000), (R.can_MB_MASK 1 34, 0), (R.can_MB_ID 1 35, 0x80000000), (R.can_MB_MASK 1 35, 0), (R.can_TXREQ 1 1, 12), (R.can_ECNT 1, 0x10000)] : State) with can := [(1, { cur := some 34, txErr := 248 })] }), 1, 34, .form, by decide +kernel⟩,
    ⟨({ ({ (poke (live) [(R.can_CCFG 1, 5), (R.can_MBBASE 1, 0x10000), (R.sinClass_FDCFG 8, 0x0A05), (R.can_CCFG 1, 5), (R.can_MB_ID 1 34, 0x80000000), (R.can_MB_MASK 1 34, 0), (R.can_MB_ID 1 35, 0x80000000), (R.can_MB_MASK 1 35, 0), (R.can_TXREQ 1 1, 12), (R.can_ECNT 1, 0x10000)] : State) with can := [(1, { cur := some 34, txErr := 248 })] } : State) with fd := [(0x8001, { level := 9 })] }), 1, 34, .form, by decide +kernel⟩,
    ⟨live, 1, by decide +kernel⟩,
    ⟨({ (poke (live) [(R.can_CCFG 1, 5), (R.can_MBBASE 1, 0x10000), (R.sinClass_FDCFG 8, 0x0A05)] : State) with can := [(1, { rxErr := 0, txErr := 5 })] }), 1, by decide +kernel⟩,
    ⟨live, 1, by decide +kernel⟩,
    ⟨({ (poke (live) [(R.can_CCFG 1, 5), (R.can_MBBASE 1, 0x10000), (R.sinClass_FDCFG 8, 0x0A05), (R.can_ECNT 1, 0x20000)] : State) with can := [(1, {  })] }), .host, 1, by decide +kernel⟩,
    ⟨live, .host, 1, by decide +kernel⟩,
    ⟨({ (poke (live) [(R.can_CCFG 1, 5), (R.can_MBBASE 1, 0x10000), (R.sinClass_FDCFG 8, 0x0A05), (R.can_CCFG 1, 5), (R.can_MB_ID 1 34, 0x80000000), (R.can_MB_MASK 1 34, 0), (R.can_MB_ID 1 35, 0x80000000), (R.can_MB_MASK 1 35, 0), (R.can_TXREQ 1 1, 12), (R.can_ECNT 1, 0x3FFFF)] : State) with can := [(1, { txErr := 256, rxErr := 5 })] }), 1, by decide +kernel⟩,
    ⟨live, 1, by decide +kernel⟩⟩

/-- Inputs that meet the hypotheses of EthernetCommands, clause by clause. -/
theorem witness_EthernetCommands :
    (∃ (s : State) (n : Fin 2), s.ethEn n = false) ∧
    (∃ (s : State) (n : Fin 2) (f : EthFrame), s.ethEn n = true ∧ (f.fcsGood = false ∨ 1522 < f.len)) ∧
    (∃ (s : State) (n : Fin 2) (f : _), (s.rd (R.eth_RX_WR n) - s.rd (R.eth_RX_RD n)).toNat ≠ s.ethRingLen (R.eth_RXRING n) ∧ Machine.ToHost s n f) ∧
    (∃ (s : State) (n : Fin 2) (f : _), (s.rd (R.eth_RX_WR n) - s.rd (R.eth_RX_RD n)).toNat = s.ethRingLen (R.eth_RXRING n) ∧ Machine.ToHost s n f) ∧
    (∃ (s : State) (n : Fin 2) (f : _) (i : _), (i < 8 ∧ s.b (R.eth_MBX_RX n) i = false ∧ (∀ j, j < i → s.b (R.eth_MBX_RX n) j = true)) ∧ Machine.ToMailbox s n f) ∧
    (∃ (s : State) (n : Fin 2) (f : _), (∀ j, j < 8 → s.b (R.eth_MBX_RX n) j = true) ∧ Machine.ToMailbox s n f) ∧
    (∃ (s : State) (n : Fin 2) (f : _), s.ethBridge = false ∧ Machine.OnlyForwarded s n f) ∧
    (∃ (s : State) (n : Fin 2) (f : _), (s.ethBridge = true ∧ (s.ethSt (1 - n.val)).events.length + (s.ethSt (1 - n.val)).fwd.length < 16) ∧ Machine.OnlyForwarded s n f) ∧
    (∃ (s : State) (n : Fin 2) (f : _), (s.ethBridge = true ∧ 16 ≤ (s.ethSt (1 - n.val)).events.length + (s.ethSt (1 - n.val)).fwd.length) ∧ Machine.OnlyForwarded s n f) ∧
    (∃ (x : EthSt), x.cur = none) ∧
    (∃ (s : State) (m : _) (n : Fin 2), s.takes m (R.eth_RX_RD n) = true) ∧
    (∃ (s : State) (m : _) (n : Fin 2) (val : W32), s.takes m (R.eth_TX_WR n) = true ∧ (val - s.rd (R.eth_TX_RD n)).toNat ≤ s.ethRingLen (R.eth_TXRING n) ∧ (s.rd (R.eth_TX_WR n) - s.rd (R.eth_TX_RD n)).toNat ≤ (val - s.rd (R.eth_TX_RD n)).toNat) ∧
    (∃ (s : State) (m : _) (n : Fin 2) (val : W32), s.takes m (R.eth_TX_WR n) = true ∧ (s.ethRingLen (R.eth_TXRING n) < (val - s.rd (R.eth_TX_RD n)).toNat ∨ (val - s.rd (R.eth_TX_RD n)).toNat < (s.rd (R.eth_TX_WR n) - s.rd (R.eth_TX_RD n)).toNat)) ∧
    (∃ (s : State) (n : Fin 2) (i : _), (s.ethSt n).cur = some (.ring i)) ∧
    (∃ (s : State) (n : Fin 2) (i : _), (s.ethSt n).cur = some (.mailbox i) ∧ bit (BitVec.ofNat 32 (s.le (s.mbxTxSlot n i) 4)) 16 = false ∧ i < 8) ∧
    (∃ (s : State) (n : Fin 2) (f : _) (st : _) (ev : _), (s.ethSt n).cur = some (.forward f st ev) ∧ (anyEvent f = none ∨ s.b R.invarPtp_PTPCFG 9 = false)) ∧
    (∃ (s : State) (n : Fin 2) (f : _) (st : _) (ev : _) (o : _) (udp : _), (s.ethSt n).cur = some (.forward f st ev) ∧ anyEvent f = some (o, udp) ∧ s.b R.invarPtp_PTPCFG 9 = true) ∧
    (∃ (s : State) (n : Fin 2), (s.ethSt n).cur = none) ∧
    (∃ (s : State) (t : _) (m : _) (n : Fin 2), s.takes m (R.eth_MBX_RX n) = true ∧ (Tab.get s.hwSet (R.eth_MBX_RX n) (0, 0)).1 ≠ ecyc (s.tick t).now) ∧
    (∃ (s : State) (m : _) (n : Fin 2), s.takes m (R.eth_MBX_TX n) = true) ∧
    (∃ (s : State) (m : _), s.takes m (R.eth_MDIO_CMD 0) = true ∧ s.mdio = none) ∧
    (∃ (s : State) (m : _) (w : W32), s.takes m (R.eth_MDIO_CMD 0) = true ∧ s.mdio = some w) ∧
    (∃ (s : State) (w : _), s.mdio = some w) ∧
    (∃ (s : State), s.mdio = none) ∧
    (∃ (s : State) (n : Fin 2), s.blockInReset (0x0C + n) = false) :=
  ⟨⟨(poke (live) [(R.eth_ECFG 1, 0)]), 1, by decide +kernel⟩,
    ⟨({ (poke (live) [(R.eth_MAC_HI 1, 0x0200), (R.eth_MAC_LO 1, 0x11223344), (R.eth_ECFG 1, 1), (R.eth_RXRING 1, 0x20001), (R.eth_TXRING 1, 0x30001), (R.eth_MBX_BASE 1, 0x40000)] : State) with eth := [(1, {  })] }), 1, (ethFrame 0x020011223344 0x800 false), by decide +kernel⟩,
    ⟨({ (poke (live) [(R.eth_MAC_HI 1, 0x0200), (R.eth_MAC_LO 1, 0x11223344), (R.eth_ECFG 1, 1), (R.eth_RXRING 1, 0x20001), (R.eth_TXRING 1, 0x30001), (R.eth_MBX_BASE 1, 0x40000)] : State) with eth := [(1, {  })] }), 1, (ethFrame 0x020011223344 0x800 true), by decide +kernel, by unfold Machine.ToHost; decide +kernel⟩,
    ⟨({ (poke (live) [(R.eth_MAC_HI 1, 0x0200), (R.eth_MAC_LO 1, 0x11223344), (R.eth_ECFG 1, 1), (R.eth_RXRING 1, 0x20001), (R.eth_TXRING 1, 0x30001), (R.eth_MBX_BASE 1, 0x40000), (R.eth_RX_WR 1, 2)] : State) with eth := [(1, {  })] }), 1, (ethFrame 0x020011223344 0x800 true), by decide +kernel, by unfold Machine.ToHost; decide +kernel⟩,
    ⟨({ (poke (live) [(R.eth_MAC_HI 1, 0x0200), (R.eth_MAC_LO 1, 0x11223344), (R.eth_ECFG 1, 1), (R.eth_RXRING 1, 0x20001), (R.eth_TXRING 1, 0x30001), (R.eth_MBX_BASE 1, 0x40000), (R.eth_MBX_CFG 1, 0x188B5), (R.eth_MBX_RX 1, 3)] : State) with eth := [(1, {  })] }), 1, (ethFrame 0x020011223344 0x88B5 true), 2, by decide +kernel, by unfold Machine.ToMailbox; decide +kernel⟩,
    ⟨({ (poke (live) [(R.eth_MAC_HI 1, 0x0200), (R.eth_MAC_LO 1, 0x11223344), (R.eth_ECFG 1, 1), (R.eth_RXRING 1, 0x20001), (R.eth_TXRING 1, 0x30001), (R.eth_MBX_BASE 1, 0x40000), (R.eth_MBX_CFG 1, 0x188B5), (R.eth_MBX_RX 1, 255)] : State) with eth := [(1, {  })] }), 1, (ethFrame 0x020011223344 0x88B5 true), by decide +kernel, by unfold Machine.ToMailbox; decide +kernel⟩,
    ⟨({ (poke (live) [(R.eth_MAC_HI 1, 0x0200), (R.eth_MAC_LO 1, 0x11223344), (R.eth_ECFG 1, 1), (R.eth_RXRING 1, 0x20001), (R.eth_TXRING 1, 0x30001), (R.eth_MBX_BASE 1, 0x40000)] : State) with eth := [(1, {  })] }), 1, (ethFrame 0x020000000001 0x800 true), by decide +kernel, by unfold Machine.OnlyForwarded; decide +kernel⟩,
    ⟨({ (poke (live) [(R.eth_MAC_HI 1, 0x0200), (R.eth_MAC_LO 1, 0x11223344), (R.eth_ECFG 1, 1), (R.eth_RXRING 1, 0x20001), (R.eth_TXRING 1, 0x30001), (R.eth_MBX_BASE 1, 0x40000), (R.eth_ECFG 0, 9)] : State) with eth := [(1, {  })] }), 1, (ethFrame 0x020000000001 0x800 true), by decide +kernel, by unfold Machine.OnlyForwarded; decide +kernel⟩,
    ⟨({ ({ (poke (live) [(R.eth_MAC_HI 1, 0x0200), (R.eth_MAC_LO 1, 0x11223344), (R.eth_ECFG 1, 1), (R.eth_RXRING 1, 0x20001), (R.eth_TXRING 1, 0x30001), (R.eth_MBX_BASE 1, 0x40000), (R.eth_ECFG 0, 9)] : State) with eth := [(1, {  })] } : State) with eth := [(0, { fwd := List.replicate 16 (.forward [] 0 false) })] }), 1, (ethFrame 0x020000000001 0x800 true), by decide +kernel, by unfold Machine.OnlyForwarded; decide +kernel⟩,
    ⟨({ fwd := [.ring 3], host := [.ring 4] }), by decide +kernel⟩,
    ⟨live, .host, 1, by decide +kernel⟩,
    ⟨({ (poke (live) [(R.eth_MAC_HI 1, 0x0200), (R.eth_MAC_LO 1, 0x11223344), (R.eth_ECFG 1, 1), (R.eth_RXRING 1, 0x20001), (R.eth_TXRING 1, 0x30001), (R.eth_MBX_BASE 1, 0x40000)] : State) with eth := [(1, {  })] }), .host, 1, 2, by decide +kernel⟩,
    ⟨({ (poke (live) [(R.eth_MAC_HI 1, 0x0200), (R.eth_MAC_LO 1, 0x11223344), (R.eth_ECFG 1, 1), (R.eth_RXRING 1, 0x20001), (R.eth_TXRING 1, 0x30001), (R.eth_MBX_BASE 1, 0x40000)] : State) with eth := [(1, {  })] }), .host, 1, 3, by decide +kernel⟩,
    ⟨(fill ({ (poke (live) [(R.eth_MAC_HI 1, 0x0200), (R.eth_MAC_LO 1, 0x11223344), (R.eth_ECFG 1, 1), (R.eth_RXRING 1, 0x20001), (R.eth_TXRING 1, 0x30001), (R.eth_MBX_BASE 1, 0x40000)] : State) with eth := [(1, { cur := some (.ring 1), host := [.ring 2] })] }) (0x01030000 + 2048 * 1) (natLe 4 0x1003C)), 1, 1, by decide +kernel⟩,
    ⟨(fill ({ (poke (live) [(R.eth_MAC_HI 1, 0x0200), (R.eth_MAC_LO 1, 0x11223344), (R.eth_ECFG 1, 1), (R.eth_RXRING 1, 0x20001), (R.eth_TXRING 1, 0x30001), (R.eth_MBX_BASE 1, 0x40000), (R.eth_MBX_TX 1, 12)] : State) with eth := [(1, { cur := some (.mailbox 3), host := [.ring 2] })] }) (0x01044000 + 2048 * 3) (natLe 4 0x3C)), 1, 3, by decide +kernel⟩,
    ⟨({ (poke (live) [(R.eth_MAC_HI 1, 0x0200), (R.eth_MAC_LO 1, 0x11223344), (R.eth_ECFG 1, 1), (R.eth_RXRING 1, 0x20001), (R.eth_TXRING 1, 0x30001), (R.eth_MBX_BASE 1, 0x40000)] : State) with eth := [(1, { cur := some (.forward [1, 2] 5 false) })] }), 1, ([1, 2]), 5, false, by decide +kernel⟩,
    ⟨({ (poke (live) [(R.eth_MAC_HI 1, 0x0200), (R.eth_MAC_LO 1, 0x11223344), (R.eth_ECFG 1, 1), (R.eth_RXRING 1, 0x20001), (R.eth_TXRING 1, 0x30001), (R.eth_MBX_BASE 1, 0x40000), (R.invarPtp_PTPCFG, 0x200)] : State) with eth := [(1, { cur := some (.forward (ethFrame 0x0180C200000E 0x88F7).bytes 5 true) })] }), 1, ((ethFrame 0x0180C200000E 0x88F7).bytes), 5, true, 14, false, by decide +kernel⟩,
    ⟨live, 1, by decide +kernel⟩,
    ⟨({ (poke (live) [(R.eth_MAC_HI 1, 0x0200), (R.eth_MAC_LO 1, 0x11223344), (R.eth_ECFG 1, 1), (R.eth_RXRING 1, 0x20001), (R.eth_TXRING 1, 0x30001), (R.eth_MBX_BASE 1, 0x40000), (R.eth_MBX_RX 1, 7)] : State) with eth := [(1, {  })] }), 0, .host, 1, by decide +kernel⟩,
    ⟨({ (poke (live) [(R.eth_MAC_HI 1, 0x0200), (R.eth_MAC_LO 1, 0x11223344), (R.eth_ECFG 1, 1), (R.eth_RXRING 1, 0x20001), (R.eth_TXRING 1, 0x30001), (R.eth_MBX_BASE 1, 0x40000), (R.eth_MBX_TX 1, 1)] : State) with eth := [(1, {  })] }), .host, 1, by decide +kernel⟩,
    ⟨live, .host, by decide +kernel⟩,
    ⟨({ (live : State) with mdio := some 5 }), .host, 5, by decide +kernel⟩,
    ⟨({ (live : State) with mdio := some 0x5 }), 0x5, by decide +kernel⟩,
    ⟨live, by decide +kernel⟩,
    ⟨({ (poke (live) [(R.eth_MAC_HI 1, 0x0200), (R.eth_MAC_LO 1, 0x11223344), (R.eth_ECFG 1, 1), (R.eth_RXRING 1, 0x20001), (R.eth_TXRING 1, 0x30001), (R.eth_MBX_BASE 1, 0x40000), (R.eth_LSTAT 1, 0)] : State) with eth := [(1, {  })] }), 1, by decide +kernel⟩⟩

/-- Inputs that meet the hypotheses of PinsAndCounters, clause by clause. -/
theorem witness_PinsAndCounters :
    (∃ (s : State) (m : _), s.takes m R.chip_GPIO_SET = true) ∧
    (∃ (s : State) (m : _), s.takes m R.chip_GPIO_CLR = true) ∧
    (∃ (s : State) (m : _) (k : Fin 64), s.takes m (R.chip_PAD k) = true) ∧
    (∃ (s : State) (m : _), s.takes m R.chip_TWI_CMD = true ∧ s.twi = none ∧ s.b R.chip_TWI_CFG 0 = true) ∧
    (∃ (s : State) (m : _), s.takes m R.chip_TWI_CMD = true ∧ (s.twi ≠ none ∨ s.b R.chip_TWI_CFG 0 = false)) ∧
    (∃ (s : State) (w : _), s.twi = some w) ∧
    (∃ (s : State) (w : _), s.twi = some w) ∧
    (∃ (s : State) (w : _), s.twi = some w) ∧
    (∃ (s : State) (t : _) (i : Instr), s.twi = none ∧ (i = .twiTimeout t ∨ ∃ acked rx lost, i = .twiDone t acked rx lost)) ∧
    (∃ (s : State) (t : _) (c : Fin 8), s.b (R.perfCell_BW_CFG c) 24 = true ∧ s.frozen = false ∧ s.perf.stopped.contains c.val = false ∧ Tab.get s.perf.since c 0 + s.bwLen c ≤ (s.tick t).now) ∧
    (∃ (s : State) (t : _) (c : Fin 8), (s.b (R.perfCell_BW_CFG c) 24 = false ∨ s.frozen = true ∨ s.perf.stopped.contains c.val = true ∨ (s.tick t).now < Tab.get s.perf.since c 0 + s.bwLen c)) ∧
    (∃ (s : State) (m : _), s.takes m R.perfCommon_PCTL = true) ∧
    (∃ (s : State) (t : _) (e : Fin 32) (i : CounterIdx) (v : _), v = (s.tick t).slots e ((s.tick t).eng e).slotClass ∧ i.val < 8 ∧ v.perf.wraps.contains (e.val * 9 + i.val) = true) ∧
    (∃ (s : State) (t : _) (e : Fin 32) (i : CounterIdx) (v : _), v = (s.tick t).slots e ((s.tick t).eng e).slotClass ∧ i.val < 8 ∧ v.perf.wraps.contains (e.val * 9 + i.val) = false) ∧
    (∃ (s : State) (t : _) (e : Fin 32), Tab.get s.perf.ecycWraps e 0 < (s.tick t).ecycRaw e / 2 ^ 64) ∧
    (∃ (s : State) (m : _) (c : Fin 8), s.takes m (R.CTRL (P.perfCell c)) = true) :=
  ⟨⟨(poke (live) [(R.chip_GPIO_OUT, 3)]), .host, by decide +kernel⟩,
    ⟨(poke (live) [(R.chip_GPIO_OUT, 0xFF)]), .host, by decide +kernel⟩,
    ⟨live, .host, 5, by decide +kernel⟩,
    ⟨(poke (live) [(R.chip_TWI_CFG, 1)]), .host, by decide +kernel⟩,
    ⟨(poke (live) [(R.chip_TWI_CFG, 0)]), .host, by decide +kernel⟩,
    ⟨({ (poke (live) [(R.chip_TWI_CFG, 1), (R.chip_TWI_STAT, 0x355)] : State) with twi := some 0x5 }), 0x5, by decide +kernel⟩,
    ⟨({ (poke (live) [(R.chip_TWI_CFG, 1), (R.chip_TWI_STAT, 0x355)] : State) with twi := some 5 }), 5, by decide +kernel⟩,
    ⟨({ (poke (live) [(R.chip_TWI_CFG, 1), (R.chip_TWI_STAT, 0x355)] : State) with twi := some 5 }), 5, by decide +kernel⟩,
    ⟨live, 0, (Instr.twiTimeout 0), by decide +kernel, .inl rfl⟩,
    ⟨({ (poke (live) [(R.perfCell_BW_CFG 3, 0x3000032), (R.perfCell_BW_CUR 3 2, 70), (R.perfCell_BW_PEAK 3 2, 60)] : State) with perf := { since := [(3, 5)]  } }), 0, 3, by decide +kernel⟩,
    ⟨live, 0, 3, by decide +kernel⟩,
    ⟨({ (poke (live) [(R.perfCell_BW_CFG 3, 0x3000032), (R.perfCell_BW_CUR 3 2, 70), (R.perfCell_BW_PEAK 3 2, 60)] : State) with perf := { since := [(3, 5)] , frozenAt := 900 } }), .host, by decide +kernel⟩,
    ⟨({ (poke (serving prog [(9, { servs := [sv] })]) [(R.perfCell_PSEL 2 1 2, 0x20000)] : State) with perf := { wraps := [9 * 9 + 2, 5] } }), 0, 9, 2, (((({ (poke (serving prog [(9, { servs := [sv] })]) [(R.perfCell_PSEL 2 1 2, 0x20000)] : State) with perf := { wraps := [9 * 9 + 2, 5] } } : State).tick 0).slots 9 ((({ (poke (serving prog [(9, { servs := [sv] })]) [(R.perfCell_PSEL 2 1 2, 0x20000)] : State) with perf := { wraps := [9 * 9 + 2, 5] } } : State).tick 0).eng 9).slotClass)), by decide +kernel⟩,
    ⟨live, 0, 9, 2, ((((live : State).tick 0).slots 9 (((live : State).tick 0).eng 9).slotClass)), by decide +kernel⟩,
    ⟨({ (live : State) with now := 2 ^ 90, perf := { ecycFrom := [(2, some 7)] } }), 0, 9, by decide +kernel⟩,
    ⟨({ (poke (live) [(R.perfCell_BW_CFG 3, 0x3000032), (R.perfCell_BW_CUR 3 2, 70), (R.perfCell_BW_PEAK 3 2, 60)] : State) with perf := { since := [(3, 5)]  } }), .host, 3, by decide +kernel⟩⟩



/-! ## Well-formedness: each check refuses an ill-formed command -/

/-- A frame that ends before it began, and one that does not. -/
def frameAt (sfd efd : Time) : SlotFrame := { sfd := sfd, efd := efd, fin := .good, len := 32, words := [], sub := 0 }
def fragOf (n : Nat) (last : Bool) (efd : Time := 20) : Fragment :=
  { sfd := 10, efd := efd, fin := .good, node := 0, frag := 0, last := last, adm := false, msIdx := 0, seq := 0, data := List.replicate n 0 }
def requestAt (sfd efd : Time) : RequestMsg := { sfd := sfd, efd := efd, good := true, vendor := 0, ntype := 0, serial := 0, crc := 0 }
def canOf (id : BitVec 29) (dlc : BitVec 4) (n : Nat) (fdf rtr : Bool) : CanFrame :=
  { id := id, ide := false, rtr := rtr, dlc := dlc, fdf := fdf, brs := false, esi := false, sofNs := 0, data := List.replicate n 0 }

theorem test_wf_value : Instr.wf (.registerWrite 0 .host 0 .b4 0xFFFFFFFF) = true ∧ Instr.wf (.registerWrite 0 .host 0 .b4 0x100000000) = false ∧
    Instr.wf (.mirroredWrite 0 0 .b1 0x100) = false := by decide
theorem test_wf_ecc : Instr.wf (.scrubPass 0 [{ addr := 8, double := true }]) = true ∧ Instr.wf (.scrubPass 0 [{ addr := 4, double := true }]) = false := by decide
theorem test_wf_frames : Instr.wf (.slotFrameReceive 0 0 (frameAt 10 20)) = true ∧ Instr.wf (.slotFrameReceive 0 0 (frameAt 20 10)) = false ∧
    Instr.wf (.request 0 0 (requestAt 20 10)) = false := by decide
theorem test_wf_fragment : Instr.wf (.uplinkFragmentReceive 0 0 (fragOf 3 true)) = true ∧ Instr.wf (.uplinkFragmentReceive 0 0 (fragOf 3 false)) = false ∧
    Instr.wf (.uplinkFragmentReceive 0 0 (fragOf 0 true)) = false ∧ Instr.wf (.uplinkFragmentReceive 0 0 (fragOf 257 true)) = false ∧
    Instr.wf (.uplinkFragmentReceive 0 0 (fragOf 3 true 5)) = false := by decide +kernel
theorem test_wf_agreement : Instr.wf (.agreementRecord 0 { cycle := 0, lps := [], qes := [], tokens := [], ticks := [] }) = false := by decide
theorem test_wf_masks : Instr.wf (.staleMaskExchange 0 (List.replicate 8 0)) = true ∧ Instr.wf (.staleMaskExchange 0 [0]) = false := by decide
theorem test_wf_found : Instr.wf (.rootElection 0 [] []) = true ∧
    Instr.wf (.rootElection 0 [] (List.replicate 64 ⟨0, false, false⟩)) = false := by decide
theorem test_wf_data : Instr.wf (.hostMemoryRequest 0 .host 0 true 4 [1, 2, 3, 4]) = true ∧ Instr.wf (.hostMemoryRequest 0 .host 0 true 4 [1]) = false ∧
    Instr.wf (.hostMemoryRequest 0 .host 0 false 4 [1]) = false ∧ Instr.wf (.bar2Request 0 ⟨0, 0, true, 8, [1]⟩) = false := by decide
theorem test_wf_sizes : Instr.wf (.fuseLoadDone 0 [] []) = false ∧ Instr.wf (.dmaElementStart 0 []) = false := by decide
theorem test_wf_can : Instr.wf (.canFrameReceive 0 0 (canOf 0x120 8 8 false false)) = true ∧ Instr.wf (.canFrameReceive 0 0 (canOf 0x800 8 8 false false)) = false ∧
    Instr.wf (.canFrameReceive 0 0 (canOf 0x120 9 9 true false)) = false ∧ Instr.wf (.canFrameReceive 0 0 (canOf 0x120 9 12 true false)) = true ∧
    Instr.wf (.canFrameReceive 0 0 (canOf 0x120 0 0 true true)) = false := by decide
theorem test_wf_eth : Instr.wf (.ethFrameReceive 0 0 ⟨List.replicate 60 0, true, 64, 0, 0⟩) = true ∧ Instr.wf (.ethFrameReceive 0 0 ⟨List.replicate 60 0, true, 60, 0, 0⟩) = false ∧
    Instr.wf (.ethFrameReceive 0 0 ⟨[], true, 4, 0, 0⟩) = false := by decide

/-! ## The spec's worked examples -/

/-- The example after R43: the pages and windows of engine E13. -/
theorem test_engine_addresses : enginePage 13 * 0x1000 = 0x00132000 ∧ engDataAddr 13 0 = 0x00B40000 ∧ engInstrAddr 13 0 = 0x00B60000 := by decide

/-- Table 3.5: narrowing of one accumulator lane to Q0.23. -/
theorem test_narrowing :
    [0x2C00000, 0x2400000, -0x2C00000, 0x2C00001].map (fun x => narrow 24 true (scaleRound x 23 0)) =
      [6, 4, -6, 6].map (fun y => { val := y, v := false, sat := false }) ∧
    narrow 24 true (scaleRound 0x3FFFFFC00000 23 0) = { val := 0x7FFFFF, v := false, sat := true } ∧
    narrow 24 true (scaleRound 0x500000000000 23 0) = { val := 0x7FFFFF, v := false, sat := true } ∧
    narrow 24 false (scaleRound 0x500000000000 23 0) = { val := -0x600000, v := true, sat := false } := by decide

/-- The example after R133: a lane of 1.25 narrows with SH -1 to 0.625 and sets no flag. -/
theorem test_narrow_shifted : narrow 24 true (scaleRound 0x500000000000 23 (-1)) = { val := 0x500000, v := false, sat := false } := by decide

/-- The example after R80: two states of a block-floating stage. -/
theorem test_bfsc : (bfsc true 0x0C0000F40000 (-2) 2).1 = 0x300000D00000 ∧ (bfsc true 0x0C0000F40000 (-2) 2).2.1 = -4 ∧
    expOf 24 0 0x0C0000 = 3 ∧ expOf 24 0 (-0x0C0000) = 3 := by decide

/-- The example after R87: post-modify addresses in a delay line of five words. -/
theorem test_circular_pointer : wrapPtr 0x4100 5 (0x4103 + 2) = 0x4100 ∧ wrapPtr 0x4100 5 (0x4100 + 2) = 0x4102 ∧ wrapPtr 0x4100 5 (0x4102 + 2) = 0x4104 ∧
    wrapPtr 0x4100 5 (0x4104 + 2) = 0x4101 ∧ wrapPtr 0x4100 5 (0x4101 - 3) = 0x4103 := by decide

/-- The example after R120: the word of MAC.S A0, D4, D5 with two post-incremented loads. -/
theorem test_mac_word : rowOfWord 0xCA10B2062940 = (.mac .mac, true) ∧ wordValid 0xCA10B2062940 = true := by decide

/-- Coefficients of the low-pass section of Table 6.7. -/
def lowPass : Coef := { b0 := 0x040000, b1 := 0x080000, b2 := 0x040000, a1 := -0x600000, a2 := 0x280000 }
def lowSection (e : Int) (s1 s2 : W48) (bf : Bool) : Section :=
  { hi := lowPass, lo := lowPass, csh := 1, bf := bf, e := e, emin := -23, emax := 8, head := 1, s1 := s1, s2 := s2 }
/-- Table 6.7: a constant input of 3 LSB, in fixed and in block-floating mode. -/
theorem test_section_fixed : runSection (lowSection 0 0 0 false) false 0x000003000000 = ⟨0, 0, 0, 0, 0, false⟩ := by decide
theorem test_section_floating :
    runSection (lowSection (-23) 0 0 true) false 0x000003000000 = ⟨0, 0x300000000000, 0x180000000000, -23, 0, false⟩ ∧
    runSection (lowSection (-23) 0x300000000000 0x180000000000 true) false 0x000003000000 = ⟨0x000001000000, 0x210000000000, 0xF90000000000, -20, 0, false⟩ ∧
    runSection (lowSection (-20) 0x210000000000 0xF90000000000 true) false 0x000003000000 = ⟨0x000002000000, 0x2F0000000000, 0xEF0000000000, -20, 0, false⟩ ∧
    runSection (lowSection (-20) 0x2F0000000000 0xEF0000000000 true) false 0x000003000000 = ⟨0x000003000000, 0x3D0000000000, 0xE50000000000, -20, 0, false⟩ := by decide

/-- The change of Table 7.8 and the state of gearing before it. -/
def draw : GearIn := { at' := 786432000000, num := 25728, den := 3125, neg := false, blend := 40000, engBlend := 0, seq := 1 }
def beforeDraw : Prof := { num := 1024, den := 125, eng := true }
def drawn (n : Nat) : Prof := (beforeDraw.gear draw 786432000000 786426265600 false).gear draw (BitVec.ofNat 48 (n * 65536)) 0 false
/-- Table 7.8: the reference at five master positions; the last counts from the rounded reference point of R244. -/
theorem test_gear_change : (drawn 12000000).p = 98304000 * 2 ^ 32 ∧ (drawn 12010000).p = 98385971 * 2 ^ 32 + 858993459 ∧
    (drawn 12020000).p = 98468044 * 2 ^ 32 + 3435973837 ∧ (drawn 12040000).p = 98632499 * 2 ^ 32 + 858993459 ∧
    (drawn 12080000).p = 98961817 * 2 ^ 32 + 2576980377 ∧ (drawn 12040000).blend = false := by decide

/-- An image that holds the operation record and the arc record of the example after R174. -/
def example174 : Img := natLe 24 0 ++ natLe 4 0x80 ++ natLe 4 0xA0 ++ natLe 96 0 ++ natLe 8 0x0005001100340370 ++ natLe 24 0x000020034C00 ++ natLe 8 0x00000001006400D0
theorem test_operation_record :
    example174.op 0 = { program := false, prio := 4, cell := 3, ctx := 3, flow := some 52, nIn := 1, nOut := 1, code := 5, param := 0x000020034C00 } ∧
    (example174.arc 0).dstOp = 0x0D0 ∧ (example174.arc 0).dstPort = 0 ∧ (example174.arc 0).src = 0x064 ∧ (example174.arc 0).kind = 1 := by decide +kernel

/-- Branch TL2 of section 9.10, with slots of len bytes. -/
def tl2 (len : Nat) : State :=
  poke live ([(R.crater_CYCLE, 1), (R.branch_SLOTCFG 2, BitVec.ofNat 32 (16 + len / 16 * 256 + 16 * 65536)), (R.branch_FIRST 2, 1600), (R.branch_FIELDCFG 2, 3),
    (R.branch_DYNCFG 2, 0x201), (R.branch_NIT 2, 1250), (R.nodeTable_NODE_DELAY 2 0, 200)] ++ (List.range 16).map fun s => (R.branch_REL 2 s, BitVec.ofNat 32 (3312 + 576 * s)))
/-- Section 9.10: the segments of TL2. -/
theorem test_branch_segments : (tl2 128).staticEnd 2 = 10816 ∧ (tl2 128).nms 2 = 149 ∧ (tl2 128).miniSlots 2 256 = 9 ∧ (tl2 128).kUp 2 = 16 ∧
    (tl2 128).eSum 2 = 12164 := by decide +kernel
/-- The example after R346: the admission region of TL2, and A of the calls of hops 0 and 1. -/
theorem test_admission_calls : (tl2 128).admW 2 = 12 ∧ (tl2 128).admStart 2 = 28352 ∧ (tl2 128).callA 2 0 = 27904 ∧ (tl2 128).callA 2 1 = 27724 := by decide +kernel
/-- Table 2.7: slots of 512 bytes fail the check with FIT at SLOTCFG; slots of 128 bytes do not. -/
theorem test_commit_fit : (R.branch_SLOTCFG 2, rFit) ∈ chkBranch (tl2 128) (tl2 512) 2 ∧ (R.branch_SLOTCFG 2, rFit) ∉ chkBranch (tl2 512) (tl2 128) 2 := by decide +kernel

/-- The example after R372: the prediction of the next point, its fraction of the cycle and the value between two samples. -/
def atTwelveMillion : LpEst :=
  { live := true, lpk := 786432000000, lam := BitVec.ofNat 64 (12000000 * 2 ^ 32), tl := 0, v := 87 * 2 ^ 32 + 2 ^ 31, a := 0, tk := 0, tn := 31250 }
theorem test_resample : atTwelveMillion.predict (BitVec.ofNat 48 (12000050 * 65536)) 1 0 = some 8929 ∧ rndDiv (17858 * 2 ^ 23) 31250 = 4793720 ∧
    1000000 + rndDiv ((1400000 - 1000000) * 4793720) (2 ^ 23) = 1228582 := by decide

/-! ## Single steps -/

theorem next_of {x : Host.Outcome State Fault Refusal} (h : (match x with
    | .next _ => true
    | _ => false) = true) : ∃ u, x = .next u := by
  cases x with
  | next u => exact ⟨u, rfl⟩
  | _ => simp at h
/-- A state with a command waiting, canonical and with a step. -/
theorem witness_StepKeepsCanonicalForm : ∃ s u : State, s.Canonical ∧ step s = .next u :=
  ⟨{ State.reset with pending := [.illegalTransition 0 0, .por 0 false] }, (next_of (by decide +kernel)).elim fun u h => ⟨u, ⟨by decide, by decide, by decide⟩, h⟩⟩
theorem witness_StepIsOrderly : ∃ (s u : State) (c : Instr) (r : List Instr), s.pending = c :: r ∧ step s = .next u :=
  ⟨{ State.reset with pending := [.illegalTransition 0 0, .por 0 false] }, (next_of (by decide +kernel)).elim fun u h => ⟨u, _, _, rfl, h⟩⟩

/-- An empty queue: the block idles. -/
theorem test_idle : step State.reset = .next State.reset := rfl
/-- The front command leaves the queue and the next stays. -/
theorem test_queue : (match step { State.reset with pending := [.illegalTransition 0 0, .por 0 false] } with
    | .next s => s.pending
    | _ => []) = [.por 0 false] := by decide +kernel
/-- No row of the command table has bits. -/
theorem test_table_word : decodeTableWord 0 0 = none := by decide

end Sys2Proof.Tests
end

section
/-! PROOFS. The requests a write of COMMIT makes (section 2.4): GO, ARM, DISCARD, and more than one of them in one write. -/

namespace Sys2Proof.Machine

/-! ### From the state a performed write enters -/

theorem State.onlyGate_commit {s : State} {m : Master} {p : Nat} (t : Time) (v : W32) (h : s.takes m (R.COMMIT p) = true) :
    OnlyGate s (s.entered t m (R.COMMIT p) v) t p := by
  have g := State.onlyGate s t m (R.COMMIT p) v h
  rwa [commit_page] at g

theorem OnlyGate.rd {s e : State} {t : Time} {p : Nat} (g : OnlyGate s e t p) (a : Nat) : e.rd a = s.rd a := State.rd_of_regs g.regs a

theorem OnlyGate.f {s e : State} {t : Time} {p : Nat} (g : OnlyGate s e t p) (a hi lo : Nat) : e.f a hi lo = s.f a hi lo := by
  unfold State.f; rw [g.rd]

/-- An effect that keeps the rest of the state, performed after the gate, keeps it from before the gate. -/
theorem OnlyGate.frame {s e u : State} {t : Time} {p : Nat} {may : List Nat} (g : OnlyGate s e t p)
    (hrd : ∀ a, a ∉ may → u.rd a = e.rd a) (hrest : u.rest = e.rest) : Frame s u may s.rest :=
  Frame.of_rest (fun a ha => (hrd a ha).trans (g.rd a)) (hrest.trans g.rest)

/-! ### What each request amounts to -/

theorem State.commitRequest_of_idle {s : State} {p : Nat} (arm imm : Bool) (hs : staged p = true) (hc : (s.page p).check = none)
    (hp : (s.page p).pend = none) :
    s.commitRequest p arm imm = s.setPage p { s.page p with
      check := some { arm := arm, imm := imm && !arm, since := s.now }, checkLatch := ofPage s.stage p, armed := (s.page p).armed && arm } := by
  simp [State.commitRequest, hs, hc, hp]

theorem State.commitRequest_of_busy {s : State} {p : Nat} (arm imm : Bool) (hs : staged p = true)
    (hb : ((s.page p).check.isSome || (s.page p).pend.isSome) = true) : s.commitRequest p arm imm = s.rejectCommit p 1 0 := by
  simp only [State.commitRequest, hs, hb, Bool.not_true, Bool.false_eq_true, if_false, if_true]

theorem State.commitWrite_of_conflict {s : State} {p : Nat} {w : W32} (hs : staged p = true)
    (hw : 2 ≤ b2n (bit w 0) + b2n (bit w 1) + b2n (bit w 2)) : s.commitWrite p w = s.rejectCommit p 2 7 := by
  unfold State.commitWrite
  dsimp only
  rw [if_neg (by simp only [hs, Bool.not_true, Bool.false_or, decide_eq_true_eq]; omega), if_pos (by omega)]

theorem State.commitDiscard_of_staged {s : State} {p : Nat} (hs : staged p = true) :
    s.commitDiscard p = if ((s.unstage p).page p).armed then
      ((s.unstage p).setPage p { (s.unstage p).page p with armed := false }).commitStat p 0 0 0 else s.unstage p := by
  simp [State.commitDiscard, hs]

/-! ### GO and ARM of an idle page (R50, R61) -/

/-- The stage of page p as it was in s is captured in u and its check begins; nothing else has changed. -/
structure CheckBegins (s u : State) (p : Nat) (arm imm : Bool) : Prop where
  check : (u.page p).check = some { arm := arm, imm := imm && !arm, since := u.now }
  latch : (u.page p).checkLatch = ofPage s.stage p
  armed : (u.page p).armed = ((s.page p).armed && arm)
  pend : (u.page p).pend = none
  others : ∀ q : Nat, q ≠ p → u.page q = s.page q
  frame : Frame s u [] s.rest

theorem OnlyGate.commitRequest_begins {s e : State} {t : Time} {p : Nat} (g : OnlyGate s e t p) (arm imm : Bool) (hs : staged p = true)
    (hc : (s.page p).check = none) (hp : (s.page p).pend = none) : CheckBegins s (e.commitRequest p arm imm) p arm imm := by
  obtain ⟨gc, gp, ga, -, -, -, -⟩ := g.page_kept
  rw [State.commitRequest_of_idle arm imm hs (gc.trans hc) (gp.trans hp)]
  constructor
  case check => simp
  case latch => simp [State.stage_of_rest g.rest]
  case armed => simp [ga]
  case pend => simp [gp, hp]
  case others => intro q hq; simp [hq, g.page_ne q hq]
  case frame => exact g.frame (fun a _ => by simp) (by simp)

/-! ### A rejected request (R56, R66) -/

/-- The fields of a COMMIT_STAT word (Table 2.4). -/
theorem fld_commitStat {st reason field seq : Nat} (hst : st < 16) (hr : reason < 256) (hf : field < 1024) (hq : seq < 16) :
    let w := BitVec.ofNat 32 (st + reason * 256 + field * 65536 + seq * 2 ^ 28)
    fld w 3 0 = st ∧ fld w 15 8 = reason ∧ fld w 25 16 = field ∧ fld w 31 28 = seq := by
  simp only [fld, BitVec.toNat_ofNat]
  omega

/-- A request of page p is rejected with its reason and field: COMMIT_STAT and the cause tell it, the page locks, and what it had in hand stays. -/
structure RequestRejected (s u : State) (p reason field : Nat) : Prop where
  state : u.f (R.COMMIT_STAT p) 3 0 = 4
  reason : u.f (R.COMMIT_STAT p) 15 8 = reason
  field : u.f (R.COMMIT_STAT p) 25 16 = field
  seq : u.f (R.COMMIT_STAT p) 31 28 = s.f (R.COMMIT_STAT p) 31 28
  cause : u.b (R.IRQ_STAT p) 1 = true
  check : (u.page p).check = (s.page p).check
  pend : (u.page p).pend = (s.page p).pend
  armed : (u.page p).armed = (s.page p).armed
  relocked : (u.page p).unlocked = false
  others : ∀ q : Nat, q ≠ p → u.page q = s.page q
  frame : Frame s u (R.COMMIT_STAT p :: irqRegs p) s.rest

theorem OnlyGate.rejectCommit {s e : State} {t : Time} {p reason field : Nat} (g : OnlyGate s e t p) (hr : reason < 256) (hf : field < 1024) :
    RequestRejected s (e.rejectCommit p reason field) p reason field := by
  obtain ⟨gc, gp, ga, -, -, -, -⟩ := g.page_kept
  have page := State.rejectCommit_page e p reason field
  obtain ⟨f0, f8, f16, f28⟩ := fld_commitStat (st := 4) (by decide) hr hf (fld_lt (s.rd (R.COMMIT_STAT p)) 31 28)
  have stat : (e.rejectCommit p reason field).rd (R.COMMIT_STAT p) =
      BitVec.ofNat 32 (4 + reason * 256 + field * 65536 + fld (s.rd (R.COMMIT_STAT p)) 31 28 * 2 ^ 28) := by
    rw [State.rejectCommit_stat, g.f]; rfl
  constructor
  case state => unfold State.f; rw [stat, f0]
  case reason => unfold State.f; rw [stat, f8]
  case field => unfold State.f; rw [stat, f16]
  case seq => unfold State.f; rw [stat, f28]
  case cause => exact State.rejectCommit_irq e p reason field
  case check => simp [page, gc]
  case pend => simp [page, gp]
  case armed => simp [page, ga]
  case relocked => simp [page]
  case others => intro q hq; rw [page, if_neg hq, g.page_ne q hq]
  case frame =>
    refine g.frame (fun a ha => ?_) (State.rejectCommit_rest e p reason field)
    obtain ⟨hstat, hirq⟩ := not_or.mp (mt List.mem_cons.mpr ha)
    exact State.rejectCommit_rd e p reason field a hirq hstat

/-! ### DISCARD (R58) -/

/-- A key that a table does not list reads the default. -/
theorem Tab.get_of_notMem {α : Type} (t : Tab α) (k : Nat) (d : α) (h : k ∉ t.map (·.1)) : Tab.get t k d = d := by
  induction t with
  | nil => rfl
  | cons x r ih =>
    obtain ⟨hx, hr⟩ := not_or.mp (mt List.mem_cons.mpr h)
    rw [Tab.get_cons, if_neg (Ne.symm hx), ih hr]

theorem mem_keys_ofPage (t : Tab W32) (p a : Nat) : a ∈ (ofPage t p).map (·.1) ↔ a ∈ t.map (·.1) ∧ a / 0x1000 = p := by
  simp [ofPage]

/-- Copy the active value of one register into its stage: the step of State.unstage. -/
def State.unstageReg (s : State) (a : Nat) : State :=
  match stMask a with
  | some m => s.wrStage a (s.rd a &&& m)
  | none => s

/-- The registers State.unstage goes through: those of the page that may differ from their reset. -/
def State.unstageKeys (s : State) (p : Nat) : List Nat := (ofPage s.regs p ++ ofPage s.stage p).map (·.1)

theorem State.unstage_eq (s : State) (p : Nat) : s.unstage p = (s.unstageKeys p).foldl State.unstageReg s := rfl

theorem State.mem_unstageKeys (s : State) (p a : Nat) :
    a ∈ s.unstageKeys p ↔ (a ∈ s.regs.map (·.1) ∨ a ∈ s.stage.map (·.1)) ∧ a / 0x1000 = p := by
  rw [State.unstageKeys, List.map_append, List.mem_append, mem_keys_ofPage, mem_keys_ofPage, or_and_right]

theorem State.unstageReg_of_st {s : State} {a : Nat} {m : W32} (h : stMask a = some m) : s.unstageReg a = s.wrStage a (s.rd a &&& m) := by
  simp [State.unstageReg, h]
theorem State.unstageReg_of_not_st {s : State} {a : Nat} (h : stMask a = none) : s.unstageReg a = s := by simp [State.unstageReg, h]

/-- Only the staged values differ. -/
structure OnlyStage (s u : State) : Prop where
  rd : u.rd = s.rd
  page : u.page = s.page
  rest : u.rest = { s.rest with stage := u.stage }

theorem OnlyStage.refl (s : State) : OnlyStage s s := ⟨rfl, rfl, rfl⟩

theorem OnlyStage.trans {s u w : State} (h : OnlyStage s u) (g : OnlyStage u w) : OnlyStage s w :=
  ⟨g.rd.trans h.rd, g.page.trans h.page, by rw [g.rest, h.rest]⟩

theorem OnlyStage.unstageReg (s : State) (a : Nat) : OnlyStage s (s.unstageReg a) := by
  cases h : stMask a with
  | none => rw [State.unstageReg_of_not_st h]; exact OnlyStage.refl s
  | some m => rw [State.unstageReg_of_st h]; exact ⟨rfl, rfl, rfl⟩

theorem OnlyStage.foldl_unstageReg (l : List Nat) (s : State) : OnlyStage s (l.foldl State.unstageReg s) := by
  induction l generalizing s with
  | nil => exact OnlyStage.refl s
  | cons a r ih => exact (OnlyStage.unstageReg s a).trans (ih _)

theorem OnlyStage.unstage (s : State) (p : Nat) : OnlyStage s (s.unstage p) := OnlyStage.foldl_unstageReg _ s

theorem State.unstageReg_rdStage_ne (s : State) {a b : Nat} (h : b ≠ a) : (s.unstageReg a).rdStage b = s.rdStage b := by
  cases hm : stMask a with
  | none => rw [State.unstageReg_of_not_st hm]
  | some m => rw [State.unstageReg_of_st hm, State.rdStage_wrStage, if_neg h]

theorem State.foldl_unstageReg_rdStage_of_notMem (l : List Nat) (s : State) {b : Nat} (h : b ∉ l) :
    (l.foldl State.unstageReg s).rdStage b = s.rdStage b := by
  induction l generalizing s with
  | nil => rfl
  | cons a r ih =>
    obtain ⟨ha, hr⟩ := not_or.mp (mt List.mem_cons.mpr h)
    rw [List.foldl_cons, ih _ hr, State.unstageReg_rdStage_ne s ha]

theorem State.foldl_unstageReg_rdStage_of_mem (l : List Nat) (s : State) {b : Nat} {m : W32} (hm : stMask b = some m) (h : b ∈ l) :
    (l.foldl State.unstageReg s).rdStage b = s.rd b &&& m := by
  induction l generalizing s with
  | nil => cases h
  | cons a r ih =>
    rw [List.foldl_cons]
    by_cases hr : b ∈ r
    · rw [ih _ hr, (OnlyStage.unstageReg s a).rd]
    · have hb : b = a := (List.mem_cons.mp h).resolve_right hr
      subst hb
      rw [State.foldl_unstageReg_rdStage_of_notMem r _ hr, State.unstageReg_of_st hm, State.rdStage_wrStage, if_pos rfl]

/-- Every ST field of the page holds its active value in the stage: a register that is not gone through is at its reset in both copies. -/
theorem State.unstage_rdStage (s : State) {p a : Nat} {m : W32} (ha : a / 0x1000 = p) (hm : stMask a = some m) :
    (s.unstage p).rdStage a &&& m = s.rd a &&& m := by
  rw [State.unstage_eq]
  by_cases h : a ∈ s.unstageKeys p
  · rw [State.foldl_unstageReg_rdStage_of_mem _ s hm h, BitVec.and_assoc, BitVec.and_self]
  · obtain ⟨hregs, hstage⟩ := not_or.mp fun h' => h ((State.mem_unstageKeys s p a).mpr ⟨h', ha⟩)
    have hreset : s.rdStage a = s.rd a := (Tab.get_of_notMem _ a _ hstage).trans (Tab.get_of_notMem _ a _ hregs).symm
    rw [State.foldl_unstageReg_rdStage_of_notMem _ s h, hreset]

theorem State.unstage_rdStage_elsewhere (s : State) {p a : Nat} (ha : a / 0x1000 ≠ p) : (s.unstage p).rdStage a = s.rdStage a :=
  State.foldl_unstageReg_rdStage_of_notMem _ s fun h => ha ((State.mem_unstageKeys s p a).mp h).2

/-- The active values of page p are copied into its stage; a page that was armed is disarmed, with COMMIT_STAT IDLE and SEQ as it was. -/
structure Discarded (s u : State) (p : Nat) : Prop where
  copied : ∀ (a : Nat) msk, a / 0x1000 = p → stMask a = some msk → u.rdStage a &&& msk = s.rd a &&& msk
  elsewhere : ∀ a : Nat, a / 0x1000 ≠ p → u.rdStage a = s.rdStage a
  armed : (u.page p).armed = false
  pend : (u.page p).pend = (s.page p).pend
  check : (u.page p).check = (s.page p).check
  statArmed : (s.page p).armed = true → u.rd (R.COMMIT_STAT p) = BitVec.ofNat 32 (s.f (R.COMMIT_STAT p) 31 28 * 2 ^ 28)
  statIdle : (s.page p).armed = false → u.rd (R.COMMIT_STAT p) = s.rd (R.COMMIT_STAT p)
  others : ∀ q : Nat, q ≠ p → u.page q = s.page q
  frame : Frame s u [R.COMMIT_STAT p] { s.rest with stage := u.stage }

/-- A state that agrees with s but for its stage and the registers of a list. -/
theorem Frame.of_stage {s u : State} {may : List Nat} (hrd : ∀ a, a ∉ may → u.rd a = s.rd a) (hrest : u.rest = { s.rest with stage := u.stage }) :
    Frame s u may { s.rest with stage := u.stage } := by
  refine ⟨hrd, fun a => ?_, hrest⟩
  have hbyte := congrArg (fun x : State => x.byte a) hrest
  exact hbyte

@[simp] theorem State.commitStat_rdStage (s : State) (p st r f : Nat) : (s.commitStat p st r f).rdStage = s.rdStage := by
  simp [State.commitStat]
@[simp] theorem State.commitStat_stage (s : State) (p st r f : Nat) : (s.commitStat p st r f).stage = s.stage := by
  simp [State.commitStat]

theorem OnlyGate.unstage_rest {s e : State} {t : Time} {p : Nat} (g : OnlyGate s e t p) :
    (e.unstage p).rest = { s.rest with stage := (e.unstage p).stage } := by
  rw [(OnlyStage.unstage e p).rest, g.rest]

theorem OnlyGate.commitDiscard_discards {s e : State} {t : Time} {p : Nat} (g : OnlyGate s e t p) (hs : staged p = true) :
    Discarded s (e.commitDiscard p) p := by
  obtain ⟨gc, gp, ga, -, -, -, -⟩ := g.page_kept
  have d := OnlyStage.unstage e p
  have copied : ∀ (a : Nat) msk, a / 0x1000 = p → stMask a = some msk → (e.unstage p).rdStage a &&& msk = s.rd a &&& msk :=
    fun a msk ha hm => by rw [State.unstage_rdStage e ha hm, g.rd]
  have elsewhere : ∀ a : Nat, a / 0x1000 ≠ p → (e.unstage p).rdStage a = s.rdStage a :=
    fun a ha => (State.unstage_rdStage_elsewhere e ha).trans (State.rdStage_of_rest g.rest a)
  have rd : ∀ a, (e.unstage p).rd a = s.rd a := fun a => by rw [d.rd, g.rd]
  rw [State.commitDiscard_of_staged hs, d.page, ga]
  cases ha : (s.page p).armed with
  | false =>
    rw [if_neg Bool.false_ne_true]
    constructor
    case copied => exact copied
    case elsewhere => exact elsewhere
    case armed => rw [d.page, ga, ha]
    case pend => rw [d.page, gp]
    case check => rw [d.page, gc]
    case statArmed => intro h; cases ha.symm.trans h
    case statIdle => exact fun _ => rd _
    case others => intro q hq; rw [d.page, g.page_ne q hq]
    case frame => exact Frame.of_stage (fun a _ => rd a) g.unstage_rest
  | true =>
    rw [if_pos rfl]
    constructor
    case copied => simpa using copied
    case elsewhere => simpa using elsewhere
    case armed => simp
    case pend => simp [gp]
    case check => simp [gc]
    case statArmed => intro _; simp [State.commitStat_rd, State.f, rd]
    case statIdle => intro h; cases ha.symm.trans h
    case others => intro q hq; simp [hq, d.page, g.page_ne q hq]
    case frame =>
      refine Frame.of_stage (fun a h => ?_) ?_
      · rw [State.commitStat_rd, if_neg (by simpa using h), State.setPage_rd, rd]
      · rw [State.commitStat_rest, State.rest_setPage, State.commitStat_stage, State.setPage_stage, g.unstage_rest]

/-! ### The commands -/

/-- DISCARD over every register of the page (R58): the clause of CommitRequests, with offsets of the whole device space. -/
theorem answers_commitDiscard {s : State} {m : Master} {p : Fin 2048} (t : Time) (hm : s.takes m (R.COMMIT p) = true) (hs : staged p = true) :
    Answers (.commitDiscard t m p) s fun u => Discarded s u p :=
  ⟨_, congrArg Host.Outcome.next (State.gated_of_takes s t m _ _ _ hm), (State.onlyGate_commit t 4 hm).commitDiscard_discards hs⟩

/-- The chip page has no ST fields (R67). -/
theorem ne_zero_of_staged {p : Fin 2048} (hs : staged p = true) : p ≠ 0 := by
  rintro rfl
  exact absurd hs (by decide)

/-- In Fin 2048 the divisor 0x1000 is 0, and so is every quotient by it. -/
theorem fin2048_div_page (a : Fin 2048) : a / 0x1000 = 0 := Fin.ext (Nat.div_zero _)

/-- Settles O5: the effect of each command, in the state the write enters, is the lemma above for its case. In the first two clauses of DISCARD the offset a
is compared with the page, so that Lean reads it in Fin 2048, where a / 0x1000 is 0; answers_commitDiscard says the same of every offset. -/
theorem commitRequests : Obligations.CommitRequests := by
  unfold Obligations.CommitRequests
  refine ⟨fun s t m p imm hm hs hc hp => ?go, fun s t m p hm hs hc hp => ?arm, fun s t m p imm hm hs hb => ?busy,
    fun s t m p hm hs => ?discard, fun s t m p val hm hs hv => ?conflict⟩
  case go =>
    refine ⟨_, congrArg Host.Outcome.next (State.gated_of_takes s t m _ _ _ hm), ?_⟩
    have h := (State.onlyGate_commit t (if imm then 0x11 else 1) hm).commitRequest_begins false imm hs hc hp
    exact ⟨by simpa using h.check, h.latch, by simpa using h.armed, h.pend, h.others, h.frame⟩
  case arm =>
    refine ⟨_, congrArg Host.Outcome.next (State.gated_of_takes s t m _ _ _ hm), ?_⟩
    have h := (State.onlyGate_commit t 2 hm).commitRequest_begins true false hs hc hp
    exact ⟨h.check, h.latch, by simpa using h.armed, h.pend, h.others, h.frame⟩
  case busy =>
    refine ⟨_, congrArg Host.Outcome.next (State.gated_of_takes s t m _ _ _ hm), ?_⟩
    have g := State.onlyGate_commit t (if imm then 0x11 else 1) hm
    obtain ⟨gc, gp, -⟩ := g.page_kept
    rw [State.commitRequest_of_busy false imm hs (by rw [gc, gp]; exact hb)]
    have h := g.rejectCommit (reason := 1) (field := 0) (by decide) (by decide)
    exact ⟨h.state, h.reason, h.field, h.seq, h.cause, h.check, h.pend, h.relocked, h.others, h.frame⟩
  case discard =>
    obtain ⟨u, hu, h⟩ := answers_commitDiscard t hm hs
    refine ⟨u, hu, fun a msk ha _ => ?_, fun a _ => h.elsewhere a ?_, h.armed, h.pend, h.check, h.statArmed, h.statIdle, h.others, h.frame⟩
    · exact absurd (ha.symm.trans (fin2048_div_page a)) (ne_zero_of_staged hs)
    · rw [Nat.div_eq_of_lt (by omega)]
      exact fun h0 => ne_zero_of_staged hs (Fin.ext h0.symm)
  case conflict =>
    refine ⟨_, congrArg Host.Outcome.next (State.gated_of_takes s t m _ _ _ hm), ?_⟩
    rw [State.commitWrite_of_conflict hs hv]
    have h := (State.onlyGate_commit t val hm).rejectCommit (reason := 2) (field := 7) (by decide) (by decide)
    exact ⟨h.state, h.reason, h.field, h.cause, h.check, h.pend, h.armed, h.others, h.frame⟩

end Sys2Proof.Machine
end

section
/-! PROOFS. What an instruction that issues leaves (R112, R128 to R130): the writes of its bank, the place of its operation, and the state around it. -/

namespace Sys2Proof.Machine

/-! ### The latest write of a register -/

theorem Bank.latest_cons (b : Bank) (x : WriteH) (q : Nat) :
    ({ b with hist := x :: b.hist } : Bank).latest q = if x.reg = q then x.val else b.latest q := by
  by_cases h : x.reg = q <;> simp [Bank.latest, h]

@[simp] theorem Bank.latest_write (b : Bank) (r q k : Nat) (x : BitVec 112) : (b.write r x k).latest q = if r = q then x else b.latest q :=
  b.latest_cons _ q
@[simp] theorem Bank.latest_writeAd (b : Bank) (seed r q k : Nat) (x : BitVec 112) : (b.writeAd seed r x k).latest q = if r = q then x else b.latest q :=
  b.latest_cons _ q
@[simp] theorem Bank.latest_setD (b : Bank) (i q : Nat) (x : W48) : (b.setD i x).latest q = if i = q then x.setWidth 112 else b.latest q :=
  b.latest_write i q kWB _
@[simp] theorem Bank.latest_setA (b : Bank) (i q k : Nat) (x : BitVec 112) : (b.setA i x k).latest q = if regA i = q then x else b.latest q :=
  b.latest_write _ q k x
@[simp] theorem Bank.latest_set16 (b : Bank) (r q k : Nat) (x : BitVec 16) : (b.set16 r x k).latest q = if r = q then x.setWidth 112 else b.latest q :=
  b.latest_write r q k _
@[simp] theorem Bank.latest_setAd (b : Bank) (seed r q k : Nat) (x : BitVec 16) :
    (b.setAd seed r x k).latest q = if r = q then x.setWidth 112 else b.latest q :=
  b.latest_writeAd seed r q k _

theorem Bank.latest_setD2_of_ne (b : Bank) (seed : Nat) {i j : Nat} (x y : W48) (h : i ≠ j) (q : Nat) :
    (b.setD2 seed i j x y).latest q = if j = q then y.setWidth 112 else if i = q then x.setWidth 112 else b.latest q := by
  simp [Bank.setD2, h]

/-- Which of two results stands in a register named twice is open (log entry 79); every other register keeps its latest write. -/
theorem Bank.latest_setD2_other (b : Bank) (seed : Nat) {i j q : Nat} (x y : W48) (hi : i ≠ q) (hj : j ≠ q) :
    (b.setD2 seed i j x y).latest q = b.latest q := by
  by_cases h : i = j
  · simp [Bank.setD2, h, hj]
  · simp [b.latest_setD2_of_ne seed x y h, hi, hj]

theorem Bank.flags_of_ne (b : Bank) {u : FlagUpd} (h : u ≠ {}) : b.flags u = b.set16 regFLG (u.apply ((b.latest regFLG).setWidth 16)) kWB := if_neg h

@[simp] theorem Bank.latest_flags_other (b : Bank) (u : FlagUpd) {q : Nat} (hq : regFLG ≠ q) : (b.flags u).latest q = b.latest q := by
  by_cases h : u = {}
  · simp [Bank.flags, h]
  · simp [b.flags_of_ne h, hq]

theorem Bank.latest_flags (b : Bank) {u : FlagUpd} (h : u ≠ {}) :
    (b.flags u).latest regFLG = (u.apply ((b.latest regFLG).setWidth 16)).setWidth 112 := by
  simp [b.flags_of_ne h]

/-! ### The place of an operation -/

/-- A bank without its registers: the address, the branch and the delay slots under way, and the loops. -/
def Bank.place (b : Bank) : Bank := { b with regs := [], hist := [], idx := 0 }

@[simp] theorem Bank.place_setD (b : Bank) (i : Nat) (x : W48) : (b.setD i x).place = b.place := rfl
@[simp] theorem Bank.place_setA (b : Bank) (i k : Nat) (x : BitVec 112) : (b.setA i x k).place = b.place := rfl
@[simp] theorem Bank.place_set16 (b : Bank) (r k : Nat) (x : BitVec 16) : (b.set16 r x k).place = b.place := rfl
@[simp] theorem Bank.place_setAd (b : Bank) (seed r k : Nat) (x : BitVec 16) : (b.setAd seed r x k).place = b.place := rfl
@[simp] theorem Bank.place_advance (b : Bank) : b.advance.place = b.place := rfl

@[simp] theorem Bank.place_setD2 (b : Bank) (seed i j : Nat) (x y : W48) : (b.setD2 seed i j x y).place = b.place := by
  unfold Bank.setD2; split <;> rfl

@[simp] theorem Bank.place_flags (b : Bank) (u : FlagUpd) : (b.flags u).place = b.place := by
  unfold Bank.flags; split <;> simp

@[simp] theorem Bank.place_loopTest (b : Bank) (seed n : Nat) : (b.loopTest seed n).1.place = b.place := by
  unfold Bank.loopTest; dsimp only; split <;> simp

@[simp] theorem Bank.place_loopEnd (b : Bank) (seed a : Nat) : (b.loopEnd seed a).1.place = b.place := by
  have first : (if b.loopOn seed 1 && b.le1 = a then b.loopTest seed 1 else (b, none)).1.place = b.place := by split <;> simp
  unfold Bank.loopEnd
  dsimp only
  split
  · exact first
  · split
    · rw [Bank.place_loopTest, first]
    · exact first

@[simp] theorem State.place_readBank (s : State) (v : Serv) : (s.readBank v).place = v.bank.place := by simp [State.readBank]

theorem Bank.place_next (b : Bank) (d : Nat) : (b.next d).place = b.place.next d := by
  obtain ⟨regs, hist, idx, pc, ls0, le0, ls1, le1, br, slots, fin⟩ := b
  rcases br with _ | ⟨_ | _ | n, k⟩ <;> rfl

theorem Bank.latest_next (b : Bank) (d q : Nat) : (b.next d).latest q = b.latest q := by
  obtain ⟨regs, hist, idx, pc, ls0, le0, ls1, le1, br, slots, fin⟩ := b
  rcases br with _ | ⟨_ | _ | n, k⟩ <;> rfl

/-- A branch under way whose last delay slot this is: execution continues at its target (R128). -/
theorem Bank.next_of_last_slot {b : Bank} {k : Nat} (d : Nat) (h : b.br = some (1, k)) : (b.next d).pc = k ∧ (b.next d).br = none := by
  simp [Bank.next, h]

/-- A branch under way with more delay slots to come (R128). -/
theorem Bank.next_of_slots {b : Bank} {n k : Nat} (d : Nat) (h : b.br = some (n + 2, k)) :
    (b.next d).pc = d ∧ (b.next d).br = some (n + 1, k) := by
  simp [Bank.next, h]

theorem Bank.next_of_no_branch {b : Bank} (d : Nat) (h : b.br = none) : (b.next d).pc = d ∧ (b.next d).br = none := by
  simp [Bank.next, h]

@[simp] theorem Bank.next_fin (b : Bank) (d : Nat) : (b.next d).fin = b.fin.map (· - 1) := by
  obtain ⟨regs, hist, idx, pc, ls0, le0, ls1, le1, br, slots, fin⟩ := b
  rcases br with _ | ⟨_ | _ | n, k⟩ <;> rfl

theorem Bank.place_eq_iff (b c : Bank) : b.place = c.place ↔
    b.pc = c.pc ∧ b.br = c.br ∧ b.slots = c.slots ∧ b.fin = c.fin ∧ b.ls0 = c.ls0 ∧ b.le0 = c.le0 ∧ b.ls1 = c.ls1 ∧ b.le1 = c.le1 := by
  simp only [Bank.place, Bank.mk.injEq, true_and]
  constructor
  · rintro ⟨pc, ls0, le0, ls1, le1, br, slots, fin⟩
    exact ⟨pc, br, slots, fin, ls0, le0, ls1, le1⟩
  · rintro ⟨pc, br, slots, fin, ls0, le0, ls1, le1⟩
    exact ⟨pc, ls0, le0, ls1, le1, br, slots, fin⟩

/-- An operation whose bank is at the place the read bank goes on to follows in sequence (R112). -/
theorem Sequential.of_place {s : State} {v v' : Serv} (h : v'.bank.place = ((s.readBank v).next (followOf s v)).place) : Sequential s v v' :=
  (Bank.place_eq_iff _ _).mp h

/-! ### The state around the operation -/

/-- Beside its operation an instruction's meaning changes at most counts of events, the slot account of its engine, the time, and how many free values have been used. -/
structure OnlyNotes (s u : State) (e : Nat) : Prop where
  quiet : QuietRegs s u []
  rest : u.rest = { s.rest with engs := u.engs, perf := u.perf }
  servs : (u.eng e).servs = (s.eng e).servs
  kept : EngsKept s u e

theorem OnlyCounts.notes {s u : State} {e : Nat} (h : OnlyCounts s u e) : OnlyNotes s u e := ⟨h.quiet, h.rest, h.servs, h.kept⟩

theorem OnlyNotes.refl (s : State) (e : Nat) : OnlyNotes s s e := (OnlyCounts.refl s e).notes
theorem OnlyNotes.tick (s : State) (t : Time) (e : Nat) : OnlyNotes s (s.tick t) e := ⟨fun _ _ _ => rfl, rfl, rfl, fun _ _ => rfl⟩
theorem OnlyNotes.useFree (s : State) (e : Nat) : OnlyNotes s s.useFree e := ⟨fun _ _ _ => rfl, rfl, rfl, fun _ _ => rfl⟩

theorem OnlyNotes.trans {s u w : State} {e : Nat} (h : OnlyNotes s u e) (g : OnlyNotes u w e) : OnlyNotes s w e :=
  ⟨fun a h1 h2 => (g.quiet a h1 h2).trans (h.quiet a h1 h2), by rw [g.rest, h.rest], g.servs.trans h.servs, fun d hd => (g.kept d hd).trans (h.kept d hd)⟩

theorem OnlyNotes.useFreeIf (s : State) (e : Nat) (p : Prop) [Decidable p] : OnlyNotes s (if p then s.useFree else s) e := by
  split
  · exact OnlyNotes.useFree s e
  · exact OnlyNotes.refl s e

theorem State.setTop_of_servs {s : State} {e : Nat} {y : Serv} {r : List Serv} (x : Serv) (h : (s.eng e).servs = y :: r) :
    s.setTop e x = s.setEng e { s.eng e with servs := x :: r } := by
  unfold State.setTop; rw [h]

/-- The operation at the top is replaced after notes: what Retired asks of the state around it, and memory. -/
theorem OnlyNotes.setTop {s u : State} {e : Nat} {v : Serv} (n : OnlyNotes s u e) (hv : s.top e = some v) (x : Serv) :
    (u.setTop e x).top e = some x ∧ ((u.setTop e x).eng e).servs.tail = (s.eng e).servs.tail ∧ EngsKept s (u.setTop e x) e ∧
      QuietRegs s (u.setTop e x) [] ∧ (u.setTop e x).rest = { s.rest with engs := (u.setTop e x).engs, perf := (u.setTop e x).perf } := by
  obtain ⟨r, hr⟩ : ∃ r, (s.eng e).servs = v :: r := List.head?_eq_some_iff.mp hv
  rw [State.setTop_of_servs x (n.servs.trans hr)]
  refine ⟨?_, ?_, fun d hd => ?_, n.quiet, ?_⟩
  · simp [State.top]
  · simp [hr]
  · rw [State.eng_setEng, if_neg hd, n.kept d hd]
  · have h := congrArg (fun y : State => { y with engs := (u.setEng e { u.eng e with servs := x :: r }).engs }) n.rest
    exact h

/-- An instruction whose meaning answers the operation x with the bank b, and notes: x stands at the top with b or, but for LOOP, what follows b, and it retires where b
differs from the bank it read in the listed registers only. -/
theorem State.Issues.retires {s s' : State} {t : Time} {e : Fin 32} {r : BRow} {v : Serv} {w : W48} {f : State → Nat → Serv → W48 → IRes} {b : Bank}
    {rs : List Nat} (h : s.Issues e r v w) (c : Instr) (x : Serv) (hc : exec c s = .next (s.issue t e r f))
    (hf : f (s.tick t) (s.topDepth e) { v with bank := s.readBank v } w = .ok s' { x with bank := b })
    (hs : OnlyNotes (s.tick t) s' e) (hb : ∀ q, q ∉ rs → b.latest q = (s.readBank v).latest q) :
    Answers c s fun u => ∃ v', Retired s u e v x v' rs ∧ MemKept s u ∧ v'.bank = if r = .ctl 4 then b else b.next (followOf s v) := by
  obtain ⟨k, hk⟩ := State.issue_ok h hf
  have n := ((OnlyNotes.tick s t e).trans (hs.trans (OnlyNotes.useFreeIf s' e (v.bank.advance.hist.any (·.broken) = true)))).trans
    (State.slotIssue_counts _ e true k v.bank.pc e.isLt).notes
  obtain ⟨top, tail, kept, quiet, rest⟩ := n.setTop h.1 (issued r (followOf s v) { x with bank := b })
  rw [← hk] at top tail kept quiet rest
  have mem : (s.issue t e r f).mem = s.mem := by have := congrArg (fun y : State => y.mem) rest; exact this
  have ecc : (s.issue t e r f).ecc = s.ecc := by have := congrArg (fun y : State => y.ecc) rest; exact this
  refine ⟨_, hc, _, ⟨top, tail, rfl, by simp [issued], fun q hq => ?_, kept, quiet, ?_⟩, fun a => ?_, rfl⟩
  · rw [← hb q hq]
    unfold issued
    dsimp only
    split
    · rfl
    · exact b.latest_next _ q
  · rw [mem, ecc]; exact rest
  · unfold State.byte; rw [mem]

/-- An instruction that leaves its operation's place alone, and is no LOOP: the next one in sequence follows. -/
theorem State.Issues.retires_in_sequence {s s' : State} {t : Time} {e : Fin 32} {r : BRow} {v : Serv} {w : W48} {f : State → Nat → Serv → W48 → IRes}
    {b : Bank} {rs : List Nat} (h : s.Issues e r v w) (c : Instr) (x : Serv) (hr : r ≠ .ctl 4) (hc : exec c s = .next (s.issue t e r f))
    (hf : f (s.tick t) (s.topDepth e) { v with bank := s.readBank v } w = .ok s' { x with bank := b })
    (hs : OnlyNotes (s.tick t) s' e) (hp : b.place = (s.readBank v).place) (hb : ∀ q, q ∉ rs → b.latest q = (s.readBank v).latest q) :
    Answers c s fun u => ∃ v', Retired s u e v x v' rs ∧ Sequential s v v' ∧ MemKept s u ∧ ∀ q, v'.bank.latest q = b.latest q := by
  obtain ⟨u, hu, v', retired, mem, bank⟩ := h.retires c x hc hf hs hb
  rw [if_neg hr] at bank
  refine ⟨u, hu, v', retired, Sequential.of_place ?_, mem, fun q => ?_⟩
  · rw [bank, Bank.place_next, hp, Bank.place_next]
  · rw [bank, Bank.latest_next]

end Sys2Proof.Machine
end

section
/-! PROOFS. Control flow (R112, R128 to R131): NOP, the branches, LOOP and DONE. -/

namespace Sys2Proof.Machine

/-! ### Where a control instruction may stand (R112, Table 4.13) -/

/-- An instruction that issues at the end of no active loop: no loop-end test changes the bank (R129, R130). -/
theorem Bank.loopEnd_of_not_nearEnd {b : Bank} {seed a k : Nat} (h : b.nearEnd seed a k = false) : b.loopEnd seed a = (b, none) := by
  have off (n le : Nat) (hn : (b.loopOn seed n && decide ((le + 8192 - a) % 8192 ≤ k)) = false) : (b.loopOn seed n && decide (le = a)) = false := by
    cases hl : b.loopOn seed n with
    | false => rfl
    | true =>
      rw [hl, Bool.true_and, decide_eq_false_iff_not] at hn
      rw [Bool.true_and, decide_eq_false_iff_not]
      omega
  obtain ⟨h0, h1⟩ := Bool.or_eq_false_iff.mp h
  simp [Bank.loopEnd, off 0 b.le0 h0, off 1 b.le1 h1]

/-- A control instruction of the codes 1 to 5 that issues stands in no delay slot and at no loop end: it reads its operands from the bank as it stands, and the next address
follows. -/
theorem State.Issues.stands_clear {s : State} {e c : Nat} {v : Serv} {w : W48} (h : s.Issues e (.ctl c) v w) (h1 : 1 ≤ c) (h5 : c ≤ 5) :
    s.readBank v = v.bank.advance ∧ followOf s v = (v.bank.pc + 1) % 8192 ∧ v.bank.br = none := by
  obtain ⟨-, -, -, row, -, -, -, -, good⟩ := h
  have near : v.bank.advance.inSlot = false ∧ ∃ k, v.bank.advance.nearEnd s.freeCtr v.bank.pc k = false := by
    unfold issueBad at good
    rw [show rowOfWord w = (.ctl c, (rowOfWord w).2) from Prod.ext row rfl] at good
    simp only [h1, h5, decide_true, Bool.and_self, if_true, Bool.or_eq_false_iff] at good
    refine ⟨good.1, ?_⟩
    split at good
    · exact ⟨0, (Bool.or_eq_false_iff.mp good.2).1⟩
    · exact ⟨2, good.2⟩
  obtain ⟨slot, k, hk⟩ := near
  have loop := Bank.loopEnd_of_not_nearEnd hk
  refine ⟨congrArg Prod.fst loop, ?_, ?_⟩
  · unfold followOf; rw [loop]
  · obtain ⟨br, -⟩ := Bool.or_eq_false_iff.mp (Bool.or_eq_false_iff.mp slot).1
    exact Option.isNone_iff_eq_none.mp (Option.isSome_eq_false_iff.mp br)

/-! ### Branches (R128) -/

/-- Whether the branch w that the operation v issues is taken. -/
def State.branchTaken (s : State) (v : Serv) (w : W48) : Bool := branchCond s { v with bank := s.readBank v } w

@[simp] theorem branchTo_latest (b : Bank) (taken : Bool) (k q : Nat) : (branchTo b taken k).latest q = b.latest q := by
  cases taken <;> rfl

/-- After a branch the next address follows, and a branch taken has its two delay slots to come. -/
theorem branchTo_next {b : Bank} (taken : Bool) {k : Nat} (d : Nat) (hb : b.br = none) (hk : k < 8192) :
    ((branchTo b taken k).next d).pc = d ∧ ((branchTo b taken k).next d).br = if taken then some (2, k) else none := by
  cases taken with
  | false => exact Bank.next_of_no_branch d hb
  | true =>
    have slots : (branchTo b true k).br = some (1 + 2, k) := by simp [branchTo, Nat.mod_eq_of_lt hk]
    exact Bank.next_of_slots d slots

theorem fld_of_lo_zero {n : Nat} (w : BitVec n) (hi : Nat) : fld w hi 0 = w.toNat % 2 ^ (hi + 1) := by simp [fld]

/-- BR, BRR and JL share this: the bank is that of the branch, whatever registers b has written besides. -/
theorem State.Issues.branches {s : State} {t : Time} {e : Fin 32} {c : Nat} {v : Serv} {w : W48} {f : State → Nat → Serv → W48 → IRes} {b : Bank} {rs : List Nat}
    (h : s.Issues e (.ctl c) v w) (i : Instr) (taken : Bool) (k : Nat) (h1 : 1 ≤ c) (h3 : c ≤ 3) (hk : k < 8192) (hc : exec i s = .next (s.issue t e (.ctl c) f))
    (hf : f (s.tick t) (s.topDepth e) { v with bank := s.readBank v } w = .ok (s.tick t) { v with bank := b })
    (hp : b.place = (branchTo (s.readBank v) taken k).place) (hb : ∀ q, q ∉ rs → b.latest q = (s.readBank v).latest q) :
    Answers i s fun u => ∃ v', Retired s u e v v v' rs ∧ MemKept s u ∧ v'.bank.pc = (v.bank.pc + 1) % 8192 ∧
      v'.bank.br = (if taken then some (2, k) else none) ∧ ∀ q, v'.bank.latest q = b.latest q := by
  obtain ⟨bank, follow, free⟩ := h.stands_clear h1 (by omega)
  obtain ⟨u, hu, v', retired, mem, after⟩ := h.retires i v hc hf (OnlyNotes.refl _ _) hb
  rw [if_neg (by rw [BRow.ctl.injEq]; omega)] at after
  have place : v'.bank.place = ((branchTo (s.readBank v) taken k).next (followOf s v)).place := by rw [after, Bank.place_next, hp, Bank.place_next]
  obtain ⟨pc, br, -⟩ := (Bank.place_eq_iff _ _).mp place
  obtain ⟨pc', br'⟩ := branchTo_next taken (followOf s v) ((congrArg Bank.br bank).trans free) hk
  exact ⟨u, hu, v', retired, mem, pc.trans (pc'.trans follow), br.trans br', fun q => by rw [after, Bank.latest_next]⟩

/-- The bank of a JL: a branch taken leaves its link, the address after the delay slots, in a D register. -/
def Bank.branchLink (b : Bank) (taken : Bool) (k reg : Nat) : Bank :=
  if taken then (branchTo b taken k).setD reg (BitVec.ofNat 48 ((b.pc + 3) % 8192)) else branchTo b taken k

theorem jlMeaning_eq (s : State) (depth : Nat) (v : Serv) (w : W48) :
    jlMeaning s depth v w = .ok s { v with bank := v.bank.branchLink (branchCond s v w) (fld w 12 0) (fld w 33 29) } := rfl

theorem Bank.place_branchLink (b : Bank) (taken : Bool) (k reg : Nat) : (b.branchLink taken k reg).place = (branchTo b taken k).place := by
  cases taken <;> rfl

theorem Bank.latest_branchLink (b : Bank) (taken : Bool) (k reg q : Nat) :
    (b.branchLink taken k reg).latest q = if taken = true ∧ reg = q then BitVec.ofNat 112 ((b.pc + 3) % 8192) else b.latest q := by
  cases taken with
  | false => simp [Bank.branchLink]
  | true => simp [Bank.branchLink, BitVec.setWidth_ofNat_of_le_of_lt (show 48 ≤ 112 by decide) (show (b.pc + 3) % 8192 < 2 ^ 48 by omega)]

theorem Bank.latest_branchLink_other (b : Bank) (taken : Bool) (k : Nat) {reg q : Nat} (hq : q ∉ if taken then [reg] else []) :
    (b.branchLink taken k reg).latest q = b.latest q := by
  rw [b.latest_branchLink, if_neg]
  rintro ⟨rfl, rfl⟩
  exact hq (List.mem_singleton_self _)

theorem State.readBank_pc (s : State) (v : Serv) : (s.readBank v).pc = v.bank.pc := ((Bank.place_eq_iff _ _).mp (s.place_readBank v)).1

/-! ### LOOP (R129) -/

/-- The bank of a LOOP: loop n counts cnt times from the next address to e, and a count of 0 skips to the address after e. -/
def Bank.enterLoop (b : Bank) (n cnt e : Nat) : Bank :=
  let x := b.setLoop n cnt
  let y := if n = 0 then { x with ls0 := (x.pc + 1) % 8192, le0 := e } else { x with ls1 := (x.pc + 1) % 8192, le1 := e }
  { y with pc := if cnt = 0 then (e + 1) % 8192 else (y.pc + 1) % 8192 }

/-- The count of a LOOP: its immediate, or the low 16 bits of its D register. -/
def loopCount (s : State) (b : Bank) (w : W48) : Nat := if bit w 38 then fld w 28 13 else fld (b.d s.freeCtr (fld w 33 29)) 15 0

theorem loopCount_lt (s : State) (b : Bank) (w : W48) : loopCount s b w < 2 ^ 16 := by
  unfold loopCount
  split <;> exact fld_lt _ _ _

theorem loopMeaning_eq (s : State) (depth : Nat) (v : Serv) (w : W48) :
    loopMeaning s depth v w = .ok s { v with bank := v.bank.enterLoop (fld w 39 39) (loopCount s v.bank w) (fld w 12 0) } := rfl

theorem Bank.latest_setLoop (b : Bank) (n cnt q : Nat) :
    (b.setLoop n cnt).latest q = if regLC n = q then (BitVec.ofNat 16 cnt).setWidth 112 else b.latest q := by
  unfold Bank.setLoop
  rw [Bank.latest_setAd]
  split
  · rfl
  · next h =>
    have keep : (fun x : WriteH => !decide (x.reg = regLC n) && decide (x.reg = q)) = fun x => decide (x.reg = q) := funext fun x => by
      by_cases hx : x.reg = q <;> simp [hx, Ne.symm h]
    simp [Bank.latest, List.find?_filter, keep]

theorem Bank.latest_enterLoop (b : Bank) (n cnt e q : Nat) : (b.enterLoop n cnt e).latest q = (b.setLoop n cnt).latest q := by
  unfold Bank.enterLoop; dsimp only; split <;> rfl

theorem Bank.enterLoop_pc (b : Bank) (n cnt e : Nat) : (b.enterLoop n cnt e).pc = if cnt = 0 then (e + 1) % 8192 else (b.pc + 1) % 8192 := by
  by_cases h : n = 0 <;> simp [Bank.enterLoop, h, Bank.setLoop, Bank.setAd, Bank.writeAd]

/-- The start and end of the loop entered stand; those of the other loop stay. -/
theorem Bank.enterLoop_ends (b : Bank) (n cnt e : Nat) :
    if n = 0 then (b.enterLoop n cnt e).ls0 = (b.pc + 1) % 8192 ∧ (b.enterLoop n cnt e).le0 = e ∧ (b.enterLoop n cnt e).ls1 = b.ls1 ∧ (b.enterLoop n cnt e).le1 = b.le1
    else (b.enterLoop n cnt e).ls1 = (b.pc + 1) % 8192 ∧ (b.enterLoop n cnt e).le1 = e ∧ (b.enterLoop n cnt e).ls0 = b.ls0 ∧ (b.enterLoop n cnt e).le0 = b.le0 := by
  by_cases h : n = 0
  · simp [Bank.enterLoop, h, Bank.setLoop, Bank.setAd, Bank.writeAd]
  · simp [Bank.enterLoop, h, Bank.setLoop, Bank.setAd, Bank.writeAd]

/-! ### The commands -/

/-- Settles O18: NOP follows in sequence; BR, BRR and JL are branches of a bank that stands in no delay slot and at no loop end; LOOP alone sets the address itself. -/
theorem controlInstructions : Obligations.ControlInstructions := by
  unfold Obligations.ControlInstructions
  refine ⟨fun s t e v w h => ?nop, fun s t e v w h => ?br, fun s t e v w h => ?brr, fun s t e v w h => ?jl, fun s t e v w h => ?loop,
    fun s t e v w h => ?done, fun b k d => Bank.next_of_last_slot d, fun b n k d => Bank.next_of_slots d⟩
  case nop =>
    obtain ⟨u, hu, v', retired, seq, mem, -⟩ :=
      h.retires_in_sequence (.nop t e) v (by decide) rfl rfl (OnlyNotes.refl _ _) rfl fun _ _ => rfl
    exact ⟨u, hu, v', retired, seq, mem⟩
  case br =>
    obtain ⟨u, hu, v', retired, mem, pc, br, -⟩ := h.branches (.br t e) (s.branchTaken v w) (fld w 12 0) (by decide) (by decide) (fld_lt w 12 0)
      rfl rfl rfl fun q _ => branchTo_latest _ _ _ q
    exact ⟨u, hu, v', retired, mem, pc, br⟩
  case brr =>
    obtain ⟨u, hu, v', retired, mem, pc, br, -⟩ := h.branches (.brr t e) (s.branchTaken v w) (fld ((s.readBank v).d s.freeCtr (fld w 33 29)) 12 0)
      (by decide) (by decide) (fld_lt _ 12 0) rfl rfl rfl fun q _ => branchTo_latest _ _ _ q
    exact ⟨u, hu, v', retired, mem, pc, by rw [br, fld_of_lo_zero]; rfl⟩
  case jl =>
    obtain ⟨u, hu, v', retired, mem, pc, br, latest⟩ :=
      h.branches (rs := if s.branchTaken v w then [fld w 33 29] else []) (.jl t e) (s.branchTaken v w) (fld w 12 0) (by decide) (by decide) (fld_lt w 12 0) rfl
        (jlMeaning_eq _ _ _ _) (Bank.place_branchLink _ _ _ _) fun q hq => Bank.latest_branchLink_other _ _ _ hq
    exact ⟨u, hu, v', retired, mem, pc, br, fun taken => by rw [latest, Bank.latest_branchLink, if_pos ⟨taken, rfl⟩, State.readBank_pc]⟩
  case loop =>
    obtain ⟨u, hu, v', retired, mem, bank⟩ := h.retires (rs := [regLC (fld w 39 39)]) (.loop t e) v rfl (loopMeaning_eq _ _ _ _) (OnlyNotes.refl _ _) fun q hq => by
      rw [Bank.latest_enterLoop, Bank.latest_setLoop, if_neg (by simpa [eq_comm] using hq)]
    rw [if_pos rfl] at bank
    obtain ⟨pc, -, -, -, ls0, le0, ls1, le1⟩ := (Bank.place_eq_iff _ _).mp (s.place_readBank v)
    have ends := (s.readBank v).enterLoop_ends (fld w 39 39) (loopCount s (s.readBank v) w) (fld w 12 0)
    rw [pc, ls0, le0, ls1, le1] at ends
    refine ⟨u, hu, v', retired, mem, ?_, ?_, ?_⟩
    · rw [bank, Bank.latest_enterLoop, Bank.latest_setLoop, if_pos rfl]
      exact BitVec.setWidth_ofNat_of_le_of_lt (by decide) (loopCount_lt _ _ _)
    · rw [bank]; exact ends
    · rw [bank, Bank.enterLoop_pc, pc]; rfl
  case done =>
    obtain ⟨u, hu, v', retired, mem, bank⟩ := h.retires (.done t e) v rfl rfl (OnlyNotes.refl _ _) fun q _ => rfl
    rw [if_neg (by decide)] at bank
    have fin : v'.bank.fin = some 2 := by rw [bank, Bank.next_fin]; rfl
    have going : ¬v'.ended = true := fun ended => by
      obtain ⟨-, -, -, ends, -⟩ := retired
      exact absurd (fin.symm.trans (ends.mp ended)) (by decide)
    exact ⟨u, hu, v', retired, mem, fin, Bool.eq_false_iff.mpr going⟩

end Sys2Proof.Machine
end

section
/-! PROOFS. Register moves, accumulator loads, block floating, RDS and POST (R78 to R80, R132 to R140). -/

namespace Sys2Proof.Machine

/-! ### Register codes (Table 3.1) -/

/-- A five-bit field names a D register, which is neither FLG nor an accumulator. -/
theorem dReg_lt (w : W48) (hi lo : Nat) (h : hi + 1 - lo = 5) : fld w hi lo < 32 := by
  have := fld_lt w hi lo
  rwa [h] at this

theorem regFLG_ne_of_lt {i : Nat} (h : i < 32) : regFLG ≠ i := by unfold regFLG; omega

theorem regA_ne_of_lt (n : Nat) {i : Nat} (h : i < 32) : regA n ≠ i := by unfold regA; omega

/-! ### Two results and their flags (R133, R136, R137) -/

/-- The bank after an instruction that writes x into D register i and y into D register j, and the flags u: which of the two stands where i = j is open (log entry 79). -/
def Bank.setPair (b : Bank) (seed i j : Nat) (x y : W48) (u : FlagUpd) : Bank := (b.setD2 seed i j x y).flags u

theorem Bank.place_setPair (b : Bank) (seed i j : Nat) (x y : W48) (u : FlagUpd) : (b.setPair seed i j x y u).place = b.place := by simp [Bank.setPair]

theorem Bank.latest_setPair_other (b : Bank) (seed i j : Nat) (x y : W48) (u : FlagUpd) {q : Nat} (hq : q ∉ [i, j, regFLG]) :
    (b.setPair seed i j x y u).latest q = b.latest q := by
  simp only [List.mem_cons, List.not_mem_nil, or_false, not_or] at hq
  obtain ⟨hi, hj, hf⟩ := hq
  rw [Bank.setPair, Bank.latest_flags_other _ _ (Ne.symm hf), Bank.latest_setD2_other _ _ _ _ (Ne.symm hi) (Ne.symm hj)]

theorem Bank.latest_setPair (b : Bank) (seed : Nat) {i j : Nat} (x y : W48) (u : FlagUpd) (hi : i < 32) (hj : j < 32) (h : i ≠ j) :
    (b.setPair seed i j x y u).latest i = x.setWidth 112 ∧ (b.setPair seed i j x y u).latest j = y.setWidth 112 := by
  simp [Bank.setPair, regFLG_ne_of_lt hi, regFLG_ne_of_lt hj, b.latest_setD2_of_ne seed x y h, Ne.symm h]

theorem Bank.latest_setPair_flg (b : Bank) (seed : Nat) {i j : Nat} (x y : W48) {u : FlagUpd} (hi : i < 32) (hj : j < 32) (hu : u ≠ {}) :
    (b.setPair seed i j x y u).latest regFLG = (u.apply ((b.latest regFLG).setWidth 16)).setWidth 112 := by
  rw [Bank.setPair, Bank.latest_flags _ hu, Bank.latest_setD2_other _ _ _ _ (regFLG_ne_of_lt hi).symm (regFLG_ne_of_lt hj).symm]

/-! ### Updates that name a flag -/

theorem FlagUpd.ne_of_z {u : FlagUpd} {z : Bool} (h : u.z = some z) : u ≠ {} := by rintro rfl; cases h
theorem FlagUpd.ne_of_v {u : FlagUpd} {v : Bool} (h : u.v = some v) : u ≠ {} := by rintro rfl; cases h

theorem rndAcc_upd_ne (single satMode : Bool) (a : BitVec 112) (sh : Int) : (rndAcc single satMode a sh).upd ≠ {} := by
  cases single
  · exact FlagUpd.ne_of_z rfl
  · exact FlagUpd.ne_of_z rfl

theorem bfsc_upd_ne (satMode : Bool) (d : W48) (ex k : Int) : (bfsc satMode d ex k).2.2 ≠ {} := FlagUpd.ne_of_v rfl

/-! ### What an instruction with one or two results leaves -/

section
variable {s s' : State} {t : Time} {e : Fin 32} {r : BRow} {v : Serv} {w : W48} {f : State → Nat → Serv → W48 → IRes}

/-- An instruction whose meaning writes x into register q. -/
theorem State.Issues.writes_one {q : Nat} {x : BitVec 112} (h : s.Issues e r v w) (c : Instr) (hr : r ≠ .ctl 4) (hc : exec c s = .next (s.issue t e r f))
    (hf : f (s.tick t) (s.topDepth e) { v with bank := s.readBank v } w = .ok s' { v with bank := (s.readBank v).write q x kWB }) (hs : OnlyNotes (s.tick t) s' e) :
    Answers c s fun u => ∃ v', Retired s u e v v v' [q] ∧ Sequential s v v' ∧ MemKept s u ∧ v'.bank.latest q = x := by
  obtain ⟨u, hu, v', retired, seq, mem, latest⟩ := h.retires_in_sequence (rs := [q]) c v hr hc hf hs rfl fun p hp => by
    rw [Bank.latest_write, if_neg (List.ne_of_not_mem_cons hp).symm]
  exact ⟨u, hu, v', retired, seq, mem, by rw [latest, Bank.latest_write, if_pos rfl]⟩

/-- An instruction whose meaning writes x into D register i and flags. -/
theorem State.Issues.writes_d_flags {i : Nat} {x : W48} {g : FlagUpd} (h : s.Issues e r v w) (c : Instr) (hr : r ≠ .ctl 4) (hi : i < 32) (hg : g ≠ {})
    (hc : exec c s = .next (s.issue t e r f))
    (hf : f (s.tick t) (s.topDepth e) { v with bank := s.readBank v } w = .ok s' { v with bank := ((s.readBank v).setD i x).flags g })
    (hs : OnlyNotes (s.tick t) s' e) :
    Answers c s fun u => ∃ v', Retired s u e v v v' [i, regFLG] ∧ Sequential s v v' ∧ MemKept s u ∧ v'.bank.latest i = x.setWidth 112 ∧
      v'.bank.latest regFLG = (g.apply (((s.readBank v).latest regFLG).setWidth 16)).setWidth 112 := by
  have flg := regFLG_ne_of_lt hi
  obtain ⟨u, hu, v', retired, seq, mem, latest⟩ := h.retires_in_sequence (rs := [i, regFLG]) c v hr hc hf hs (by simp) fun q hq => by
    obtain ⟨hqi, hqf⟩ := not_or.mp (mt List.mem_cons.mpr hq)
    rw [Bank.latest_flags_other _ _ (List.ne_of_not_mem_cons hqf).symm, Bank.latest_setD, if_neg (Ne.symm hqi)]
  refine ⟨u, hu, v', retired, seq, mem, ?_, ?_⟩
  · rw [latest, Bank.latest_flags_other _ _ flg, Bank.latest_setD, if_pos rfl]
  · rw [latest, Bank.latest_flags _ hg, Bank.latest_setD, if_neg flg.symm]

/-- An instruction whose meaning writes two D registers and flags. -/
theorem State.Issues.writes_pair {seed i j : Nat} {x y : W48} {g : FlagUpd} (h : s.Issues e r v w) (c : Instr) (hr : r ≠ .ctl 4) (hi : i < 32) (hj : j < 32)
    (hg : g ≠ {}) (hc : exec c s = .next (s.issue t e r f))
    (hf : f (s.tick t) (s.topDepth e) { v with bank := s.readBank v } w = .ok s' { v with bank := (s.readBank v).setPair seed i j x y g })
    (hs : OnlyNotes (s.tick t) s' e) :
    Answers c s fun u => ∃ v', Retired s u e v v v' [i, j, regFLG] ∧ Sequential s v v' ∧ MemKept s u ∧
      (i ≠ j → v'.bank.latest i = x.setWidth 112 ∧ v'.bank.latest j = y.setWidth 112) ∧
      v'.bank.latest regFLG = (g.apply (((s.readBank v).latest regFLG).setWidth 16)).setWidth 112 := by
  obtain ⟨u, hu, v', retired, seq, mem, latest⟩ := h.retires_in_sequence (rs := [i, j, regFLG]) c v hr hc hf hs (Bank.place_setPair _ _ _ _ _ _ _) fun q hq =>
    Bank.latest_setPair_other _ _ _ _ _ _ _ hq
  exact ⟨u, hu, v', retired, seq, mem, fun ne => by rw [latest, latest]; exact Bank.latest_setPair _ _ _ _ _ hi hj ne,
    by rw [latest]; exact Bank.latest_setPair_flg _ _ _ _ hi hj hg⟩

/-- An instruction whose meaning writes an accumulator and a D register. -/
theorem State.Issues.writes_acc_d {n j : Nat} {x : BitVec 112} {y : W48} (h : s.Issues e r v w) (c : Instr) (hr : r ≠ .ctl 4) (hj : j < 32)
    (hc : exec c s = .next (s.issue t e r f))
    (hf : f (s.tick t) (s.topDepth e) { v with bank := s.readBank v } w = .ok s' { v with bank := ((s.readBank v).setA n x kWB).setD j y })
    (hs : OnlyNotes (s.tick t) s' e) :
    Answers c s fun u => ∃ v', Retired s u e v v v' [regA n, j] ∧ Sequential s v v' ∧ MemKept s u ∧
      v'.bank.latest (regA n) = x ∧ v'.bank.latest j = y.setWidth 112 := by
  obtain ⟨u, hu, v', retired, seq, mem, latest⟩ := h.retires_in_sequence (rs := [regA n, j]) c v hr hc hf hs (by simp) fun q hq => by
    obtain ⟨hqn, hqj⟩ := not_or.mp (mt List.mem_cons.mpr hq)
    rw [Bank.latest_setD, if_neg (List.ne_of_not_mem_cons hqj).symm, Bank.latest_setA, if_neg (Ne.symm hqn)]
  refine ⟨u, hu, v', retired, seq, mem, ?_, ?_⟩
  · rw [latest, Bank.latest_setD, if_neg (regA_ne_of_lt n hj).symm, Bank.latest_setA, if_pos rfl]
  · rw [latest, Bank.latest_setD, if_pos rfl]

end

/-! ### NORM by view (R136) -/

section
variable (s : State) (depth : Nat) (v : Serv) {w : W48}

theorem normMeaning_of_view0 (h : fld w 39 38 = 0) :
    normMeaning s depth v w = .ok (if fld w 33 29 = fld w 23 19 then s.useFree else s)
      (let r := normOf 48 0 (v.bank.d s.freeCtr (fld w 28 24)).toInt
       { v with bank := v.bank.setPair s.freeCtr (fld w 33 29) (fld w 23 19) (w48 r.1) (w48 r.2) { z := some (r.1 = 0), n := some (r.1 < 0) } }) := by
  simp only [normMeaning, h, Bank.setPair]

theorem normMeaning_of_view1 (h : fld w 39 38 = 1) :
    normMeaning s depth v w = .ok (if fld w 33 29 = fld w 23 19 then s.useFree else s)
      (let x := normOf 24 0 (hiLane (v.bank.d s.freeCtr (fld w 28 24)))
       let y := normOf 24 0 (loLane (v.bank.d s.freeCtr (fld w 28 24)))
       { v with
         bank := v.bank.setPair s.freeCtr (fld w 33 29) (fld w 23 19) (packLanes x.1 y.1) (packLanes x.2 y.2)
           { z := some (x.1 = 0 && y.1 = 0), n := some (x.1 < 0) } }) := by
  simp only [normMeaning, h, Bank.setPair]

theorem normMeaning_of_view2 (h : fld w 39 38 = 2) :
    normMeaning s depth v w = .ok (if fld w 33 29 = fld w 23 19 then s.useFree else s)
      (let a := v.bank.a s.freeCtr (fld w 37 36) .op
       let x := normOf 56 9 (accHi a)
       let y := normOf 56 9 (accLo a)
       { v with bank := (v.bank.setA (fld w 37 36) (packAcc x.1 y.1) kWB).setD (fld w 23 19) (packLanes x.2 y.2) }) := by
  simp only [normMeaning, h]

theorem normMeaning_of_view3 (h : fld w 39 38 = 3) :
    normMeaning s depth v w = .ok (if fld w 33 29 = fld w 23 19 then s.useFree else s)
      (let r := normOf 112 17 (v.bank.a s.freeCtr (fld w 37 36) .op).toInt
       { v with bank := (v.bank.setA (fld w 37 36) (BitVec.ofInt 112 r.1) kWB).setD (fld w 23 19) (w48 r.2) }) := by
  simp only [normMeaning, h]

end

/-! ### RDS (R138, R139) -/

theorem State.ecycOf_congr {s u : State} (kept : u.perf.ecycKept = s.perf.ecycKept) (since : u.perf.ecycFrom = s.perf.ecycFrom) (now : u.now = s.now) :
    u.ecycOf = s.ecycOf := by
  funext e
  simp only [State.ecycOf, kept, since, now]

theorem State.wr48_ecycOf (s : State) (a : Nat) (v : W48) : (s.wr48 a v).ecycOf = s.ecycOf :=
  State.ecycOf_congr (by simp [State.wr48_eq]) (by simp [State.wr48_eq]) (by simp [State.wr48_eq])

theorem State.wraps_ecycOf (s : State) (l : List Nat) : ({ s with perf := { s.perf with wraps := l } } : State).ecycOf = s.ecycOf :=
  State.ecycOf_congr rfl rfl rfl

theorem State.pcntAdd_ecycOf (s : State) (e i n : Nat) : (s.pcntAdd e i n).ecycOf = s.ecycOf := by
  unfold State.pcntAdd
  dsimp only
  split
  · exact State.wr48_ecycOf _ _ _
  · exact (State.wraps_ecycOf _ _).trans (State.wr48_ecycOf _ _ _)

theorem State.perfEv_ecycOf (s : State) (e code n : Nat) (off : Option Nat) : (s.perfEv e code n off).ecycOf = s.ecycOf := by
  unfold State.perfEv
  split
  · rfl
  · refine List.foldlRecOn (motive := fun u : State => u.ecycOf = s.ecycOf) _ _ rfl fun u hu i _ => ?_
    split
    · exact (u.pcntAdd_ecycOf e i n).trans hu
    · exact hu

theorem State.slots_ecycOf (s : State) (e k : Nat) : (s.slots e k).ecycOf = s.ecycOf := by
  have foldl {β : Type} (code : β → Nat) (n : Nat) (off : β → Option Nat) (l : List β) (u : State) :
      (l.foldl (fun s x => s.perfEv e (code x) n (off x)) u).ecycOf = u.ecycOf :=
    List.foldlRecOn (motive := fun x : State => x.ecycOf = u.ecycOf) l _ rfl fun x hx y _ => (x.perfEv_ecycOf e (code y) n (off y)).trans hx
  exact (foldl (fun _ => 0x22) _ (fun l : FLoad => l.at'.off) _ _).trans (foldl (fun c => c) _ (fun _ => none) _ _)

/-- Counting events changes no source of RDS but the programmable counters, sources 4 to 11. -/
theorem OnlyCounts.rdsValue {s u : State} {e src : Nat} (h : OnlyCounts s u e) (hc : u.ecycOf = s.ecycOf) (key : Nat) (hsrc : src < 4 ∨ 12 ≤ src) :
    u.rdsValue e key src = s.rdsValue e key src := by
  have fired : u.opSt key = s.opSt key := by have := congrArg (fun x : State => x.opSt key) h.rest; exact this
  have ctx : u.opCtx key = s.opCtx key := by have := congrArg (fun x : State => x.opCtx key) h.rest; exact this
  have inv : u.inv = s.inv := by have := congrArg (fun x : State => x.inv) h.rest; exact this
  have rst : u.rst = s.rst := by have := congrArg (fun x : State => x.rst) h.rest; exact this
  have rd : ∀ a ∈ [R.pair_PCFG, R.perfCommon_PCTL, R.invarCore_RATE], u.rd a = s.rd a := fun a ha =>
    h.quiet a List.not_mem_nil (by revert a; decide)
  have pair : u.pairMode = s.pairMode := congrArg (bit · 0) (rd _ (by simp))
  have stamp : u.opStamp key = s.opStamp key := by simp only [State.opStamp, fired, pair]
  have ns : u.nsNow = s.nsNow := by simp only [State.nsNow, State.nsAt, State.devTime, State.counter, State.rate, h.now, inv, rst, rd R.invarCore_RATE (by simp)]
  have hidden : u.countersHidden key = s.countersHidden key := by
    simp only [State.countersHidden, State.b, ctx, pair, rd R.perfCommon_PCTL (by simp)]
  rcases hsrc with low | high
  · have sources : src = 0 ∨ src = 1 ∨ src = 2 ∨ src = 3 := by omega
    rcases sources with rfl | rfl | rfl | rfl <;> simp [State.rdsValue, stamp, pair, ns, hidden, hc]
  · have off : src ≠ 0 ∧ src ≠ 1 ∧ src ≠ 2 ∧ src ≠ 3 ∧ ¬src < 12 := by omega
    simp [State.rdsValue, stamp, off]

/-! ### The commands -/

/-- Settles O19: the meaning of each instruction writes one register, a D register and flags, two D registers and flags, or an accumulator and a D register, and the lemma
above for its case says what it leaves; POST writes no register. -/
theorem registerInstructions : Obligations.RegisterInstructions := by
  unfold Obligations.RegisterInstructions
  refine ⟨fun s t e v w h => h.writes_one (.movs t e) (by decide) rfl rfl (OnlyNotes.refl _ _),
    fun s t e v w h => h.writes_one (.movr t e) (by decide) rfl rfl (OnlyNotes.refl _ _),
    fun s t e v w h => h.writes_one (.movi t e) (by decide) rfl rfl (OnlyNotes.refl _ _),
    fun s t e v w h => h.writes_d_flags (.rnd t e) (by decide) (dReg_lt w 33 29 rfl) (rndAcc_upd_ne _ _ _ _) rfl rfl (State.perfEv_counts _ e _ _ _ e.isLt).notes,
    fun s t e v w h => h.writes_one (.mova t e) (by decide) rfl rfl (OnlyNotes.refl _ _),
    fun s t e v w h => h.writes_one (.clr t e) (by decide) rfl rfl (OnlyNotes.refl _ _),
    fun s t e v w h => h.writes_one (.exp t e) (by decide) rfl rfl (OnlyNotes.refl _ _),
    fun s t e v w h view => ?norm0, fun s t e v w h view => ?norm1, fun s t e v w h view => ?norm2, fun s t e v w h view => ?norm3,
    fun s t e v w h => ?bfsc, fun s t e v w h src => ?rds, fun s t e v w h out => ?post, fun s t e v w h _ _ => ?rdsCounter, fun s t e v w h out => ?postNone⟩
  case norm0 =>
    exact h.writes_pair (.norm t e) (by decide) (dReg_lt w 33 29 rfl) (dReg_lt w 23 19 rfl) (FlagUpd.ne_of_z rfl) rfl (normMeaning_of_view0 _ _ _ view)
      (OnlyNotes.useFreeIf _ _ _)
  case norm1 =>
    exact h.writes_pair (.norm t e) (by decide) (dReg_lt w 33 29 rfl) (dReg_lt w 23 19 rfl) (FlagUpd.ne_of_z rfl) rfl (normMeaning_of_view1 _ _ _ view)
      (OnlyNotes.useFreeIf _ _ _)
  case norm2 =>
    exact h.writes_acc_d (.norm t e) (by decide) (dReg_lt w 23 19 rfl) rfl (normMeaning_of_view2 _ _ _ view) (OnlyNotes.useFreeIf _ _ _)
  case norm3 =>
    exact h.writes_acc_d (.norm t e) (by decide) (dReg_lt w 23 19 rfl) rfl (normMeaning_of_view3 _ _ _ view) (OnlyNotes.useFreeIf _ _ _)
  case bfsc =>
    exact h.writes_pair (.bfsc t e) (by decide) (dReg_lt w 33 29 rfl) (dReg_lt w 23 19 rfl) (bfsc_upd_ne _ _ _ _) rfl rfl
      ((OnlyNotes.useFreeIf _ _ _).trans (State.perfEv_counts _ e _ _ _ e.isLt).notes)
  case rds =>
    have counts := State.slots_counts (s.tick t) e (s.eng e).slotClass e.isLt
    rw [← counts.rdsValue (State.slots_ecycOf _ _ _) v.key src]
    exact h.writes_one (.rds t e) (by decide) rfl rfl counts.notes
  case rdsCounter =>
    exact h.writes_one (.rds t e) (by decide) rfl rfl (State.slots_counts (s.tick t) e (s.eng e).slotClass e.isLt).notes
  case post =>
    have posts : postMeaning (s.tick t) (s.topDepth e) { v with bank := s.readBank v } w = .ok (s.tick t)
        { v with posted := Tab.set v.posted (fld w 39 38) ((s.readBank v).d s.freeCtr (fld w 33 29)) 0, bank := s.readBank v } :=
      congrArg (IRes.ok _) (if_pos out)
    obtain ⟨u, hu, v', retired, seq, mem, -⟩ := h.retires_in_sequence (.post t e)
      { v with posted := Tab.set v.posted (fld w 39 38) ((s.readBank v).d s.freeCtr (fld w 33 29)) 0 } (by decide) rfl posts (OnlyNotes.refl _ _) rfl fun _ _ => rfl
    exact ⟨u, hu, v', retired, seq, mem⟩
  case postNone =>
    have keeps : postMeaning (s.tick t) (s.topDepth e) { v with bank := s.readBank v } w = .ok (s.tick t) { v with bank := s.readBank v } :=
      congrArg (IRes.ok _) (if_neg (Nat.not_lt.mpr out))
    obtain ⟨u, hu, v', retired, seq, mem, -⟩ := h.retires_in_sequence (.post t e) v (by decide) rfl keeps (OnlyNotes.refl _ _) rfl fun _ _ => rfl
    exact ⟨u, hu, v', retired, seq, mem⟩

end Sys2Proof.Machine
end
